-- ==== Sys2Proof/Word.lean ====
section
/-! DEFINITION. The word types of the WE7128 model and the closed sets of names that commands carry. -/

namespace Sys2Proof

/-- One byte as the engine and its partners exchange it. -/
abbrev Byte := BitVec 8

/-- The digital inputs of R233: STOP_L, PFAIL_L, the limit and home inputs of an axis, and the three lines of an
encoder input. `active` is the active level of an active-low input. -/
inductive DigIn where
  | stop
  | pfail
  | limP (a : Fin 8)
  | limN (a : Fin 8)
  | home (a : Fin 8)
  | encA (i : Fin 4)
  | encB (i : Fin 4)
  | encI (i : Fin 4)
  deriving DecidableEq, Repr

/-- How a burst of a DMA channel ended (R65): moved, a host access failed, a DRAM access failed. -/
inductive BurstStatus where
  | ok
  | hostError
  | dramError
  deriving DecidableEq, Repr

/-- What reading a protected word finds (R268, R269, R293, R303, R304). -/
inductive ReadOutcome where
  | clean
  | corrected
  | marker
  | uncorrectable
  deriving DecidableEq, Repr

/-- The three ends of a retrain (R282). -/
inductive RetrainOutcome where
  | newSetting
  | fallback
  | failed
  deriving DecidableEq, Repr

/-- The triggers of the shedding stages (R344), in the bit order of 4200h:05h. -/
inductive Trigger where
  | voltage
  | current
  | pfail
  | dieHot
  | dieCritical
  | converter
  deriving DecidableEq, Repr

/-- PCI Express link events that reach the engine (R353), and what host software sets in configuration space. -/
inductive LinkEvent where
  | trained (speed : Fin 5) (width : Fin 9)
  | l1Entry
  | l1Exit
  | dState (d3 : Bool)
  | aspm (enabled : Bool)
  deriving DecidableEq, Repr

/-- What an access on the JTAG debug port asks for (R371). -/
inductive DebugAccess where
  | identity
  | core (p : Fin 4)
  | fuseProgram (w : Fin 512) (data : BitVec 32)
  | fuseSeal (w : Fin 512)
  | toDevelop
  deriving DecidableEq, Repr

/-- What a word of the on-chip memories holds, where a poisoned word has an effect of its own (R155, R175, R301). -/
inductive Holding where
  | other
  | working (e : Nat)
  | staging (e : Nat)
  | plan (b y : Nat)
  | deficits (b : Nat)
  | mask (m cell : Nat)
  | driveMap (b i : Nat)
  | fireCount (e : Nat)
  | logEntry (i : Nat)
  deriving DecidableEq, Repr, Inhabited

end Sys2Proof
end

