-- ==== Sys2Proof/Syntax.lean ====
section
/-! DEFINITION. The commands of the WE7128, one constructor per row of spec/opcode_table.json, in the table's order.
Operands carry what comes from outside the engine with the command; the rule that governs each row is named beside it. -/

namespace Sys2Proof

/-- A command: one whole, indivisible step of the part (95_what_each_step_holds.md). -/
inductive Instr where
  /-- R11: A host write to a BAR0 register that has no row of its own stores the value as its access code states. -/
  | registerWrite (off : BitVec 24) (v : BitVec 32)
  /-- R399: A write to a dictionary entry that has no row of its own is checked in order and takes effect in its
      entry's class. -/
  | dictionaryWrite (idx : BitVec 16) (sub : Byte) (data : List Byte)
  /-- R11: A write of 1 to an RW1C status bit (DMA DONE or event bits, mailbox DONE or GO_IGNORED) clears that bit. -/
  | rw1cStatusClear (off : BitVec 24) (v : BitVec 32)
  /-- R60: A read of the RC register BAR2_ERR returns the count and clears it. -/
  | bar2ErrRead
  /-- R61: A read of a channel's RC register SURPLUS returns the surplus byte count and clears it. -/
  | surplusRead (d : Fin 36)
  /-- R77: A read of the event ring's RC register DROPPED returns the dropped-record count and clears it. -/
  | droppedRead
  /-- R26: A partition's 100 ms watchdog expires; a Stop-class fault is raised and the partition restarts from its
      running image. -/
  | partitionWatchdogExpiry (p : Fin 4)
  /-- R27: A restarting or switching partition reports ready, its entries are served again and a held panel boundary
      is released. -/
  | partitionReady (p : Fin 4)
  /-- R30: A signed image written to 440ph:07h is stored in the inactive slot, its signature is checked and it
      becomes staged. -/
  | partitionImageWrite (p : Fin 4) (img : List Byte)
  /-- R30: A write to 440ph:05h requests or cancels a partition switch at the next panel boundary. -/
  | switchRequest (p : Fin 4) (v : Byte)
  /-- R29: A new image that has not reported ready within 2 s is replaced by the previous slot, the fallback count
      is incremented and a Warning is raised. -/
  | partitionFallback (p : Fin 4)
  /-- R51: Job command 1 checks the job parameters, fixes the store geometry, starts store clearing and moves the
      job to Boundary. -/
  | jobStart
  /-- R51: Job command 2 sets hold cause 0, so the job holds at the next boundary. -/
  | jobPause
  /-- R52: Job command 3 clears hold causes 0 and 1 where permitted. -/
  | jobResume
  /-- R51: Job command 4 makes the current panel the last one of the job. -/
  | jobEndAfterPanel
  /-- R51: Job command 5 sends BLANK on every head, aborts the job's contexts, releases the store and takes the job
      to Idle. -/
  | jobAbort
  /-- R45: A write of the job length in any job state is taken at the next forecast and boundary. -/
  | jobLengthWrite (v : BitVec 32)
  /-- R47: A write of 1 to 2201h:06h arms the staged writes for the next boundary, or applies them at once in Idle. -/
  | applyStaged
  /-- R32: At the scheduled launch the engine checks the launch conditions and either launches axis 0 or cuts the
      panel. -/
  | launchCheck
  /-- R34: At 10 ms before the first FIRE edge axis 1 is checked; if out of its window the transit prints BLANK and
      a Stop-class fault is raised. -/
  | axis1Gate
  /-- R129: At a transit's last FIRE edge, ring rows are released, deficit records freed, drains completed and the
      next media advance begun. -/
  | transitEnd
  /-- R46: A panel boundary closes the report, applies staged writes, switches a partition, returns heads, applies
      peer rules, evaluates holds and forecasts. -/
  | panelBoundary
  /-- R41: While the job is held for STARVED the forecast is repeated every 100 ms. -/
  | forecastRetry
  /-- R63: START runs a direct transfer or fetches the chain at DESC, or is ignored and sets START_IGNORED. -/
  | dmaStart (d : Fin 32)
  /-- R66: STOP parks the channel in STOPPED at the next descriptor boundary or at once from AT_END. -/
  | dmaStop (d : Fin 32)
  /-- R67: DOORBELL re-reads the tail descriptor in AT_END or latches DB_PENDING while running. -/
  | dmaDoorbell (d : Fin 32)
  /-- R61: RESET returns a channel from ERROR or STOPPED to IDLE and clears its status. -/
  | dmaReset (d : Fin 32)
  /-- R62: A descriptor read completes; it is checked and begins executing or raises an error. -/
  | descriptorFetch (d : Fin 32) (reply : Option (List Byte))
  /-- R64: A DMA burst finishes moving its data; errors and surplus are recorded. -/
  | dmaBurstComplete (d : Fin 36) (data : List Byte) (late : Nat) (status : BurstStatus)
  /-- R64: A descriptor's completion condition holds; DONE, AT_END or STOPPED follow and the successor is fetched. -/
  | descriptorComplete (d : Fin 32)
  /-- R67: The 12-byte re-read of a tail descriptor returns and the channel follows NEXT or stays in AT_END. -/
  | doorbellReread (d : Fin 32) (reply : Option (List Byte))
  /-- R69: A withdrawn peripheral request returns and the waiting channel issues its next burst. -/
  | peripheralRequestReturn (d : Fin 36)
  /-- R77: Setting ENABLE resets WR and the phase and starts record generation. -/
  | eventRingEnable
  /-- R77: A write of RD frees ring space, and the engine first writes an overflow record when space returns. -/
  | eventRingRdWrite (v : BitVec 16)
  /-- R77: The vector-0 holdoff ends and records written during it are signalled. -/
  | eventHoldoffExpiry
  /-- R78: An FLR resets configuration space, host channels, event ring and MSI-X, cuts channels and faults cut
      contexts. -/
  | functionLevelReset
  /-- R78: A conventional reset resets the whole engine and begins Dawn. -/
  | conventionalReset
  /-- R71: Command 1 opens a Closed context after checking its settings and the coverage frontier. -/
  | contextOpen (c : Fin 256)
  /-- R71: Command 2 closes a context and updates the frontier. -/
  | contextClose (c : Fin 256)
  /-- R71: Command 3 discards the ring and takes the context to Closed. -/
  | contextAbort (c : Fin 256)
  /-- R74: Command 4 returns a faulted context to Open, or to Ended if its LAST block has passed. -/
  | contextRetry (c : Fin 256)
  /-- R73: A free decode engine takes the oldest complete block of the next eligible context. -/
  | decodeBlockTake
  /-- R89: A decoded block's CRC is compared; on a match its bytes are committed and its ring space freed. -/
  | decodeBlockComplete (j : Fin 16) (poisoned : Bool)
  /-- R91: A decode engine stalled on a full output buffer resumes when one byte of space frees. -/
  | decodeResume (j : Fin 16)
  /-- R104: Command 1 arms the proof encoder for the next panel to commit. -/
  | proofArm
  /-- R107: Command 2 ends the current proof block after the token being packed. -/
  | proofEndBlock
  /-- R107: Command 3 ends the current proof block with FLUSH set. -/
  | proofEndBlockFlush
  /-- R107: Command 4 abandons the proof block in progress and returns the state to 0. -/
  | proofCancel
  /-- R106: The proof encoder writes a block's body then header and advances the write offset. -/
  | proofBlockWritten
  /-- R106: A write of the proof read offset frees ring space and lets a held encoder resume. -/
  | proofReadOffsetWrite (v : BitVec 32)
  /-- R110: A lane screens a row that has become screenable and writes complete four-row groups through the
      combiner. -/
  | screenRow (c : Fin 256) (poisoned : Bool)
  /-- R128: The lane completing a block reads its raw form, encodes, verifies and writes the coded form and tag. -/
  | encodePass (decodeDiffers : Bool) (rawDiffers : Bool)
  /-- R116: A tone curve DOMAIN write is checked and staged. -/
  | toneCurveWrite (b : Fin 8) (data : List Byte)
  /-- R117: Command 1 of 2420h + b:03h reads, checks and stages a threshold array image. -/
  | arrayLoad (b : Fin 8)
  /-- R125: Clearing of the store, tag and count regions completes and screening may begin. -/
  | storeClearComplete
  /-- R136: Command 1 of 251mh:03h reads, checks and loads a pass mask. -/
  | maskLoad (m : Fin 16)
  /-- R142: A write of 2600h:02h stores the masked value in the staging entry and advances the index if auto-
      increment is set. -/
  | catalogueWindowWrite (v : BitVec 32)
  /-- R142: A read of 2600h:02h returns the staging entry and advances the index if auto-increment is set. -/
  | catalogueStagingRead
  /-- R143: Image command 1 loads whole heads into the staging Catalogue. -/
  | catalogueLoad
  /-- R143: Image command 2 writes the working entries of the selected heads to DRAM. -/
  | catalogueDump
  /-- R148: Command 1 of 2521h eclipses a head with drain from the next launch check. -/
  | headEclipse (h : Fin 128)
  /-- R148: Command 2 of 2521h returns a draining head to In service at the next launch check. -/
  | headCancelDrain (h : Fin 128)
  /-- R234: A filtered quadrature count arrives and updates the count, the monotonic filter and the Meridian
      interpolator. -/
  | encoderCount (i : Fin 4) (a : Bool) (b : Bool) (dt : Nat)
  /-- R234: A filtered rising edge of I latches the count in 30iFh:0Ch. -/
  | encoderIndex (i : Fin 4)
  /-- R160: The interpolator's position reaches the beginning of a line and issues that line's tick. -/
  | meridianTick
  /-- R177: The strobe falls when its bank's pulse width has elapsed. -/
  | firePulseEnd (b : Fin 8)
  /-- R178: A strobe still high 2 us after rising is forced low and the head goes to Lost. -/
  | strobeWatchdogTrip (h : Fin 128)
  /-- R163: A not-yet-written tag is read again every 1.0 us. -/
  | fetchTagReread (b : Fin 8) (bx : Nat) (by_ : Nat)
  /-- R163: A tag and its payload return and pass the checks, and the block is accepted. -/
  | fetchBlockAccept (b : Fin 8) (bx : Nat) (by_ : Nat)
  /-- R163: At the PIPE tick of D - 2 blocks not yet accepted fail the slice-lines that need them. -/
  | fetchDeadline
  /-- R162: At the PIPE tick of D - 2 compose and twin start compose line D and head bands are updated. -/
  | composeLineStart
  /-- R170: Compose line D is written with check words after main and twin check words are compared. -/
  | composeLineComplete (twin : List (Fin 128 × Fin 32)) (poison : List (Fin 128 × Fin 32))
  /-- R162: At the PIPE tick of D - 1 slice-lines not yet written fail with cause 4. -/
  | composeDeadline
  /-- R171: The serializer starts frame D, reads and rechecks its slice-lines, sets the header and sends it. -/
  | frameSerialize (h : Fin 128) (readback : List (Fin 32))
  /-- R172: A frame not complete by its serialize deadline is cut and its line blanked with cause 4. -/
  | serializeDeadline (h : Fin 128)
  /-- R193: A STATUS frame from a head is checked, its temperature taken and its echo and limits evaluated. -/
  | statusReceived (h : Fin 128) (frame : List Byte)
  /-- R194: No passing echo of frame D has arrived by the HEAD tick of D + 2 and it is an echo failure. -/
  | echoDeadline (h : Fin 128)
  /-- R184: A RET receiver completes its comma and character count, comes up and the head is detected. -/
  | retReceiverUp (h : Fin 128)
  /-- R184: A RET receiver loses commas or sees too many errors and goes down, losing an in-service head. -/
  | retReceiverDown (h : Fin 128) (codeErrors : Nat)
  /-- R185: A suspended receiver not up within 100 us of relock goes down. -/
  | retRealignTimeout (h : Fin 128)
  /-- R198: The engine sends a pending head command in a gap the LINE frames leave. -/
  | headCommandIssue (h : Fin 128)
  /-- R197: A RESP with matching TAG and valid CHK completes the outstanding head command. -/
  | respReceived (h : Fin 128) (frame : List Byte)
  /-- R197: No matching RESP within the timeout; the command is resent or given up with a Warning. -/
  | headCommandTimeout (h : Fin 128)
  /-- R208: Command 1 of 2704h:05h reads head memory. -/
  | headMemRead
  /-- R208: Command 2 of 2704h:05h writes head memory. -/
  | headMemWrite
  /-- R208: Command 3 of 2704h:05h commits staged waveforms in the head. -/
  | headMemCommit
  /-- R208: Command 4 of 2704h:05h pings the head. -/
  | headPing
  /-- R212: Command 1 of 2100h + h:0Dh moves a head to Quarantined. -/
  | headBeginReturn (h : Fin 128)
  /-- R211: Command 2 of 2100h + h:0Dh releases a quarantined head that passed its checks. -/
  | headRelease (h : Fin 128)
  /-- R212: A head in state 4 below soft limit minus hysteresis for 2 s goes to state 5. -/
  | headCooldownExpiry (h : Fin 128)
  /-- R221: No valid temperature for 1 ms makes a head's temperature stale and raises a Warning. -/
  | temperatureStale (h : Fin 128)
  /-- R221: A temperature stale for 100 ms is handled as reaching the hard limit. -/
  | temperatureStaleLimit (h : Fin 128)
  /-- R213: An ADC slot measures one element's resistance and forms its code and verdict. -/
  | resistanceSlot (h : Fin 128) (uv : Nat) (missed : Bool)
  /-- R215: A turnaround measurement window opens 2 ms after the last FIRE edge and sets MEAS. -/
  | measurementWindowOpen
  /-- R215: The window closes 6 ms before the next first FIRE edge and restores CONTROL. -/
  | measurementWindowClose
  /-- R215: In Idle or Held a sweep starts every 3420h:09h seconds. -/
  | idleSweepTimer
  /-- R215: Command 1 of 3420h:02h starts or resumes a resistance sweep. -/
  | sweepCommand
  /-- R227: A write of 1 to 3420h:0Bh empties the verdict list and clears its overflow. -/
  | verdictListClear
  /-- R218: Watch command 1 runs drop-watch on every participating head. -/
  | watchAllHeads
  /-- R218: Watch command 2 runs drop-watch on the heads in state 5. -/
  | watchQuarantinedHeads
  /-- R219: Watch command 3 ends the run with state 3. -/
  | watchAbandon
  /-- R216: The drop-watch timer issues a line and one element per bank is fired. -/
  | dropwatchTick
  /-- R217: The arrival window of a fired element ends and the element is judged good, missing or deviated. -/
  | dropWindowEnd (b : Fin 8) (arrival : Option Nat)
  /-- R224: Every 3460h:01h minutes the fire counts are written back to each head's FIRE_COUNT. -/
  | fireCountWritebackTimer
  /-- R225: A write of 3460h:02h checks the region and seeds the fire-count table from the heads. -/
  | fireCountTableSet (v : BitVec 64)
  /-- R230: A servo period begins; each axis sends its set-point frame and supervision runs. -/
  | servoPeriod
  /-- R230: A drive's reply frame is received and accepted or discarded. -/
  | axisReply (a : Fin 8) (frame : List Byte)
  /-- R232: No reply is accepted by 40 us; it is counted and the link may be lost. -/
  | axisReplyDeadline (a : Fin 8)
  /-- R239: Axis command 1 enables a disabled axis. -/
  | axisEnable (a : Fin 8)
  /-- R239: Axis command 2 disables the axis. -/
  | axisDisable (a : Fin 8)
  /-- R237: Axis command 3 starts a move to the target. -/
  | axisMove (a : Fin 8)
  /-- R238: Axis command 4 starts the stop ramp. -/
  | axisStop (a : Fin 8)
  /-- R239: Axis command 5 sets the actual position to the target value. -/
  | axisSetPosition (a : Fin 8)
  /-- R239: Axis command 6 resets an axis fault once its cause has cleared. -/
  | axisFaultReset (a : Fin 8)
  /-- R237: A write of the follow ratio G takes both bases and starts or ends following of axis 1. -/
  | followRatioWrite (a : Fin 8) (g : BitVec 32)
  /-- R239: The hold delay expires at standstill and the axis goes to Holding. -/
  | holdDelayExpiry (a : Fin 8)
  /-- R233: A filtered digital input takes a new level and its consumers act. -/
  | inputChange (i : DigIn) (active : Bool)
  /-- R233: An unstable input has had no glitch for 10 ms and leaves the unstable state. -/
  | inputStableTimeout (i : DigIn)
  /-- R233: An input active beyond its stuck timeout is reported stuck with a cause-10 fault. -/
  | inputStuckTimeout (i : DigIn)
  /-- R254: With no tick for 100 us the warming loops are evaluated on the timer. -/
  | warmingTimer
  /-- R255: A CONTROL write answered RESULT 3 is resent 1 ms later. -/
  | idleWarmRetry (h : Fin 128)
  /-- R249: Every 1 ms each zone loop and HV channel is evaluated and its output driven. -/
  | zoneEvaluation
  /-- R251: A write of 1 to a loop or input sticky flag clears it. -/
  | stickyFlagClear (idx : BitVec 16) (sub : Byte) (v : Byte)
  /-- R258: Command 1 of 3200h + c:07h clears a latched HV trip. -/
  | hvClearTrip (c : Fin 4)
  /-- R259: An ADC converts one general analog input at the end of a head slot. -/
  | analogConversion (i : Fin 64) (code : BitVec 12)
  /-- R262: Trace command 1 arms a unit and starts recording. -/
  | traceArm (u : Fin 4)
  /-- R262: Trace command 2 triggers the unit. -/
  | traceTrigger (u : Fin 4)
  /-- R263: Trace command 3 ends recording at once with state 4. -/
  | traceStop (u : Fin 4)
  /-- R268: A DRAM read returns corrected, as a marker or uncorrectable, and is delivered or errored. -/
  | dramReadComplete (addr : Nat) (outcome : ReadOutcome) (class0ns : Nat)
  /-- R284: ALERT_n is asserted; commands are retried and a repeating rank is migrated. -/
  | dramAlert (ch : Fin 4) (rank : Fin 4) (again : Bool)
  /-- R284: Command 2 of 4010h + ch:10h starts migration of the named rank. -/
  | migrateCommand (ch : Fin 4)
  /-- R291: Command 1 of 4010h + ch:10h retrains the channel now. -/
  | retrainCommand (ch : Fin 4)
  /-- R281: A due channel begins periodic retraining in a permitted window. -/
  | retrain (ch : Fin 4)
  /-- R282: A retrain ends with a new setting, the previous one, or the channel out of service. -/
  | retrainComplete (ch : Fin 4) (outcome : RetrainOutcome)
  /-- R285: The migration sequencer copies one line to the spare and advances P. -/
  | migrationLineCopy (ch : Fin 4) (outcome : ReadOutcome)
  /-- R287: Marking of DRAM UNWRITTEN completes and held requests are served. -/
  | markingComplete
  /-- R278: A same-bank refresh falls due and is issued or postponed within its limit. -/
  | refreshDue (ch : Fin 4) (rank : Fin 4) (bank : Fin 4) (idle : Bool) (rate : Fin 3)
  /-- R279: A bank idle for the page idle time closes its row. -/
  | pageIdleTimeout (ch : Fin 4) (rank : Fin 4) (bank : Fin 32)
  /-- R289: Each 1 ms the controller publishes imbalance and usable bandwidth and may raise a Notice. -/
  | bandwidthWindow (rd : List Nat) (wr : List Nat) (class0 : List Nat)
  /-- R303: The on-chip scrubber reads a word in an idle cycle and corrects or poisons it. -/
  | scrubWord (g : Fin 8) (word : BitVec 31) (finding : ReadOutcome)
  /-- R299: Partition 3 writes a remap record to boot flash within 1 s. -/
  | remapRecordWrite (g : Fin 8) (slot : Fin 16) (ok : Bool)
  /-- R304: The DRAM patrol reads a line and corrects it or starts a migration. -/
  | patrolLine (addr : Nat) (outcome : ReadOutcome)
  /-- R313: The collector takes a fault message, classifies, escalates or shadows it, logs it and applies its
      reaction. -/
  | faultMessage (src : Byte) (kind : Byte) (detail : BitVec 40)
  /-- R314: An incident's window of 4100h:08h after its opening ends. -/
  | incidentWindowEnd (seq : Nat)
  /-- R317: A shadow window's end condition and extension elapse and the window closes. -/
  | shadowWindowEnd (w : Nat)
  /-- R321: A further repeat-count record is written for a growing entry once per 4100h:06h. -/
  | repeatRecordTimer (seq : Nat)
  /-- R318: A write of 4100h:02h acknowledges an entry and its incident. -/
  | acknowledgeEntry (seq : BitVec 32)
  /-- R318: A write of 4100h:03h acknowledges every entry of that class or lower. -/
  | acknowledgeClass (c : Byte)
  /-- R319: A write of 4100h:09h drives FAULT_L low or releases it after the minimum. -/
  | faultLHoldWrite (v : Bool)
  /-- R319: The 100 us FAULT_L minimum ends and a pending clear takes effect. -/
  | faultLMinimumExpiry
  /-- R328: The AON monitor counts REF cycles over a window and asserts power-on reset on a loss of REF. -/
  | refMonitorWindow (count : Nat)
  /-- R331: A PLL's lock detector declares lock after its band search and settling. -/
  | pllLockDeclared (x : Fin 3) (band : Fin 64) (us : BitVec 16)
  /-- R335: Lock held for 100 us switches the PLL's domains back and the PLL enters state 2. -/
  | pllLockConfirmed (x : Fin 3)
  /-- R331: A lock attempt not locked within 500 us fails and is counted. -/
  | pllAttemptFailed (x : Fin 3)
  /-- R331: 10 ms after a failed attempt a new lock attempt begins. -/
  | pllRetryTimer (x : Fin 3)
  /-- R334: A PLL loses lock; its outputs switch to REF and a 0Ch:01h message is raised. -/
  | pllLossOfLock (x : Fin 3)
  /-- R334: A PLL's CLK_IN is lost or off-frequency; its outputs switch to REF. -/
  | pllLossOfReference (x : Fin 3)
  /-- R335: 1 us after a loss of lock the PLL begins a new lock. -/
  | pllRelockStart (x : Fin 3)
  /-- R335: CLK_IN within tolerance for 1 ms lets a PLL in state 4 start relocking. -/
  | clkInGood (x : Fin 3)
  /-- R337: Command 1 of 42nxh:09h relocks the PLL with its written source and scaling. -/
  | pllRelock (x : Fin 3)
  /-- R332: A write of an output delay takes effect within one output period by stretching it. -/
  | pllDelayWrite (x : Fin 3) (o : Fin 3) (v : Byte)
  /-- R333: Command 1 of 4280h:06h arms the SYNC_IN divider reset. -/
  | syncArm
  /-- R333: The first SYNC_IN rising edge after the arm resets the selected PLLs' output dividers. -/
  | syncInEdge
  /-- R344: A stage trigger becomes present and that stage and all below it take effect. -/
  | sheddingStageEntry (t : Trigger) (vin : BitVec 16) (iin : BitVec 16)
  /-- R346: A stage's release condition has held for 50 ms and the stage releases. -/
  | sheddingStageRelease (k : Fin 5) (vin : BitVec 16) (iin : BitVec 16)
  /-- R349: VIN below 6.5 V asserts power-on reset, held until VIN has been at 7.0 V for 10 ms. -/
  | powerOnReset (recovered : Bool)
  /-- R342: A rail outside its window for 2 us asserts power-on reset. -/
  | railFault (r : Fin 9) (mv : BitVec 16)
  /-- R342: An AUX5 overload folds the output back to 0.5 A. -/
  | aux5Overload (present : Bool)
  /-- R361: A write of 0 to 4200h:06h restarts the lowest-voltage record from the present value. -/
  | lowestVinReset
  /-- R351: After the entry delay with no blocking condition the engine enters the deepest permitted idle state. -/
  | idleStateEntry
  /-- R353: A wake event returns the engine to Awake from an idle state. -/
  | wakeEvent (cause : Fin 8)
  /-- R354: Exit from Twilight or Night completes; receivers realign and IDENT is read from in-service heads. -/
  | idleExitComplete (us : BitVec 32)
  /-- R354: A receiver not up within 1 ms of exit goes down. -/
  | headRealignTimeout (h : Fin 128)
  /-- R355: A die sensor is sampled and limits, failures and compensation are evaluated. -/
  | dieSensorSample (sensor : Fin 12) (reading : Option Int)
  /-- R358: A 125 deg C comparator trips and latches thermal shutdown. -/
  | thermalShutdown
  /-- R366: Fuse command 1 blows the new bits of the selected word. -/
  | fuseProgram (supply : Bool) (fails : List Nat)
  /-- R366: Fuse command 2 blows the check bits and then the seal bit of the word. -/
  | fuseSeal (supply : Bool) (fails : List Nat)
  /-- R367: Fuse command 3 programs and seals the region's lock word. -/
  | fuseLock (supply : Bool) (fails : List Nat)
  /-- R372: A write of 4310h:01h programs the transition word and resets the engine into Dawn. -/
  | lifecycleTransition (target : Byte) (supply : Bool)
  /-- R373: A write of 4310h:06h evaluates the authorisation object and revokes the named key slot. -/
  | keyRevoke (supply : Bool)
  /-- R368: Dawn step 2 senses every fuse word at two margins and forms or fails each word. -/
  | dawnFuseRead (weak : List (Nat × Nat))
  /-- R295: Dawn step 3 writes every on-chip word to zero. -/
  | dawnWipe
  /-- R376: Dawn step 5 verifies and loads the partition images, remap records and configuration. -/
  | dawnBootRom
  /-- R280: Dawn step 6 trains every channel and begins marking. -/
  | dawnDramTraining (trained : BitVec 4)
  /-- R409: Dawn step 7 starts the partitions and applies the stored dictionary. -/
  | dawnPartitionStart
  /-- R387: Dawn step 8 resets communication, runs Fastscan and configures enabled peers. -/
  | dawnPeerDiscovery
  /-- R387: Step 8 ends when 5000h:0Ah ms have passed since it began. -/
  | dawnDiscoveryTimeout
  /-- R209: Dawn step 9 puts heads with receiver up in state 5 and the others in state 6. -/
  | dawnHeadDiscovery
  /-- R387: An LSS Fastscan step receives its reply or times out and the scan proceeds or assigns a node-ID. -/
  | lssFastscanStep (port : Bool) (found : Option (BitVec 128))
  /-- R387: Every 1 s the engine sends identify non-configured remote slave. -/
  | lssIdentifyTimer (reply : Bool)
  /-- R388: A peer answers a configuration USDO and the next configuration step follows. -/
  | usdoClientResponse (i : Fin 128) (data : List Byte) (abort : BitVec 32)
  /-- R388: A configuration USDO times out and is retried once or the peer goes to Failed. -/
  | usdoClientTimeout (i : Fin 128)
  /-- R389: A peer boot-up message starts its configuration or is taken as a loss and return. -/
  | bootupReceived (i : Fin 128)
  /-- R389: A peer heartbeat restarts its consumer timer and may make the peer ready. -/
  | heartbeatReceived (i : Fin 128) (nmt : Byte)
  /-- R390: A consumer heartbeat timer expires and the peer goes to Lost. -/
  | heartbeatLoss (i : Fin 128)
  /-- R383: The engine sends its own heartbeat at 1017h. -/
  | heartbeatProduce
  /-- R393: An EMCY from a peer raises a Notice and is kept. -/
  | emcyReceived (i : Fin 128) (code : BitVec 16) (data : BitVec 64)
  /-- R382: An NMT command from the network is ignored and counted. -/
  | nmtCommandReceived (cmd : Byte) (node : Byte)
  /-- R412: A received RPDO writes its peer values and clears the stale flag. -/
  | rpdoReceived (n : Fin 16) (data : List Byte)
  /-- R412: A SYNC is produced or received and synchronous TPDOs are sent. -/
  | syncPeriod (counter : Byte)
  /-- R412: The 1 ms check or event timer sends event-driven TPDOs subject to inhibit time. -/
  | tpdoEventCheck (timers : BitVec 16)
  /-- R381: A port goes bus-off, is recovered and counted, and the active port may change. -/
  | canBusOff (port : Bool)
  /-- R381: In redundant mode the active port receives nothing for 5000h:05h ms while the other does and the active
      port changes. -/
  | activePortSilence
  /-- R389: Peer command 1 starts configuring the peer again. -/
  | peerReconfigure (i : Fin 128)
  /-- R389: Peer command 2 copies the identity read into the profile and reconfigures. -/
  | peerAcceptIdentity (i : Fin 128)
  /-- R389: Peer command 3 returns a mismatched peer to Absent. -/
  | peerForget (i : Fin 128)
  /-- R406: A USDO request to the engine's node-ID is served as a dictionary request. -/
  | usdoRequest (op : Byte) (idx : BitVec 16) (sub : Byte) (data : List Byte)
  /-- R403: GO submits the mailbox request to its owning partition, or is ignored while BUSY. -/
  | mailboxGo
  /-- R404: CANCEL abandons an open segmented transfer. -/
  | mailboxCancel
  /-- R403: The partition answers; RESULT and DATA are written, DONE set and vector 1 sent. -/
  | mailboxResponse
  /-- R404: 10 s without a segment abandons an open transfer or snapshot. -/
  | segmentTimeout
  /-- R407: A write of "save" to 1010h stores the selected group to the unused flash copy. -/
  | dictionaryStore (group : Byte) (v : BitVec 32) (readbackOk : Bool)
  /-- R407: A write of "load" to 1011h writes a copy restoring the group's defaults at the next Dawn. -/
  | dictionaryRestore (group : Byte) (v : BitVec 32) (readbackOk : Bool)
  /-- R411: A write of 0 to 1003h:00h clears the error field list. -/
  | errorListClear (v : Byte)
  /-- R233: A sampled digital input change reverts before F samples; it is counted as a glitch and may make the
      input unstable with a cause 8 or 9 fault. -/
  | inputGlitch (i : DigIn)
  /-- R59: A host read or write through BAR2 reaches engine DRAM, or completes with completer abort or unsupported
      request and increments BAR2_ERR. -/
  | bar2Access (write : Bool) (addr : BitVec 36) (len : Nat) (data : List Byte)
  /-- R353: A PCI Express link event, an L1 exit or a D-state change, acts on the link state and wakes the engine
      from an idle state. -/
  | pcieLinkEvent (ev : LinkEvent)
  /-- R371: An access on the JTAG debug port reaches the fuse sequencer or core debug modules as the life-cycle
      state permits, including the BLANK to DEVELOP transition. -/
  | debugPortAccess (a : DebugAccess)
  deriving DecidableEq, Repr

end Sys2Proof
end

