-- ==== Sys2Proof/WellFormed.lean ====
section
/-! DEFINITION. Which commands are well formed: operands whose type admits more than the hardware can be given. -/

namespace Sys2Proof

/-- A reply from host memory to a descriptor read of `n` bytes (R62, R67): absent when the read failed. -/
def replyOk (n : Nat) : Option (List Byte) → Bool
  | none => true
  | some bs => bs.length == n

/-- Well-formed commands. Frames have the lengths of R192, R196 and R229; a descriptor is 32 bytes and a re-read 12 (R62,
R67); a BAR2 access moves 1 to 4,096 bytes and a write carries as many as it names; an image is at most 4 MiB (R30); register
offsets are word aligned (R61); an RPDO carries at most 64 bytes; a block column lies
below 65,536; a USDO request reads (1) or writes (2). Every other operand is bounded by its type. -/
def Instr.wf : Instr → Bool
  | .registerWrite off _ => off.toNat % 4 == 0
  | .rw1cStatusClear off _ => off.toNat % 4 == 0
  | .partitionImageWrite _ img => img.length ≤ 4194304
  | .descriptorFetch _ reply => replyOk 32 reply
  | .doorbellReread _ reply => replyOk 12 reply
  | .dmaBurstComplete _ data late _ => decide (data.length ≤ 4096) && decide (late ≤ data.length)
  | .statusReceived _ frame => frame.length == 12
  | .respReceived _ frame => decide (6 ≤ frame.length) && decide (frame.length ≤ 38)
  | .axisReply _ frame => frame.length == 14
  | .bar2Access write _ len data => decide (1 ≤ len) && decide (len ≤ 4096) && (!write || data.length == len)
  | .rpdoReceived _ data => decide (data.length ≤ 64)
  | .bandwidthWindow rd wr class0 => rd.length == 4 && wr.length == 4 && class0.length == 4
  | .fetchTagReread _ bx _ => decide (bx < 65536)
  | .fetchBlockAccept _ bx _ => decide (bx < 65536)
  | .usdoRequest op _ _ _ => op.toNat == 1 || op.toNat == 2
  | _ => true

end Sys2Proof
end

