-- ==== Sys2Proof/Config.lean ====
section
/-! DEFINITION. What the spec leaves open: free values without a body. Nothing can be proved of a value of one of these,
so a claim about the model holds whatever the hardware does there. Each is named in a log entry. -/

namespace Sys2Proof.Config

/-- A fresh unspecified 32-bit value; the argument is a counter of State (`freeIdx`). Log entry 2, DESIGN CHOICE. -/
opaque freeValue : Nat → BitVec 32

/-- SHA-384 of a byte string (FIPS 180-4, which the spec names but does not restate; R364, R373, R375). Log entry 9, DESIGN CHOICE. -/
opaque sha384 : List Byte → List Byte

/-- Whether an ECDSA P-384 signature (96 bytes) over a digest verifies under an uncompressed public key (97 bytes)
under FIPS 186-5 (R373, R375). Log entry 9, DESIGN CHOICE. -/
opaque ecdsaP384 : (key digest sig : List Byte) → Bool

/-- Planned position, in counts, `k` servo periods into a ramp that starts at `x0` with speed `v0` and ends with speed `v1` at
position `x1`, with rate of speed change `a` and jerk `j` (R236, R238): the spec fixes the ends of a ramp and not its set-points
between them. Log entry 10, DESIGN CHOICE. -/
opaque segmentPosition : (x0 x1 v0 v1 : Int) → (a j k : Nat) → Int

/-- Planned speed there. Log entry 10, DESIGN CHOICE. -/
opaque segmentSpeed : (x0 x1 v0 v1 : Int) → (a j k : Nat) → Int

/-- Whether a planned position or ramp distance that is no whole number of counts is rounded up (R236, R244). Log entry 10, DESIGN CHOICE. -/
opaque roundsUp : (num : Int) → (den : Nat) → Bool

/-- VEL of a set-point frame for a speed that is no multiple of 16 counts/s, or lies outside INTEGER16 (R229). Log entry 10, DESIGN CHOICE. -/
opaque velocityUnits : Int → BitVec 16

/-- Chatter limit of STOP_L and PFAIL_L, for which R247 gives no entry (R233). Log entry 11, DESIGN CHOICE. -/
opaque engineInputChatterLimit : Nat

/-- Counts per inch of an axis whose position source is the drive (R245 takes them from the position source; the spec
gives an entry for encoder inputs only). Log entry 11, DESIGN CHOICE. -/
opaque driveCountsPerInch : Nat

/-- Oscillator correction, in 0.1 ppm, that sensor 0's reading gives (R357). Log entry 12, DESIGN CHOICE. -/
opaque oscillatorCorrection : Int → BitVec 16

/-- ADC reference correction byte that the reading of sensor 9 or 10 gives (R357). Log entry 12, DESIGN CHOICE. -/
opaque adcCorrection : Int → BitVec 8

/-- How the quotient of a negative number by a positive one is rounded where the spec's `/` covers only non-negative values
(R260, a falling linearisation table): true down, false towards zero. Log entry 28, DESIGN CHOICE. -/
opaque negativeFloors : Bool

/-- Slack, in ns, of the line with sequence `seq` of head `h` that meets the deadline of `stage` (1 fetch, 2 compose, 3 serialize,
4 echo) at REF cycle `at_` (R323): a duration within a step, which the commands do not carry. Log entry 46, DESIGN CHOICE. -/
opaque slack : (stage h seq at_ : Nat) → BitVec 32

/-- What word `word` of on-chip memory group `g` holds: the spec names the memories of a group (R292) and not the places of
their words. Log entry 25, DESIGN CHOICE. -/
opaque holding : (g word : Nat) → Holding

end Sys2Proof.Config
end

