-- ==== Sys2Proof/Machine/Cells.lean ====
section
/-! DEFINITION. Sparse stores: a list of (key, value) pairs in ONE canonical form, keys strictly rising and no entry equal
to what an unlisted key reads as. Every indexed store of State (dictionary, DRAM bytes, heads, Catalogue, ...) is one. -/

namespace Sys2Proof.Machine

/-- The value listed for key `k`, if any. -/
def cellFind {α : Type} (k : Nat) : List (Nat × α) → Option α
  | [] => none
  | (i, v) :: r => if i = k then some v else cellFind k r

/-- The value of key `k`: the listed one, else the default of `k`. -/
def cellGet {α : Type} (d : Nat → α) (m : List (Nat × α)) (k : Nat) : α := (cellFind k m).getD (d k)

/-- The store without key `k`. -/
def cellErase {α : Type} (k : Nat) : List (Nat × α) → List (Nat × α)
  | [] => []
  | (i, v) :: r => if i = k then cellErase k r else (i, v) :: cellErase k r

/-- The store with (k, v) put before the first larger key. -/
def cellInsert {α : Type} (k : Nat) (v : α) : List (Nat × α) → List (Nat × α)
  | [] => [(k, v)]
  | (i, w) :: r => if k < i then (k, v) :: (i, w) :: r else (i, w) :: cellInsert k v r

/-- Store `v` under `k`; storing what an unlisted key reads as removes the entry. -/
def cellSet {α : Type} [DecidableEq α] (d : Nat → α) (m : List (Nat × α)) (k : Nat) (v : α) : List (Nat × α) :=
  if v = d k then cellErase k m else cellInsert k v (cellErase k m)

/-- Keys strictly rising above `lo`, no entry equal to its default. -/
def cellsFrom {α : Type} [DecidableEq α] (d : Nat → α) : Nat → List (Nat × α) → Bool
  | _, [] => true
  | lo, (i, v) :: r => decide (lo ≤ i) && !decide (v = d i) && cellsFrom d (i + 1) r

/-- The canonical form of a store. -/
def cellsWf {α : Type} [DecidableEq α] (d : Nat → α) (m : List (Nat × α)) : Bool := cellsFrom d 0 m

/-- Store several pairs in order. -/
def cellSetAll {α : Type} [DecidableEq α] (d : Nat → α) : List (Nat × α) → List (Nat × α) → List (Nat × α)
  | [], m => m
  | (k, v) :: r, m => cellSetAll d r (cellSet d m k v)

/-- The store without the keys in [lo, lo + n). -/
def cellEraseRange {α : Type} (lo n : Nat) : List (Nat × α) → List (Nat × α)
  | [] => []
  | (i, v) :: r => if lo ≤ i ∧ i < lo + n then cellEraseRange lo n r else (i, v) :: cellEraseRange lo n r

/-- Sorted disjoint non-adjacent half-open intervals: `[lo, hi)` added to the set. -/
def spanAdd (lo hi : Nat) : List (Nat × Nat) → List (Nat × Nat)
  | [] => if lo < hi then [(lo, hi)] else []
  | (a, b) :: r =>
    if hi ≤ lo then (a, b) :: r
    else if hi < a then (lo, hi) :: (a, b) :: r
    else if b < lo then (a, b) :: spanAdd lo hi r
    else spanAdd (min lo a) (max hi b) r

/-- Whether `k` lies in one of the intervals. -/
def spanMem (k : Nat) : List (Nat × Nat) → Bool
  | [] => false
  | (a, b) :: r => (decide (a ≤ k) && decide (k < b)) || spanMem k r

/-- The intervals in canonical form: non-empty, rising and not touching. -/
def spansFrom : Nat → List (Nat × Nat) → Bool
  | _, [] => true
  | lo, (a, b) :: r => decide (lo ≤ a) && decide (a < b) && spansFrom (b + 1) r

end Sys2Proof.Machine
end

