-- ==== Sys2Proof/Machine/Bits.lean ====
section
/-! DEFINITION. Bit fields, byte order, saturation, sign and the two check codes of the spec (R10, R88, R100). -/

namespace Sys2Proof.Machine

/-- Little-endian value of bytes (R10). -/
def le : List Byte → Nat
  | [] => 0
  | b :: r => b.toNat + 256 * le r

/-- The low `n` bytes of `v`, least significant first (R10). -/
def toLe : Nat → Nat → List Byte
  | 0, _ => []
  | n + 1, v => BitVec.ofNat 8 v :: toLe n (v / 256)

/-- Bits [hi:lo] of `v` (R9). -/
def bits (v hi lo : Nat) : Nat := (v >>> lo) % 2 ^ (hi + 1 - lo)

/-- Bit `i` of `v`. -/
def bit (v i : Nat) : Bool := (v >>> i) % 2 == 1

/-- `v` with bit `i` set or cleared. -/
def setBit (v i : Nat) (on : Bool) : Nat :=
  if bit v i == on then v else if on then v + 2 ^ i else v - 2 ^ i

/-- Number of set bits among the low `n` bits of `v`. -/
def popcount : Nat → Nat → Nat
  | 0, _ => 0
  | n + 1, v => v % 2 + popcount n (v / 2)

/-- A BOOLEAN as its number (R397). -/
def ofBool (b : Bool) : Nat := if b then 1 else 0

/-- A saturating counter of `w` bits advanced by `n`. -/
def satAdd (w v n : Nat) : Nat := min (2 ^ w - 1) (v + n)

/-- A wrapping counter of `w` bits advanced by `n`. -/
def wrapAdd (w v n : Nat) : Nat := (v + n) % 2 ^ w

/-- Two's complement value of the low `w` bits (R397). -/
def signed (w v : Nat) : Int :=
  if v % 2 ^ w < 2 ^ (w - 1) then (v % 2 ^ w : Nat) else (v % 2 ^ w : Nat) - (2 ^ w : Nat)

/-- The `w`-bit two's complement word of an integer (R397). -/
def unsigned (w : Nat) (i : Int) : Nat := (i % (2 ^ w : Nat)).toNat

/-- The clamp of R251: −32,768 … +32,767. -/
def sat16 (i : Int) : Int := if i < -32768 then -32768 else if i > 32767 then 32767 else i

/-- `a / b` rounded up. -/
def ceilDiv (a b : Nat) : Nat := (a + b - 1) / b

/-- One bit step of CRC-32C (R88). -/
def crc32cBit (c : Nat) : Nat := if c % 2 == 1 then (c >>> 1) ^^^ 0x82f63b78 else c >>> 1

/-- `f` applied `n` times. -/
def iter {α : Type} (f : α → α) : Nat → α → α
  | 0, x => x
  | n + 1, x => iter f n (f x)

/-- CRC-32C register after a list of bytes (R88). -/
def crc32cFold : List Byte → Nat → Nat
  | [], c => c
  | b :: r, c => crc32cFold r (iter crc32cBit 8 (c ^^^ b.toNat))

/-- CRC-32C (R88): reflected polynomial 0x82F6_3B78, start and final inversion 0xFFFF_FFFF. -/
def crc32c (bs : List Byte) : Nat := (crc32cFold bs 0xffffffff) ^^^ 0xffffffff

/-- One bit step of CRC-16 (R100). -/
def crc16Bit (c : Nat) : Nat :=
  if (c >>> 15) % 2 == 1 then ((c <<< 1) ^^^ 0x1021) % 65536 else (c <<< 1) % 65536

/-- CRC-16 register after a list of bytes (R100): most significant bit of each byte first. -/
def crc16Fold : List Byte → Nat → Nat
  | [], c => c
  | b :: r, c => crc16Fold r (iter crc16Bit 8 (c ^^^ (b.toNat <<< 8)))

/-- CRC-16 (R100): polynomial 0x1021, start 0xFFFF, not reflected, not inverted. -/
def crc16 (bs : List Byte) : Nat := crc16Fold bs 0xffff

/-- Bits of a byte string, least significant bit of each byte first (R94, R188). -/
def bitsLsb : List Byte → List Bool
  | [] => []
  | b :: r => (List.range 8).map (fun i => bit b.toNat i) ++ bitsLsb r

/-- Bits of a byte string, most significant bit of each byte first (R82). -/
def bitsMsb : List Byte → List Bool
  | [] => []
  | b :: r => (List.range 8).map (fun i => bit b.toNat (7 - i)) ++ bitsMsb r

/-- The low `w` bits of `v`, least significant first. -/
def natBits : Nat → Nat → List Bool
  | 0, _ => []
  | w + 1, v => (v % 2 == 1) :: natBits w (v / 2)

/-- Value of a bit list, least significant first. -/
def ofBits : List Bool → Nat
  | [] => 0
  | b :: r => ofBool b + 2 * ofBits r

/-- Value of a bit list, most significant first (R82). -/
def ofBitsMsb (bs : List Bool) : Nat := ofBits bs.reverse

/-- A bit list packed into bytes, least significant bit first, the last byte filled with zeros. -/
def packLsb : Nat → List Bool → List Byte
  | 0, _ => []
  | n + 1, bs => BitVec.ofNat 8 (ofBits (bs.take 8)) :: packLsb n (bs.drop 8)

/-- A bit list packed into bytes, most significant bit first, the last byte filled with zeros (R85). -/
def packMsb : Nat → List Bool → List Byte
  | 0, _ => []
  | n + 1, bs =>
    BitVec.ofNat 8 (ofBits ((bs.take 8 ++ List.replicate (8 - (bs.take 8).length) false).reverse)) :: packMsb n (bs.drop 8)

/-- Position of the highest set bit of `v` (0 for 0 and 1), searched below bit `n`. -/
def topBit : Nat → Nat → Nat
  | 0, _ => 0
  | n + 1, v => if bit v (n + 1) then n + 1 else topBit n v

/-- The first element of a list of numbers that has a property, or `none`. -/
def firstIdx (p : Nat → Bool) : List Nat → Option Nat
  | [] => none
  | x :: r => if p x then some x else firstIdx p r

/-- The value a register of `w` bits holds after a write through a mask. -/
def maskWrite (old v mask w : Nat) : Nat := (old &&& ((2 ^ w - 1) ^^^ mask)) ||| (v &&& mask)

end Sys2Proof.Machine
end

