-- ==== Sys2Proof/Machine/Dictionary.lean ====
section
/-! DEFINITION. The object dictionary's tables: for each entry its type, access code, default, range, the class in which a
write takes effect, whether a store keeps it and whether it can be mapped to a PDO (R13, R395-R400, R410). The rows are the
rows of the chapters' dictionary tables, chapter by chapter; comments give an entry's name. -/

namespace Sys2Proof.Machine

/-- The types of R397. `dom n`: a DOMAIN of at most `n` bytes (0: written by the engine only). -/
inductive DictType where
  | bool | u8 | u16 | u32 | u64 | i16 | i32 | str
  | dom (max : Nat)
  deriving DecidableEq, Repr

/-- The access codes of R398. -/
inductive Access where
  | ro | wo | rw | const
  deriving DecidableEq, Repr

/-- The Range/unit column (R399 step 7). -/
inductive Range where
  | any
  | between (lo hi : Int)
  | oneOf (vs : List Nat)
  | pow2 (lo hi : Nat)
  | even (hi : Nat)
  | zeroOr (lo hi : Nat)
  | mult (m lo hi : Nat)
  | aligned
  deriving DecidableEq, Repr

/-- The classes of R400; `dawnIdle` is a Dawn-class entry that can be written in Idle only (R380). -/
inductive EffectClass where
  | now | staged | launch | idle | dawn | dawnIdle
  deriving DecidableEq, Repr

/-- One row of a dictionary table: `n` subindexes from `sub`. -/
structure DictRow where
  sub : Nat
  n : Nat
  ty : DictType
  acc : Access
  dflt : Nat
  range : Range
  cls : EffectClass
  stored : Bool
  pdo : Bool
  deriving DecidableEq, Repr

/-- The rows shared by `count` indexes from `base`, `stride` apart. -/
structure DictGroup where
  base : Nat
  count : Nat
  stride : Nat
  rows : List DictRow
  deriving DecidableEq, Repr

/-- 4400h and 3 more, 1 apart (01_architecture.md R30). -/
def dict4400 : List DictRow := [
  ⟨0x01, 1, .u8, .ro, 0, .any, .now, false, false⟩, -- Running slot
  ⟨0x02, 1, .u32, .ro, 0, .any, .now, false, false⟩, -- Running version
  ⟨0x03, 1, .u32, .ro, 0, .any, .now, false, false⟩, -- Staged version
  ⟨0x04, 1, .u8, .ro, 0, .any, .now, false, true⟩, -- State
  ⟨0x05, 1, .u8, .rw, 0, .between 0 1, .now, true, false⟩, -- Switch request
  ⟨0x06, 1, .u16, .ro, 0, .any, .now, false, false⟩, -- Fallback count
  ⟨0x07, 1, .dom 4194304, .wo, 0, .any, .now, false, false⟩] -- Image

/-- 2200h (02_jobs_panels_transits.md R56). -/
def dict2200 : List DictRow := [
  ⟨0x01, 1, .u8, .wo, 0, .between 1 5, .now, false, false⟩, -- Job command
  ⟨0x02, 1, .u8, .ro, 0, .any, .now, false, true⟩, -- Job state
  ⟨0x03, 1, .u16, .ro, 0, .any, .now, false, true⟩, -- Hold causes
  ⟨0x04, 1, .u32, .rw, 0, .any, .now, false, false⟩, -- Job identifier
  ⟨0x05, 1, .u16, .rw, 1200, .oneOf [600, 1200, 2400], .idle, false, false⟩, -- Scan resolution
  ⟨0x06, 1, .u8, .rw, 4, .oneOf [1, 2, 3, 4, 6, 8], .idle, false, false⟩, -- Pass count
  ⟨0x07, 1, .bool, .rw, 1, .between 0 1, .idle, false, false⟩, -- Bidirectional
  ⟨0x08, 1, .u32, .rw, 3200000, .between (100000) 5000000, .idle, false, false⟩, -- Print width
  ⟨0x09, 1, .u32, .rw, 0, .any, .now, false, false⟩, -- Job length
  ⟨0x0A, 1, .u32, .ro, 0, .any, .now, false, true⟩, -- Transits printed
  ⟨0x0B, 1, .u32, .ro, 0, .any, .now, false, true⟩] -- Next first row

/-- 2201h (02_jobs_panels_transits.md R56). -/
def dict2201 : List DictRow := [
  ⟨0x01, 1, .u16, .rw, 16, .between (1) 4096, .staged, true, false⟩, -- Panel length
  ⟨0x02, 1, .u8, .rw, 0, .between (0) 6, .staged, true, false⟩, -- Fastest speed step
  ⟨0x03, 1, .u16, .rw, 120, .between (60) 2000, .staged, true, false⟩, -- Turnaround
  ⟨0x04, 1, .u8, .rw, 5, .between (0) 50, .staged, true, false⟩, -- Forecast reserve
  ⟨0x05, 1, .u16, .rw, 240, .between (16) 4096, .staged, true, false⟩, -- Run-in
  ⟨0x06, 1, .u8, .rw, 0, .between 0 1, .now, false, false⟩, -- Apply staged
  ⟨0x07, 1, .u32, .rw, 0, .any, .now, true, false⟩, -- Declared host supply
  ⟨0x08, 1, .u16, .rw, 2000, .between (100) 10000, .now, true, false⟩] -- Supply window

/-- 2202h (02_jobs_panels_transits.md R56). -/
def dict2202 : List DictRow := [
  ⟨0x01, 1, .u32, .ro, 0, .any, .now, false, true⟩, -- Panel number
  ⟨0x02, 1, .u8, .ro, 0, .any, .now, false, true⟩, -- Speed step
  ⟨0x03, 1, .u32, .ro, 0, .any, .now, false, false⟩, -- Meridian frequency
  ⟨0x04, 1, .u32, .ro, 0, .any, .now, false, false⟩, -- Cadence
  ⟨0x05, 1, .u16, .ro, 0, .any, .now, false, false⟩, -- Committed length
  ⟨0x06, 1, .u16, .ro, 0, .any, .now, false, true⟩, -- Transit index
  ⟨0x07, 1, .i32, .ro, 0, .any, .now, false, true⟩, -- Last deviation
  ⟨0x08, 1, .u32, .ro, 0, .any, .now, false, false⟩] -- Largest deviation

/-- 2203h (02_jobs_panels_transits.md R56). -/
def dict2203 : List DictRow := [
  ⟨0x01, 1, .u32, .ro, 0, .any, .now, false, true⟩, -- Measured supply
  ⟨0x02, 1, .u32, .ro, 0, .any, .now, false, false⟩, -- Forecast supply R_f
  ⟨0x03, 1, .u32, .ro, 0, .any, .now, false, true⟩, -- Screened lead Q
  ⟨0x04, 1, .u32, .ro, 0, .any, .now, false, false⟩, -- Pixels per transit P_t
  ⟨0x05, 1, .u8, .ro, 0, .any, .now, false, true⟩, -- Forecast result
  ⟨0x06, 1, .u8, .ro, 0, .any, .now, false, false⟩] -- Running forecast step

/-- 2210h and 7 more, 1 apart (02_jobs_panels_transits.md R56). -/
def dict2210 : List DictRow := [
  ⟨0x01, 1, .u32, .ro, 0, .any, .now, false, false⟩, -- Panel number
  ⟨0x02, 1, .u32, .ro, 0, .any, .now, false, false⟩, -- Job identifier
  ⟨0x03, 1, .u8, .ro, 0, .any, .now, false, false⟩, -- End cause
  ⟨0x04, 1, .u16, .ro, 0, .any, .now, false, false⟩, -- Transits printed
  ⟨0x05, 1, .u32, .ro, 0, .any, .now, false, false⟩, -- First media row
  ⟨0x06, 1, .u32, .ro, 0, .any, .now, false, false⟩, -- Lines blanked
  ⟨0x07, 1, .u64, .ro, 0, .any, .now, false, false⟩, -- Dots blanked
  ⟨0x08, 1, .u32, .ro, 0, .any, .now, false, false⟩, -- Unrecovered rows
  ⟨0x09, 1, .u32, .ro, 0, .any, .now, false, false⟩, -- Degraded rows
  ⟨0x0A, 1, .u32, .ro, 0, .any, .now, false, false⟩, -- Cadence-break rows
  ⟨0x0B, 1, .u32, .ro, 0, .any, .now, false, false⟩, -- Deadline faults
  ⟨0x0C, 1, .u32, .ro, 0, .any, .now, false, false⟩, -- Largest deviation
  ⟨0x0D, 1, .dom 0, .ro, 0, .any, .now, false, false⟩, -- Row records
  ⟨0x0E, 1, .bool, .ro, 0, .between 0 1, .now, false, false⟩] -- Record overflow

/-- 2300h and 255 more, 1 apart (03_host_intake.md R71). -/
def dict2300 : List DictRow := [
  ⟨0x01, 1, .u8, .wo, 0, .between 1 4, .now, false, false⟩, -- Command
  ⟨0x02, 1, .u8, .ro, 0, .any, .now, false, true⟩, -- State
  ⟨0x03, 1, .u8, .rw, 0, .between (0) 7, .now, false, false⟩, -- Bank
  ⟨0x04, 1, .u8, .rw, 0, .between (0) 31, .now, false, false⟩, -- Intake channel
  ⟨0x05, 1, .u32, .rw, 0, .any, .now, false, false⟩, -- Column origin
  ⟨0x06, 1, .u16, .rw, 4096, .between (1) 16384, .now, false, false⟩, -- Column width
  ⟨0x07, 1, .u32, .rw, 0, .any, .now, false, false⟩, -- First row
  ⟨0x08, 1, .u8, .rw, 8, .oneOf [8, 10], .now, false, false⟩, -- Contone depth
  ⟨0x09, 1, .u16, .rw, 4096, .between (1) 16384, .now, false, false⟩, -- Row stride
  ⟨0x0A, 1, .u64, .rw, 0, .aligned, .now, false, false⟩, -- Ring base
  ⟨0x0B, 1, .u32, .rw, 1048576, .pow2 65536 67108864, .now, false, false⟩, -- Ring size
  ⟨0x0C, 1, .u32, .ro, 0, .any, .now, false, false⟩, -- Blocks decoded
  ⟨0x0D, 1, .u32, .ro, 0, .any, .now, false, true⟩, -- Rows complete
  ⟨0x0E, 1, .u64, .ro, 0, .any, .now, false, false⟩, -- Resume offset
  ⟨0x0F, 1, .u8, .ro, 0, .any, .now, false, true⟩, -- Fault cause
  ⟨0x10, 1, .u64, .ro, 0, .any, .now, false, false⟩, -- Bytes skipped
  ⟨0x11, 1, .u16, .ro, 0, .any, .now, false, false⟩] -- Check failures

/-- 2470h (04_wygrim_codecs.md R109). -/
def dict2470 : List DictRow := [
  ⟨0x01, 16, .u8, .rw, 3, .between 1 3, .staged, true, false⟩, -- Verify mode, lane 0…15
  ⟨0x11, 1, .u32, .ro, 0, .any, .now, false, false⟩, -- Blocks encoded
  ⟨0x12, 1, .u32, .ro, 0, .any, .now, false, false⟩, -- Raw stores
  ⟨0x13, 1, .u16, .ro, 0, .any, .now, false, false⟩, -- Decode mismatches
  ⟨0x14, 1, .u16, .ro, 0, .any, .now, false, true⟩, -- Bad-block tags
  ⟨0x15, 1, .u16, .ro, 0, .any, .now, false, true⟩, -- Compose check failures
  ⟨0x16, 1, .u64, .ro, 0, .any, .now, false, false⟩] -- Coded bytes

/-- 2471h (04_wygrim_codecs.md R109). -/
def dict2471 : List DictRow := [
  ⟨0x01, 1, .u8, .wo, 0, .between 1 4, .now, false, false⟩, -- Command
  ⟨0x02, 1, .u8, .ro, 0, .any, .now, false, true⟩, -- State
  ⟨0x03, 1, .u8, .rw, 255, .any, .now, true, false⟩, -- Bank mask
  ⟨0x04, 1, .u64, .rw, 0, .aligned, .now, true, false⟩, -- Ring base
  ⟨0x05, 1, .u32, .rw, 1048576, .pow2 262144 67108864, .now, true, false⟩, -- Ring size
  ⟨0x06, 1, .u32, .ro, 0, .any, .now, false, true⟩, -- Write offset
  ⟨0x07, 1, .u32, .rw, 0, .any, .now, false, false⟩, -- Read offset
  ⟨0x08, 1, .u32, .rw, 65536, .between (4096) 65536, .now, true, false⟩, -- Block size
  ⟨0x09, 1, .u32, .ro, 0, .any, .now, false, false⟩, -- Blocks written
  ⟨0x0A, 1, .u32, .ro, 0, .any, .now, false, false⟩, -- Proof panel
  ⟨0x0B, 1, .u32, .rw, 16384, .mult 4 4 65536, .now, true, false⟩] -- Column width

/-- 2472h (04_wygrim_codecs.md R109). -/
def dict2472 : List DictRow := [
  ⟨0x01, 1, .u8, .ro, 0, .any, .now, false, false⟩, -- Last faulting context
  ⟨0x02, 1, .u8, .ro, 0, .any, .now, false, false⟩, -- Last format sub-code
  ⟨0x03, 1, .u32, .ro, 0, .any, .now, false, false⟩, -- Last fault bit position
  ⟨0x04, 1, .u16, .ro, 0, .any, .now, false, false⟩, -- Format faults
  ⟨0x05, 1, .u16, .ro, 0, .any, .now, false, false⟩, -- CRC-32C failures
  ⟨0x06, 1, .u32, .ro, 0, .any, .now, false, false⟩, -- Output-full stall cycles
  ⟨0x07, 1, .u32, .ro, 0, .any, .now, false, false⟩] -- Acknowledgements written

/-- 2400h (05_screening_swath_store.md R131). -/
def dict2400 : List DictRow := [
  ⟨0x01, 1, .u64, .ro, 0, .any, .now, false, false⟩, -- Pixels screened
  ⟨0x02, 1, .u32, .ro, 0, .any, .now, false, false⟩, -- Window wait cycles
  ⟨0x03, 1, .u32, .ro, 0, .any, .now, false, false⟩, -- High bits ignored
  ⟨0x04, 1, .u16, .ro, 0, .any, .now, false, false⟩, -- Partial rows discarded
  ⟨0x05, 1, .u32, .ro, 0, .any, .now, false, false⟩, -- Combiner fallbacks
  ⟨0x06, 1, .u16, .ro, 0, .any, .now, false, true⟩, -- Store bad blocks
  ⟨0x07, 1, .u16, .ro, 0, .any, .now, false, false⟩] -- Frontier intervals

/-- 2410h and 7 more, 1 apart (05_screening_swath_store.md R131). -/
def dict2410 : List DictRow := [
  ⟨0x01, 1, .dom 2048, .rw, 0, .any, .staged, true, false⟩, -- Tone curve
  ⟨0x02, 1, .bool, .ro, 0, .between 0 1, .now, false, true⟩, -- Changeover pending
  ⟨0x03, 1, .u32, .ro, 0, .any, .now, false, false⟩] -- Changeover row

/-- 2420h and 7 more, 1 apart (05_screening_swath_store.md R131). -/
def dict2420 : List DictRow := [
  ⟨0x01, 1, .u64, .rw, 0, .aligned, .now, true, false⟩, -- Array source
  ⟨0x02, 1, .u32, .rw, 0, .any, .now, true, false⟩, -- Array check
  ⟨0x03, 1, .u8, .wo, 0, .between 1 1, .now, false, false⟩, -- Array command
  ⟨0x04, 1, .u8, .ro, 0, .any, .now, false, false⟩, -- Load result
  ⟨0x05, 1, .u8, .rw, 0, .between (0) 255, .staged, true, false⟩, -- Cell offset X
  ⟨0x06, 1, .u8, .rw, 0, .between (0) 255, .staged, true, false⟩, -- Cell offset Y
  ⟨0x07, 1, .u32, .ro, 3990826448, .any, .now, false, false⟩] -- Active array check

/-- 2430h (05_screening_swath_store.md R131). -/
def dict2430 : List DictRow := [
  ⟨0x01, 1, .u64, .rw, 0, .aligned, .idle, true, false⟩, -- Store base
  ⟨0x02, 1, .u64, .rw, 0, .aligned, .idle, true, false⟩, -- Tag base
  ⟨0x03, 1, .u64, .rw, 0, .aligned, .idle, true, false⟩, -- Count base
  ⟨0x04, 1, .u8, .rw, 255, .any, .idle, true, false⟩, -- Store banks
  ⟨0x05, 1, .u16, .ro, 0, .any, .now, false, false⟩, -- Block columns NBX
  ⟨0x06, 1, .u16, .ro, 0, .any, .now, false, false⟩, -- Block rows NBR
  ⟨0x07, 1, .u64, .ro, 0, .any, .now, false, false⟩, -- Store size
  ⟨0x08, 1, .u32, .ro, 0, .any, .now, false, true⟩, -- Released block rows
  ⟨0x09, 1, .bool, .ro, 0, .between 0 1, .now, false, false⟩] -- Clearing

/-- 2450h (05_screening_swath_store.md R131). -/
def dict2450 : List DictRow := [
  ⟨0x01, 8, .u32, .rw, 0, .any, .idle, false, false⟩] -- Level contexts

/-- 2500h (06_passes_masks_eclipse.md R157). -/
def dict2500 : List DictRow := [
  ⟨0x01, 1, .u16, .rw, 0, .even 256, .idle, true, false⟩, -- Stitch overlap O
  ⟨0x02, 1, .u16, .ro, 32768, .any, .now, false, false⟩, -- Swath height H
  ⟨0x03, 8, .u16, .ro, 0, .any, .now, false, false⟩, -- Advance a[0…7]
  ⟨0x0B, 1, .bool, .rw, 0, .between 0 1, .staged, true, false⟩, -- Weak as dead
  ⟨0x0C, 1, .bool, .rw, 1, .between 0 1, .staged, true, false⟩, -- Neighbour boost
  ⟨0x0D, 1, .u16, .ro, 0, .any, .now, false, true⟩, -- Deficit records in use
  ⟨0x0E, 1, .u32, .ro, 0, .any, .now, false, false⟩, -- Deficit overflows
  ⟨0x0F, 1, .u64, .ro, 0, .any, .now, false, false⟩, -- Pixels handed
  ⟨0x10, 1, .u64, .ro, 0, .any, .now, false, false⟩, -- Pixels lost
  ⟨0x11, 1, .u64, .ro, 0, .any, .now, false, false⟩] -- Pixels boosted

/-- 2510h and 15 more, 1 apart (06_passes_masks_eclipse.md R157). -/
def dict2510 : List DictRow := [
  ⟨0x01, 1, .u64, .rw, 0, .aligned, .now, true, false⟩, -- Mask source
  ⟨0x02, 1, .u32, .rw, 0, .any, .now, true, false⟩, -- Mask check
  ⟨0x03, 1, .u8, .wo, 0, .between 1 1, .now, false, false⟩, -- Mask command
  ⟨0x04, 1, .u8, .ro, 0, .any, .now, false, false⟩, -- Load result
  ⟨0x05, 1, .u8, .ro, 0, .any, .now, false, false⟩, -- Largest cell
  ⟨0x06, 1, .u32, .ro, 1925235876, .any, .now, false, false⟩, -- Active mask check
  ⟨0x07, 1, .bool, .ro, 0, .between 0 1, .now, false, false⟩] -- In use

/-- 2520h (06_passes_masks_eclipse.md R157). -/
def dict2520 : List DictRow := [
  ⟨0x01, 128, .u8, .ro, 0, .any, .now, false, true⟩] -- Head service state, h = sub − 1

/-- 2521h (06_passes_masks_eclipse.md R157). -/
def dict2521 : List DictRow := [
  ⟨0x01, 128, .u8, .wo, 0, .between 1 2, .now, false, false⟩] -- Head eclipse command

/-- 2522h (06_passes_masks_eclipse.md R157). -/
def dict2522 : List DictRow := [
  ⟨0x01, 128, .u32, .ro, 0, .any, .now, false, false⟩] -- Drain ends after transit

/-- 2530h and 7 more, 1 apart (06_passes_masks_eclipse.md R157). -/
def dict2530 : List DictRow := [
  ⟨0x01, 1, .u8, .rw, 0, .between (0) 15, .staged, true, false⟩, -- Mask number
  ⟨0x02, 1, .u8, .rw, 0, .between (0) 255, .staged, true, false⟩, -- Mask offset X
  ⟨0x03, 1, .u8, .rw, 0, .between (0) 255, .staged, true, false⟩, -- Mask offset Y
  ⟨0x04, 1, .u8, .ro, 0, .any, .now, false, false⟩, -- Mask in force
  ⟨0x05, 1, .u32, .ro, 0, .any, .now, false, false⟩] -- Mask changeover row

/-- 2600h (06_passes_masks_eclipse.md R157). -/
def dict2600 : List DictRow := [
  ⟨0x01, 1, .u32, .rw, 0, .between (0) 262143, .now, false, false⟩, -- Element index
  ⟨0x02, 1, .u32, .rw, 0, .any, .now, false, false⟩, -- Entry, staging
  ⟨0x03, 1, .u32, .ro, 0, .any, .now, false, false⟩, -- Entry, working
  ⟨0x04, 1, .bool, .rw, 0, .between 0 1, .now, false, false⟩, -- Auto-increment
  ⟨0x05, 1, .u32, .rw, 4294967295, .any, .now, false, false⟩] -- Write mask

/-- 2601h (06_passes_masks_eclipse.md R157). -/
def dict2601 : List DictRow := [
  ⟨0x01, 1, .u64, .rw, 0, .aligned, .now, false, false⟩, -- Image address
  ⟨0x02, 1, .u32, .rw, 0, .any, .now, false, false⟩, -- Image check
  ⟨0x03, 1, .u8, .rw, 0, .between (0) 127, .now, false, false⟩, -- First head
  ⟨0x04, 1, .u8, .rw, 128, .between (1) 128, .now, false, false⟩, -- Head count
  ⟨0x05, 1, .u8, .wo, 0, .between 1 2, .now, false, false⟩, -- Image command
  ⟨0x06, 1, .u8, .ro, 0, .any, .now, false, false⟩] -- Image result

/-- 2602h (06_passes_masks_eclipse.md R157). -/
def dict2602 : List DictRow := [
  ⟨0x01, 8, .u16, .ro, 0, .any, .now, false, true⟩] -- Unavailable elements, bank b = sub − 1

/-- 2700h (07_compose_and_firing.md R181). -/
def dict2700 : List DictRow := [
  ⟨0x01, 1, .u64, .ro, 0, .any, .now, false, false⟩, -- Lines composed
  ⟨0x02, 1, .u32, .ro, 0, .any, .now, false, true⟩, -- Twin mismatches
  ⟨0x03, 1, .u32, .ro, 0, .any, .now, false, false⟩, -- Readback failures
  ⟨0x04, 1, .u32, .ro, 0, .any, .now, false, true⟩, -- Fetch deadline misses
  ⟨0x05, 1, .u32, .ro, 0, .any, .now, false, true⟩, -- Compose deadline misses
  ⟨0x06, 1, .u32, .ro, 0, .any, .now, false, true⟩, -- Serialize misses
  ⟨0x07, 1, .u32, .ro, 0, .any, .now, false, false⟩, -- Poison blanks
  ⟨0x08, 1, .u32, .ro, 0, .any, .now, false, true⟩, -- Echo failures
  ⟨0x09, 1, .u16, .ro, 0, .any, .now, false, true⟩, -- Strobe watchdog trips
  ⟨0x0A, 1, .u16, .ro, 64, .any, .now, false, false⟩, -- Parallax span S_P
  ⟨0x0B, 1, .u32, .ro, 0, .any, .now, false, false⟩, -- Lines per transit C
  ⟨0x0C, 1, .u32, .ro, 0, .any, .now, false, true⟩, -- Last tick interval
  ⟨0x0D, 1, .u32, .ro, 0, .any, .now, false, false⟩] -- Interpolator holds

/-- 2701h (07_compose_and_firing.md R181). -/
def dict2701 : List DictRow := [
  ⟨0x01, 8, .u16, .rw, 300, .between (100) 1000, .staged, true, false⟩] -- FIRE pulse width, bank b = sub − 1

/-- 2702h (07_compose_and_firing.md R181). -/
def dict2702 : List DictRow := [
  ⟨0x01, 8, .i16, .rw, 0, .between (-2048) 2047, .staged, true, false⟩] -- Bidirectional offset, bank b = sub − 1

/-- 2440h and 7 more, 1 apart (07_compose_and_firing.md R181). -/
def dict2440 : List DictRow := [
  ⟨0x01, 1, .dom 256, .rw, 0, .any, .staged, true, false⟩, -- Drive map
  ⟨0x02, 1, .u16, .rw, 1023, .between (0) 1023, .staged, true, false⟩, -- Band threshold 1
  ⟨0x03, 1, .u16, .rw, 1023, .between (0) 1023, .staged, true, false⟩, -- Band threshold 2
  ⟨0x04, 1, .u16, .rw, 1023, .between (0) 1023, .staged, true, false⟩, -- Band threshold 3
  ⟨0x05, 1, .u16, .rw, 8, .between (0) 255, .staged, true, false⟩, -- Band hysteresis
  ⟨0x06, 1, .u32, .ro, 1389386899, .any, .now, false, false⟩] -- Active map check

/-- 2780h and 127 more, 1 apart (07_compose_and_firing.md R181). -/
def dict2780 : List DictRow := [
  ⟨0x01, 1, .u16, .rw, 0, .between (0) 32767, .staged, true, false⟩, -- Row A position P_A
  ⟨0x02, 1, .u16, .rw, 0, .between (0) 32767, .staged, true, false⟩, -- Row B position P_B
  ⟨0x03, 1, .i16, .rw, 0, .between (-950) 950, .staged, true, false⟩, -- Skew SK
  ⟨0x04, 1, .u8, .ro, 0, .any, .now, false, true⟩, -- Drive band
  ⟨0x05, 1, .dom 0, .ro, 0, .any, .now, false, false⟩, -- Slice delays
  ⟨0x06, 1, .u8, .ro, 0, .any, .now, false, false⟩, -- Last blank cause
  ⟨0x07, 1, .u32, .ro, 0, .any, .now, false, false⟩] -- Lines blanked

/-- 2100h and 127 more, 1 apart (08_head_link.md R207). -/
def dict2100 : List DictRow := [
  ⟨0x01, 1, .u8, .ro, 0, .any, .now, false, true⟩, -- Receiver state
  ⟨0x02, 1, .u16, .ro, 0, .any, .now, false, false⟩, -- Link-ups
  ⟨0x03, 1, .u32, .ro, 0, .any, .now, false, false⟩, -- Code errors
  ⟨0x04, 1, .u32, .ro, 0, .any, .now, false, false⟩, -- STATUS discarded
  ⟨0x05, 1, .u8, .ro, 0, .any, .now, false, true⟩, -- Last STATUS flags
  ⟨0x06, 1, .u16, .ro, 0, .any, .now, false, true⟩, -- Temperature code
  ⟨0x07, 1, .u8, .ro, 0, .any, .now, false, false⟩, -- Consecutive echo failures
  ⟨0x08, 1, .u16, .ro, 0, .any, .now, false, false⟩, -- Echo failures in transit
  ⟨0x09, 1, .u16, .ro, 0, .any, .now, false, false⟩, -- Commands given up
  ⟨0x0A, 1, .u64, .ro, 0, .any, .now, false, false⟩, -- Identity
  ⟨0x0B, 1, .bool, .rw, 0, .between 0 0, .now, false, true⟩, -- Identity changed
  ⟨0x0C, 1, .u8, .ro, 0, .any, .now, false, false⟩, -- Rank
  ⟨0x0D, 1, .u8, .wo, 0, .between 1 2, .now, false, false⟩, -- Return command
  ⟨0x0E, 1, .u8, .ro, 0, .any, .now, false, true⟩, -- Return checks
  ⟨0x0F, 1, .u16, .rw, 0, .between (0) 10000, .now, true, false⟩, -- Lead resistance
  ⟨0x10, 1, .u16, .ro, 0, .any, .now, false, false⟩, -- Weak elements
  ⟨0x11, 1, .u16, .ro, 0, .any, .now, false, true⟩, -- Dead elements
  ⟨0x12, 1, .u16, .rw, 0, .any, .now, true, false⟩] -- Expected wave check

/-- 2703h (08_head_link.md R207). -/
def dict2703 : List DictRow := [
  ⟨0x01, 1, .u8, .rw, 4, .between (1) 16, .launch, true, false⟩, -- Consecutive echo limit
  ⟨0x02, 1, .u16, .rw, 16, .between (1) 1024, .launch, true, false⟩, -- Echo limit per transit
  ⟨0x03, 1, .u16, .rw, 200, .between (50) 5000, .launch, true, false⟩, -- Command timeout
  ⟨0x04, 1, .u8, .rw, 3, .between (0) 15, .launch, true, false⟩] -- Command retries

/-- 2704h (08_head_link.md R208). -/
def dict2704 : List DictRow := [
  ⟨0x01, 1, .u8, .rw, 0, .between (0) 127, .now, false, false⟩, -- Head
  ⟨0x02, 1, .u16, .rw, 0, .any, .now, false, false⟩, -- Address
  ⟨0x03, 1, .u16, .rw, 32, .between 1 256, .now, false, false⟩, -- Length
  ⟨0x04, 1, .dom 256, .rw, 0, .any, .now, false, false⟩, -- Data
  ⟨0x05, 1, .u8, .wo, 0, .between 1 4, .now, false, false⟩, -- Command
  ⟨0x06, 1, .u8, .ro, 0, .any, .now, false, false⟩] -- Result

/-- 2180h and 7 more, 1 apart (09_heads_in_service.md R227). -/
def dict2180 : List DictRow := [
  ⟨0x01, 1, .u16, .rw, 608, .any, .staged, true, false⟩, -- Soft limit
  ⟨0x02, 1, .u16, .rw, 688, .any, .staged, true, false⟩, -- Hard limit
  ⟨0x03, 1, .u16, .rw, 40, .between (1) 255, .staged, true, false⟩, -- Limit hysteresis
  ⟨0x04, 1, .u8, .rw, 255, .any, .staged, true, false⟩] -- Permitted ranks

/-- 3420h (09_heads_in_service.md R227). -/
def dict3420 : List DictRow := [
  ⟨0x01, 1, .bool, .rw, 1, .between 0 1, .now, true, false⟩, -- Turnaround sweeps
  ⟨0x02, 1, .u8, .wo, 0, .between 1 1, .now, false, false⟩, -- Sweep command
  ⟨0x03, 1, .u8, .rw, 10, .between (2) 20, .now, true, false⟩, -- Sense current
  ⟨0x04, 1, .u8, .rw, 8, .between (1) 254, .now, true, false⟩, -- Weak limit
  ⟨0x05, 1, .u8, .rw, 24, .between (1) 254, .now, true, false⟩, -- Dead limit
  ⟨0x06, 1, .u32, .ro, 0, .any, .now, false, true⟩, -- Sweeps completed
  ⟨0x07, 1, .u16, .ro, 0, .any, .now, false, false⟩, -- Next element
  ⟨0x08, 1, .u32, .ro, 0, .any, .now, false, false⟩, -- Slots missed
  ⟨0x09, 1, .u16, .rw, 60, .between (0) 3600, .now, true, false⟩, -- Idle sweep interval
  ⟨0x0A, 1, .dom 0, .ro, 0, .any, .now, false, false⟩, -- Verdict list
  ⟨0x0B, 1, .u8, .wo, 0, .between 1 1, .now, false, false⟩, -- Verdict list clear
  ⟨0x0C, 1, .bool, .ro, 0, .between 0 1, .now, false, false⟩] -- Verdict overflow

/-- 3440h (09_heads_in_service.md R227). -/
def dict3440 : List DictRow := [
  ⟨0x01, 1, .u8, .wo, 0, .between 1 3, .now, false, false⟩, -- Watch command
  ⟨0x02, 1, .u8, .ro, 0, .any, .now, false, true⟩, -- Watch state
  ⟨0x03, 1, .u8, .rw, 4, .between (1) 7, .now, true, false⟩, -- Watch drive code
  ⟨0x04, 1, .u16, .rw, 5000, .between (100) 5000, .now, true, false⟩, -- Watch rate
  ⟨0x05, 1, .u16, .rw, 150, .between (20) 180, .now, true, false⟩, -- Arrival window
  ⟨0x06, 1, .u16, .rw, 2000, .between (100) 50000, .now, true, false⟩, -- Deviation limit
  ⟨0x07, 1, .bool, .rw, 0, .between 0 1, .now, true, false⟩, -- Watch for return
  ⟨0x08, 1, .u32, .ro, 0, .any, .now, false, false⟩, -- Missing drops
  ⟨0x09, 1, .u32, .ro, 0, .any, .now, false, false⟩, -- Deviated drops
  ⟨0x0A, 1, .dom 0, .ro, 0, .any, .now, false, false⟩, -- Watch results
  ⟨0x0B, 1, .u16, .rw, 2048, .between (1) 4095, .now, true, false⟩, -- Detection threshold
  ⟨0x0C, 1, .i32, .rw, 0, .any, .now, true, false⟩] -- Service position

/-- 3460h (09_heads_in_service.md R227). -/
def dict3460 : List DictRow := [
  ⟨0x01, 1, .u16, .rw, 10, .between (1) 1440, .now, true, false⟩, -- Write-back interval
  ⟨0x02, 1, .u64, .rw, 0, .aligned, .idle, false, false⟩, -- Fire-count table
  ⟨0x03, 1, .u32, .ro, 0, .any, .now, false, false⟩] -- Write-backs done

/-- 3000h and 7 more, 16 apart (10_motion.md R247). -/
def dict3000 : List DictRow := [
  ⟨0x01, 1, .u8, .rw, 0, .between (0) 7, .idle, true, false⟩, -- Role
  ⟨0x02, 1, .u8, .ro, 0, .any, .now, false, true⟩, -- State
  ⟨0x03, 1, .u8, .wo, 0, .between 1 6, .now, false, false⟩, -- Command
  ⟨0x04, 1, .i32, .rw, 0, .any, .now, true, true⟩, -- Target
  ⟨0x05, 1, .i32, .ro, 0, .any, .now, false, true⟩, -- Set-point
  ⟨0x06, 1, .i32, .ro, 0, .any, .now, false, true⟩, -- Actual position
  ⟨0x07, 1, .u8, .rw, 0, .between 0 4, .idle, true, false⟩, -- Position source
  ⟨0x08, 1, .i32, .rw, 0, .any, .now, true, false⟩, -- Follow ratio G
  ⟨0x09, 1, .u8, .ro, 0, .any, .now, false, true⟩] -- Fault cause

/-- 3001h and 7 more, 16 apart (10_motion.md R247). -/
def dict3001 : List DictRow := [
  ⟨0x01, 1, .u32, .rw, 96000, .between (1) 10000000, .now, true, false⟩, -- Speed
  ⟨0x02, 1, .u32, .rw, 2400000, .between 1 4294967295, .now, true, false⟩, -- Acceleration
  ⟨0x03, 1, .u32, .rw, 2400000, .between 1 4294967295, .now, true, false⟩, -- Deceleration
  ⟨0x04, 1, .u32, .rw, 0, .any, .now, true, false⟩, -- Jerk
  ⟨0x05, 1, .u32, .rw, 4800000, .between 1 4294967295, .now, true, false⟩, -- Stop deceleration
  ⟨0x06, 1, .u16, .rw, 500, .between (0) 10000, .now, true, false⟩] -- Hold delay

/-- 3005h (10_motion.md R247). -/
def dict3005 : List DictRow := [
  ⟨0x01, 1, .i32, .rw, 0, .any, .idle, true, false⟩, -- Print origin X_O
  ⟨0x02, 1, .u32, .rw, 2400000, .between 1 4294967295, .staged, true, false⟩, -- Transit acceleration
  ⟨0x03, 1, .u32, .rw, 96000, .between 1 4294967295, .staged, true, false⟩, -- Positioning speed
  ⟨0x04, 1, .u32, .rw, 0, .any, .staged, true, false⟩] -- Transit jerk

/-- 3002h and 7 more, 16 apart (10_motion.md R247). -/
def dict3002 : List DictRow := [
  ⟨0x01, 1, .u8, .ro, 0, .any, .now, false, true⟩, -- Link state
  ⟨0x02, 1, .u32, .ro, 0, .any, .now, false, false⟩, -- Replies missed
  ⟨0x03, 1, .u32, .ro, 0, .any, .now, false, false⟩, -- Reply CRC errors
  ⟨0x04, 1, .u8, .rw, 3, .between (1) 16, .now, true, false⟩, -- Loss limit
  ⟨0x05, 1, .u8, .ro, 0, .any, .now, false, true⟩, -- Drive status
  ⟨0x06, 1, .u16, .ro, 0, .any, .now, false, false⟩, -- Drive fault code
  ⟨0x07, 1, .i16, .ro, 0, .any, .now, false, true⟩] -- Drive current

/-- 3003h and 7 more, 16 apart (10_motion.md R247). -/
def dict3003 : List DictRow := [
  ⟨0x01, 1, .u32, .rw, 200, .any, .now, true, false⟩, -- Following-error limit
  ⟨0x02, 1, .u16, .rw, 16, .between (1) 1600, .now, true, false⟩, -- Following-error time
  ⟨0x03, 1, .u32, .rw, 2000, .any, .now, true, false⟩, -- Hard following-error limit
  ⟨0x04, 1, .u32, .ro, 0, .any, .now, false, false⟩, -- Largest following error
  ⟨0x05, 1, .u16, .rw, 4, .between (1) 10000, .now, true, false⟩, -- Position window
  ⟨0x06, 1, .u16, .rw, 2, .between (0) 1000, .now, true, false⟩] -- Settle time

/-- 3004h and 7 more, 16 apart (10_motion.md R247). -/
def dict3004 : List DictRow := [
  ⟨0x01, 1, .u8, .ro, 0, .any, .now, false, true⟩, -- Input states
  ⟨0x02, 1, .u16, .rw, 2500, .between (1) 65535, .now, true, false⟩, -- Input filter time
  ⟨0x03, 1, .u16, .rw, 0, .between (0) 60000, .now, true, false⟩, -- Input stuck timeout
  ⟨0x04, 1, .u32, .ro, 0, .any, .now, false, false⟩, -- Input glitches
  ⟨0x05, 1, .u16, .rw, 16, .any, .now, true, false⟩] -- Input chatter limit

/-- 300Fh and 3 more, 16 apart (10_motion.md R247). -/
def dict300F : List DictRow := [
  ⟨0x01, 1, .i32, .ro, 0, .any, .now, false, false⟩, -- Raw count
  ⟨0x02, 1, .i32, .ro, 0, .any, .now, false, true⟩, -- Filtered count
  ⟨0x03, 1, .u16, .rw, 2400, .between (100) 65535, .idle, true, false⟩, -- Counts per inch
  ⟨0x04, 1, .u8, .rw, 8, .between (1) 255, .now, true, false⟩, -- Filter time
  ⟨0x05, 1, .u8, .rw, 3, .between (1) 15, .now, true, false⟩, -- Backward window W
  ⟨0x06, 1, .u32, .rw, 400000, .any, .now, true, false⟩, -- Overspeed limit
  ⟨0x07, 1, .bool, .rw, 0, .between 0 1, .idle, true, false⟩, -- Direction invert
  ⟨0x08, 1, .u32, .ro, 0, .any, .now, false, false⟩, -- Backward steps absorbed
  ⟨0x09, 1, .u32, .ro, 0, .any, .now, false, false⟩, -- Glitches
  ⟨0x0A, 1, .u32, .ro, 0, .any, .now, false, false⟩, -- Quadrature errors
  ⟨0x0B, 1, .u8, .ro, 0, .any, .now, false, true⟩, -- Encoder state
  ⟨0x0C, 1, .i32, .ro, 0, .any, .now, false, false⟩, -- Index position
  ⟨0x0D, 1, .u16, .rw, 16, .any, .now, true, false⟩, -- Chatter limit
  ⟨0x0E, 1, .u16, .rw, 0, .between (0) 60000, .now, true, false⟩] -- Index stuck timeout

/-- 307Fh (10_motion.md R247). -/
def dict307F : List DictRow := [
  ⟨0x01, 1, .u8, .ro, 0, .any, .now, false, true⟩, -- Engine input states
  ⟨0x02, 1, .u16, .rw, 5000, .between (1) 65535, .now, true, false⟩, -- STOP_L filter time
  ⟨0x03, 1, .u16, .rw, 500, .between (1) 65535, .now, true, false⟩, -- PFAIL_L filter time
  ⟨0x04, 1, .u16, .rw, 0, .between (0) 60000, .now, true, false⟩, -- Engine input stuck timeout
  ⟨0x05, 1, .u32, .ro, 0, .any, .now, false, false⟩] -- Engine input glitches

/-- 3100h and 191 more, 1 apart (11_loops_heat_hv.md R265). -/
def dict3100 : List DictRow := [
  ⟨0x01, 1, .bool, .rw, 0, .between 0 1, .now, true, false⟩, -- Enable
  ⟨0x02, 1, .i16, .rw, 0, .any, .now, true, true⟩, -- Set-point
  ⟨0x03, 1, .u16, .rw, 20, .between (0) 32767, .now, true, false⟩, -- Lower band lb
  ⟨0x04, 1, .u16, .rw, 20, .between (0) 32767, .now, true, false⟩, -- Upper band ub
  ⟨0x05, 1, .u16, .rw, 1000, .any, .now, true, false⟩, -- Minimum on time
  ⟨0x06, 1, .u16, .rw, 1000, .any, .now, true, false⟩, -- Minimum off time
  ⟨0x07, 1, .i16, .rw, 0, .any, .now, true, false⟩, -- Standby set-point
  ⟨0x08, 1, .u8, .rw, 0, .between (0) 63, .now, true, false⟩, -- Source input
  ⟨0x09, 1, .u16, .rw, 0, .any, .now, true, false⟩, -- Following-error limit
  ⟨0x0A, 1, .u32, .rw, 600000, .any, .now, true, false⟩, -- Following-error time
  ⟨0x0B, 1, .u8, .rw, 1, .oneOf [1, 3], .now, true, false⟩, -- Following-error class
  ⟨0x0C, 1, .bool, .ro, 0, .between 0 1, .now, false, true⟩, -- Output
  ⟨0x0D, 1, .i16, .ro, 0, .any, .now, false, true⟩, -- Measured value PV
  ⟨0x0E, 1, .u8, .ro, 0, .any, .now, false, true⟩, -- Restriction
  ⟨0x0F, 1, .i16, .ro, 0, .any, .now, false, false⟩, -- Error e
  ⟨0x10, 1, .i16, .ro, 0, .any, .now, false, false⟩, -- Effective set-point
  ⟨0x11, 1, .u8, .rw, 0, .any, .now, false, false⟩, -- Sticky flags
  ⟨0x12, 1, .u16, .rw, 100, .between (20) 10000, .now, true, false⟩, -- Idle warm period
  ⟨0x13, 1, .u32, .ro, 0, .any, .now, false, false⟩] -- Switchings

/-- 3200h and 3 more, 1 apart (11_loops_heat_hv.md R265). -/
def dict3200 : List DictRow := [
  ⟨0x01, 1, .u8, .rw, 0, .between 0 2, .now, true, false⟩, -- Mode
  ⟨0x02, 1, .u32, .rw, 20000, .between (1000) 100000, .now, true, false⟩, -- PWM frequency
  ⟨0x03, 1, .u16, .rw, 0, .between (0) 1000, .now, true, false⟩, -- Duty, output on
  ⟨0x04, 1, .u16, .rw, 0, .between (0) 1000, .now, true, false⟩, -- Duty, output off
  ⟨0x05, 1, .i16, .rw, 32767, .any, .now, true, false⟩, -- Trip limit
  ⟨0x06, 1, .u8, .ro, 0, .any, .now, false, true⟩, -- Channel state
  ⟨0x07, 1, .u8, .wo, 0, .between 1 1, .now, false, false⟩, -- Command
  ⟨0x08, 1, .u16, .ro, 0, .any, .now, false, false⟩] -- Present duty

/-- 3210h and 3 more, 1 apart (11_loops_heat_hv.md R265). -/
def dict3210 : List DictRow := [
  ⟨0x01, 1, .u8, .wo, 0, .between 1 3, .now, false, false⟩, -- Command
  ⟨0x02, 1, .u8, .ro, 0, .any, .now, false, true⟩, -- State
  ⟨0x03, 1, .u8, .rw, 1, .between 1 3, .now, true, false⟩, -- Source kind
  ⟨0x04, 1, .u8, .rw, 0, .any, .now, true, false⟩, -- Source index
  ⟨0x05, 1, .u8, .rw, 0, .any, .now, true, false⟩, -- Node
  ⟨0x06, 1, .u16, .rw, 1, .between (1) 65535, .now, true, false⟩, -- Divider
  ⟨0x07, 1, .u8, .rw, 0, .between (0) 4, .now, true, false⟩, -- Trigger mode
  ⟨0x08, 1, .i32, .rw, 0, .any, .now, true, false⟩, -- Trigger level
  ⟨0x09, 1, .u32, .rw, 4096, .any, .now, true, false⟩, -- Post-trigger count
  ⟨0x0A, 1, .u64, .rw, 0, .aligned, .now, true, false⟩, -- Ring base
  ⟨0x0B, 1, .u32, .rw, 65536, .pow2 32768 67108864, .now, true, false⟩, -- Ring size
  ⟨0x0C, 1, .u32, .ro, 0, .any, .now, false, false⟩, -- Valid samples
  ⟨0x0D, 1, .u32, .ro, 0, .any, .now, false, false⟩, -- First valid offset
  ⟨0x0E, 1, .u32, .ro, 0, .any, .now, false, false⟩, -- Trigger offset
  ⟨0x0F, 1, .u64, .ro, 0, .any, .now, false, false⟩, -- Trigger time
  ⟨0x10, 1, .u32, .ro, 0, .any, .now, false, false⟩] -- Samples lost

/-- 3401h (11_loops_heat_hv.md R265). -/
def dict3401 : List DictRow := [
  ⟨0x01, 64, .u8, .rw, 0, .between 0 5, .now, true, false⟩] -- Input kind, i = sub − 1

/-- 3402h (11_loops_heat_hv.md R265). -/
def dict3402 : List DictRow := [
  ⟨0x01, 64, .i16, .rw, 4096, .any, .now, true, false⟩] -- Gain

/-- 3403h (11_loops_heat_hv.md R265). -/
def dict3403 : List DictRow := [
  ⟨0x01, 64, .i16, .rw, 0, .any, .now, true, false⟩] -- Offset

/-- 3404h (11_loops_heat_hv.md R265). -/
def dict3404 : List DictRow := [
  ⟨0x01, 64, .u16, .rw, 0, .between 0 4095, .now, true, false⟩] -- Valid minimum

/-- 3405h (11_loops_heat_hv.md R265). -/
def dict3405 : List DictRow := [
  ⟨0x01, 64, .u16, .rw, 4095, .between 0 4095, .now, true, false⟩] -- Valid maximum

/-- 3406h (11_loops_heat_hv.md R265). -/
def dict3406 : List DictRow := [
  ⟨0x01, 64, .i16, .ro, 0, .any, .now, false, true⟩] -- Value

/-- 3407h (11_loops_heat_hv.md R265). -/
def dict3407 : List DictRow := [
  ⟨0x01, 64, .u16, .ro, 0, .any, .now, false, false⟩] -- Mean code

/-- 3408h (11_loops_heat_hv.md R265). -/
def dict3408 : List DictRow := [
  ⟨0x01, 64, .u8, .rw, 0, .any, .now, false, true⟩] -- Input status

/-- 3409h (11_loops_heat_hv.md R265). -/
def dict3409 : List DictRow := [
  ⟨0x01, 4, .dom 130, .rw, 0, .any, .now, true, false⟩] -- Linearisation table t = sub − 1

/-- 4000h (12_dram.md R291). -/
def dict4000 : List DictRow := [
  ⟨0x01, 1, .u8, .rw, 16, .oneOf [16, 32], .dawn, true, false⟩, -- Device density
  ⟨0x02, 1, .u8, .rw, 8, .oneOf [4, 8], .dawn, true, false⟩, -- Device width
  ⟨0x03, 1, .u8, .rw, 4, .between 1 4, .dawn, true, false⟩, -- Ranks per channel
  ⟨0x04, 1, .u8, .rw, 3, .oneOf [0, 1, 2, 3, 255], .dawn, true, false⟩, -- Spare rank
  ⟨0x05, 1, .u8, .rw, 12, .between (8) 16, .dawn, true, false⟩, -- Grain exponent g
  ⟨0x06, 1, .u32, .rw, 4294967295, .any, .dawn, true, false⟩, -- Seed mask
  ⟨0x07, 1, .u8, .rw, 15, .between 1 15, .dawn, true, false⟩] -- Channels fitted

/-- 4001h (12_dram.md R291). -/
def dict4001 : List DictRow := [
  ⟨0x01, 1, .u8, .ro, 0, .any, .now, false, true⟩, -- Controller state
  ⟨0x02, 1, .u64, .ro, 0, .any, .now, false, false⟩, -- Installed capacity
  ⟨0x03, 1, .u64, .ro, 0, .any, .now, false, false⟩, -- Usable capacity
  ⟨0x04, 1, .u8, .ro, 0, .any, .now, false, true⟩, -- Channels in service
  ⟨0x05, 1, .u8, .ro, 0, .any, .now, false, false⟩, -- Marking progress
  ⟨0x06, 1, .u32, .ro, 0, .any, .now, false, false⟩, -- Usable bandwidth
  ⟨0x07, 1, .u32, .ro, 0, .any, .now, false, false⟩, -- Largest class-0 latency
  ⟨0x08, 1, .u32, .ro, 0, .any, .now, false, true⟩, -- Class-0 reads over 1.5 µs
  ⟨0x09, 1, .u8, .ro, 0, .any, .now, false, true⟩, -- Conditions not held
  ⟨0x0A, 1, .u16, .ro, 1000, .any, .now, false, false⟩, -- Imbalance
  ⟨0x0B, 1, .u32, .ro, 0, .any, .now, false, false⟩, -- Partial writes discarded
  ⟨0x0C, 1, .u32, .ro, 0, .any, .now, false, false⟩] -- Marker reads

/-- 4002h (12_dram.md R291). -/
def dict4002 : List DictRow := [
  ⟨0x01, 1, .u16, .rw, 96, .between (0) 4095, .now, true, false⟩, -- Page idle time
  ⟨0x02, 3, .u8, .rw, 0, .between (1) 16, .now, true, false⟩, -- Weight, class 1…3
  ⟨0x05, 1, .u16, .rw, 60, .between (10) 3600, .now, true, false⟩, -- Retrain interval
  ⟨0x06, 1, .u8, .rw, 10, .between (2) 40, .now, true, false⟩, -- Retrain temperature step
  ⟨0x07, 1, .u16, .rw, 4000, .between (500) 16000, .now, true, false⟩, -- Migration rate
  ⟨0x08, 1, .u32, .rw, 0, .any, .now, true, false⟩, -- Correctable threshold
  ⟨0x09, 1, .u16, .rw, 1500, .between (1000) 4000, .now, true, false⟩, -- Imbalance limit
  ⟨0x0A, 1, .u16, .rw, 10, .between (1) 3600, .now, true, false⟩] -- Imbalance time

/-- 4010h and 3 more, 1 apart (12_dram.md R291). -/
def dict4010 : List DictRow := [
  ⟨0x01, 1, .u8, .ro, 0, .any, .now, false, true⟩, -- Channel state
  ⟨0x02, 1, .u64, .ro, 0, .any, .now, false, false⟩, -- Bytes read
  ⟨0x03, 1, .u64, .ro, 0, .any, .now, false, false⟩, -- Bytes written
  ⟨0x04, 1, .u32, .ro, 0, .any, .now, false, false⟩, -- Corrected lines
  ⟨0x05, 1, .u32, .ro, 0, .any, .now, false, true⟩, -- Uncorrectable lines
  ⟨0x06, 1, .u32, .ro, 0, .any, .now, false, false⟩, -- Alerts
  ⟨0x07, 1, .u32, .ro, 0, .any, .now, false, false⟩, -- Retrains
  ⟨0x08, 1, .u16, .ro, 0, .any, .now, false, false⟩, -- Retrain fallbacks
  ⟨0x09, 1, .u64, .ro, 0, .any, .now, false, false⟩, -- Last training
  ⟨0x0A, 1, .u8, .ro, 3, .any, .now, false, false⟩, -- Spare rank
  ⟨0x0B, 1, .u8, .ro, 255, .any, .now, false, false⟩, -- Retired rank
  ⟨0x0C, 1, .u8, .ro, 0, .any, .now, false, true⟩, -- Migration state
  ⟨0x0D, 1, .u64, .ro, 0, .any, .now, false, false⟩, -- Migration pointer P
  ⟨0x0E, 1, .u8, .ro, 0, .any, .now, false, false⟩, -- Migration cause
  ⟨0x0F, 1, .u64, .ro, 0, .any, .now, false, false⟩, -- Last error address
  ⟨0x10, 1, .u8, .wo, 0, .between 1 2, .now, false, false⟩, -- Command
  ⟨0x11, 1, .u8, .rw, 0, .between (0) 3, .now, true, false⟩, -- Rank to migrate
  ⟨0x12, 1, .u8, .ro, 1, .any, .now, false, false⟩] -- Refresh rate

/-- 4020h (13_integrity_ecc.md R307). -/
def dict4020 : List DictRow := [
  ⟨0x01, 1, .u16, .rw, 1000, .between (100) 60000, .now, true, false⟩, -- On-chip scrub period
  ⟨0x02, 1, .u16, .rw, 24, .between (0) 168, .now, true, false⟩, -- DRAM patrol period
  ⟨0x03, 1, .u64, .ro, 0, .any, .now, false, false⟩, -- Patrol position
  ⟨0x04, 1, .u32, .ro, 0, .any, .now, false, false⟩, -- Patrol corrections
  ⟨0x05, 1, .u8, .ro, 0, .any, .now, false, false⟩, -- Remap records loaded
  ⟨0x06, 1, .u16, .ro, 0, .any, .now, false, true⟩, -- Remap record failures
  ⟨0x07, 1, .u8, .rw, 2, .between (2) 8, .now, true, false⟩] -- Hard threshold

/-- 4030h and 7 more, 1 apart (13_integrity_ecc.md R307). -/
def dict4030 : List DictRow := [
  ⟨0x01, 1, .u32, .ro, 0, .any, .now, false, false⟩, -- Corrected bytes
  ⟨0x02, 1, .u32, .ro, 0, .any, .now, false, true⟩, -- Uncorrectable words
  ⟨0x03, 1, .u32, .ro, 0, .any, .now, false, true⟩, -- Poison consumed
  ⟨0x04, 1, .u16, .ro, 0, .any, .now, false, false⟩, -- Spare rows in use
  ⟨0x05, 1, .u8, .ro, 0, .any, .now, false, true⟩, -- Remap entries in use
  ⟨0x06, 1, .dom 0, .ro, 0, .any, .now, false, false⟩, -- Remap table
  ⟨0x07, 1, .u32, .ro, 0, .any, .now, false, false⟩, -- Scrub passes
  ⟨0x08, 1, .u32, .ro, 0, .any, .now, false, false⟩] -- Last error address

/-- 4100h (14_faults_deadlines.md R326). -/
def dict4100 : List DictRow := [
  ⟨0x01, 1, .u16, .ro, 0, .any, .now, false, false⟩, -- Log entries in use
  ⟨0x02, 1, .u32, .wo, 0, .any, .now, false, false⟩, -- Acknowledge entry
  ⟨0x03, 1, .u8, .wo, 0, .between (0) 4, .now, false, false⟩, -- Acknowledge class
  ⟨0x04, 1, .u8, .ro, 255, .any, .now, false, true⟩, -- Highest unacknowledged class
  ⟨0x05, 1, .u16, .rw, 100, .between (0) 10000, .now, true, false⟩, -- Shadow extension
  ⟨0x06, 1, .u16, .rw, 1000, .between (10) 60000, .now, true, false⟩, -- Repeat interval
  ⟨0x07, 1, .u8, .rw, 1, .between 0 3, .now, true, false⟩, -- Auto-acknowledge
  ⟨0x08, 1, .u32, .rw, 1000, .between (20) 100000, .now, true, false⟩, -- Incident window
  ⟨0x09, 1, .bool, .rw, 0, .between 0 1, .now, true, true⟩, -- FAULT_L hold
  ⟨0x0A, 1, .u32, .ro, 0, .any, .now, false, false⟩, -- Log losses
  ⟨0x0B, 1, .u32, .ro, 0, .any, .now, false, false⟩, -- Escalations
  ⟨0x0C, 1, .u32, .ro, 0, .any, .now, false, false⟩, -- Shadowed messages
  ⟨0x0D, 1, .u64, .ro, 0, .any, .now, false, true⟩, -- Last message
  ⟨0x0E, 1, .u32, .ro, 0, .any, .now, false, false⟩] -- EMCY suppressed

/-- 4101h (14_faults_deadlines.md R326). -/
def dict4101 : List DictRow := [
  ⟨0x01, 1, .u32, .rw, 0, .any, .now, false, false⟩, -- Log select
  ⟨0x02, 1, .dom 0, .ro, 0, .any, .now, false, false⟩, -- Log entry
  ⟨0x03, 1, .dom 0, .ro, 0, .any, .now, false, false⟩] -- Whole log

/-- 4110h (14_faults_deadlines.md R326). -/
def dict4110 : List DictRow := [
  ⟨0x01, 4, .u32, .ro, 0, .any, .now, false, false⟩, -- Deadline messages, stage
  ⟨0x05, 4, .u32, .ro, 4294967295, .any, .now, false, false⟩, -- Least slack, stage
  ⟨0x09, 4, .u32, .ro, 0, .any, .now, false, false⟩] -- Least-slack line, stage

/-- 4120h and 7 more, 1 apart (14_faults_deadlines.md R326). -/
def dict4120 : List DictRow := [
  ⟨0x01, 1, .u32, .ro, 0, .any, .now, false, false⟩, -- Panel number
  ⟨0x02, 5, .u32, .ro, 0, .any, .now, false, false⟩, -- Entries, class 0…4
  ⟨0x07, 1, .u16, .ro, 0, .any, .now, false, false⟩, -- Escalations
  ⟨0x08, 1, .u32, .ro, 0, .any, .now, false, false⟩, -- Shadowed
  ⟨0x09, 1, .u64, .ro, 0, .any, .now, false, false⟩, -- First Degrade or higher
  ⟨0x0A, 1, .u32, .ro, 0, .any, .now, false, false⟩, -- Its log sequence
  ⟨0x0B, 1, .u64, .ro, 0, .any, .now, false, false⟩, -- First and last sequence
  ⟨0x0C, 1, .dom 0, .ro, 0, .any, .now, false, false⟩] -- Deadline summary

/-- 4280h (15_clocks.md R339). -/
def dict4280 : List DictRow := [
  ⟨0x01, 1, .u32, .ro, 0, .any, .now, false, false⟩, -- REF monitor count
  ⟨0x02, 1, .u8, .ro, 0, .any, .now, false, true⟩, -- Domains on bypass
  ⟨0x03, 1, .u32, .ro, 0, .any, .now, false, false⟩, -- Bypass switches
  ⟨0x04, 1, .u32, .rw, 0, .zeroOr 10000 100000, .idle, true, false⟩, -- CLK_IN frequency
  ⟨0x05, 1, .u8, .ro, 0, .any, .now, false, true⟩, -- CLK_IN state
  ⟨0x06, 1, .u8, .wo, 0, .between 1 1, .now, false, false⟩, -- SYNC command
  ⟨0x07, 1, .u8, .ro, 0, .any, .now, false, false⟩, -- SYNC state
  ⟨0x08, 1, .u8, .rw, 2, .between 0 7, .now, true, false⟩, -- SYNC PLL select
  ⟨0x09, 1, .u16, .ro, 0, .any, .now, false, false⟩] -- REF losses

/-- 4281h and 2 more, 1 apart (15_clocks.md R339). -/
def dict4281 : List DictRow := [
  ⟨0x01, 1, .u8, .ro, 0, .any, .now, false, true⟩, -- State
  ⟨0x02, 1, .u8, .rw, 0, .between 0 1, .now, true, false⟩, -- Reference source
  ⟨0x03, 1, .u8, .rw, 0, .between 0 2, .now, true, false⟩, -- Reference scaling
  ⟨0x04, 1, .u8, .ro, 96, .any, .now, false, false⟩, -- Feedback N
  ⟨0x05, 1, .u8, .ro, 0, .any, .now, false, false⟩, -- Band
  ⟨0x06, 1, .u32, .ro, 0, .any, .now, false, false⟩, -- Losses of lock
  ⟨0x07, 1, .u32, .ro, 0, .any, .now, false, false⟩, -- Losses of reference
  ⟨0x08, 1, .u32, .ro, 0, .any, .now, false, false⟩, -- Failed attempts
  ⟨0x09, 1, .u8, .wo, 0, .between 1 1, .now, false, false⟩, -- Command
  ⟨0x0A, 3, .u8, .rw, 0, .between (1) 255, .now, true, false⟩, -- Divider, output 0…2
  ⟨0x0D, 3, .u8, .rw, 0, .between (0) 63, .now, true, false⟩, -- Delay, output 0…2
  ⟨0x10, 3, .bool, .rw, 0, .between 0 1, .now, true, false⟩, -- Enable, output 0…2
  ⟨0x13, 1, .u16, .ro, 0, .any, .now, false, false⟩] -- Last lock time

/-- 4200h (16_power_heat_states.md R361). -/
def dict4200 : List DictRow := [
  ⟨0x01, 1, .u16, .ro, 0, .any, .now, false, true⟩, -- Input voltage
  ⟨0x02, 1, .u16, .ro, 0, .any, .now, false, true⟩, -- Input current
  ⟨0x03, 1, .u32, .ro, 0, .any, .now, false, false⟩, -- Input power
  ⟨0x04, 1, .u8, .ro, 0, .any, .now, false, true⟩, -- Shedding stage
  ⟨0x05, 1, .u8, .ro, 0, .any, .now, false, true⟩, -- Triggers present
  ⟨0x06, 1, .u16, .rw, 0, .between 0 0, .now, false, false⟩, -- Lowest input voltage
  ⟨0x07, 1, .u32, .ro, 0, .any, .now, false, false⟩] -- Stage entries

/-- 4201h (16_power_heat_states.md R361). -/
def dict4201 : List DictRow := [
  ⟨0x01, 1, .u8, .rw, 3, .oneOf [0, 3, 4], .now, true, false⟩, -- PFAIL_L action
  ⟨0x02, 1, .u16, .rw, 6000, .between (1000) 6000, .now, true, false⟩] -- Current limit

/-- 4202h (16_power_heat_states.md R361). -/
def dict4202 : List DictRow := [
  ⟨0x01, 9, .u16, .ro, 0, .any, .now, false, false⟩, -- Rail voltage
  ⟨0x0A, 1, .u16, .ro, 0, .any, .now, false, false⟩, -- Rail resets
  ⟨0x0B, 1, .u8, .ro, 0, .any, .now, false, true⟩] -- Output overloads

/-- 4210h (16_power_heat_states.md R361). -/
def dict4210 : List DictRow := [
  ⟨0x01, 12, .i16, .ro, 0, .any, .now, false, false⟩] -- Sensor reading, s = sub − 1

/-- 4211h (16_power_heat_states.md R361). -/
def dict4211 : List DictRow := [
  ⟨0x01, 1, .i16, .ro, 0, .any, .now, false, true⟩, -- Die temperature
  ⟨0x02, 1, .i16, .ro, 0, .any, .now, false, false⟩, -- Highest die temperature
  ⟨0x03, 1, .u16, .ro, 0, .any, .now, false, true⟩, -- Failed sensors
  ⟨0x04, 1, .i16, .rw, 1000, .between (500) 1100, .now, true, false⟩, -- Warning limit
  ⟨0x05, 1, .i16, .rw, 1150, .between (900) 1180, .now, true, false⟩, -- Hot limit
  ⟨0x06, 1, .i16, .rw, 1200, .between 900 1230, .now, true, false⟩, -- Critical limit
  ⟨0x07, 1, .u16, .ro, 0, .any, .now, false, false⟩, -- Fast sampling
  ⟨0x08, 1, .u8, .ro, 0, .any, .now, false, true⟩, -- Temperature status
  ⟨0x09, 1, .i16, .ro, 0, .any, .now, false, false⟩, -- Oscillator correction
  ⟨0x0A, 1, .i16, .ro, 0, .any, .now, false, false⟩] -- ADC reference correction

/-- 4220h (16_power_heat_states.md R361). -/
def dict4220 : List DictRow := [
  ⟨0x01, 1, .u8, .ro, 0, .any, .now, false, true⟩, -- Idle state
  ⟨0x02, 1, .u32, .ro, 0, .any, .now, false, false⟩, -- Latency tolerance in force
  ⟨0x03, 1, .u16, .rw, 100, .between (0) 60000, .now, true, false⟩, -- Entry delay
  ⟨0x04, 1, .u8, .rw, 3, .between (0) 3, .now, true, false⟩, -- Deepest permitted
  ⟨0x05, 1, .u16, .ro, 0, .any, .now, false, true⟩, -- Blocking conditions
  ⟨0x06, 1, .u32, .ro, 0, .any, .now, false, false⟩, -- Last exit time
  ⟨0x07, 1, .u8, .ro, 0, .any, .now, false, false⟩, -- Last wake cause
  ⟨0x08, 1, .u64, .ro, 0, .any, .now, false, false⟩] -- Time idle

/-- 4300h (17_fuses_lifecycle_dawn.md R379). -/
def dict4300 : List DictRow := [
  ⟨0x01, 1, .u8, .ro, 0, .any, .now, false, false⟩, -- Life-cycle state
  ⟨0x02, 1, .u16, .ro, 0, .any, .now, false, false⟩, -- Regions locked
  ⟨0x03, 1, .u16, .ro, 0, .any, .now, false, true⟩, -- Words corrected
  ⟨0x04, 1, .u16, .ro, 0, .any, .now, false, false⟩, -- Marginal unsealed words
  ⟨0x05, 1, .dom 0, .ro, 0, .any, .now, false, false⟩, -- Failed words
  ⟨0x06, 1, .u16, .ro, 0, .any, .now, false, true⟩, -- Failed word count
  ⟨0x07, 1, .u8, .ro, 0, .any, .now, false, false⟩] -- Key slot state

/-- 4301h (17_fuses_lifecycle_dawn.md R379). -/
def dict4301 : List DictRow := [
  ⟨0x01, 1, .u16, .rw, 0, .between (0) 511, .now, false, false⟩, -- Word select
  ⟨0x02, 1, .u32, .ro, 0, .any, .now, false, false⟩, -- Word data
  ⟨0x03, 1, .u8, .ro, 0, .any, .now, false, false⟩] -- Word status

/-- 4302h (17_fuses_lifecycle_dawn.md R379). -/
def dict4302 : List DictRow := [
  ⟨0x01, 1, .u16, .rw, 0, .between (0) 503, .now, false, false⟩, -- Program word
  ⟨0x02, 1, .u32, .rw, 0, .any, .now, false, false⟩, -- Program data
  ⟨0x03, 1, .u8, .wo, 0, .between 1 3, .now, false, false⟩, -- Program command
  ⟨0x04, 1, .u8, .rw, 1, .between (1) 8, .now, false, false⟩, -- Region to lock
  ⟨0x05, 1, .u8, .ro, 0, .any, .now, false, false⟩, -- Program result
  ⟨0x06, 1, .u8, .rw, 0, .between 0 1, .now, false, false⟩] -- Pulse supply

/-- 4310h (17_fuses_lifecycle_dawn.md R379). -/
def dict4310 : List DictRow := [
  ⟨0x01, 1, .u8, .wo, 0, .between (1) 4, .now, false, false⟩, -- Transition
  ⟨0x02, 1, .u32, .rw, 0, .any, .now, false, false⟩, -- Confirmation
  ⟨0x03, 1, .dom 224, .rw, 0, .any, .now, false, false⟩, -- Authorisation
  ⟨0x04, 1, .u32, .ro, 0, .any, .now, false, false⟩, -- Nonce
  ⟨0x05, 1, .u8, .ro, 0, .any, .now, false, false⟩, -- Transition result
  ⟨0x06, 1, .u8, .wo, 0, .between 1 1, .now, false, false⟩] -- Revoke

/-- 4320h (17_fuses_lifecycle_dawn.md R379). -/
def dict4320 : List DictRow := [
  ⟨0x01, 1, .u32, .ro, 0, .any, .now, false, false⟩, -- Dawn count
  ⟨0x02, 1, .dom 0, .ro, 0, .any, .now, false, false⟩, -- Step times
  ⟨0x03, 1, .u8, .ro, 0, .any, .now, false, false⟩] -- Last reset cause

/-- 5000h (18_field_network_peers.md R394). -/
def dict5000 : List DictRow := [
  ⟨0x01, 1, .u8, .rw, 1, .between (1) 127, .dawnIdle, true, false⟩, -- Engine node-ID
  ⟨0x02, 1, .u16, .rw, 1000, .oneOf [500, 1000], .dawnIdle, true, false⟩, -- Arbitration bit rate
  ⟨0x03, 1, .u16, .rw, 5000, .oneOf [2000, 5000], .dawnIdle, true, false⟩, -- Data bit rate
  ⟨0x04, 1, .u8, .rw, 0, .between 0 2, .dawnIdle, true, false⟩, -- Port B mode
  ⟨0x05, 1, .u16, .rw, 200, .between (10) 10000, .now, true, false⟩, -- Redundant silence time
  ⟨0x06, 1, .u32, .ro, 0, .any, .now, false, false⟩, -- Bus-off count
  ⟨0x07, 1, .u16, .ro, 0, .any, .now, false, false⟩, -- Active-port changes
  ⟨0x08, 1, .u16, .ro, 0, .any, .now, false, false⟩, -- NMT commands ignored
  ⟨0x09, 1, .u8, .rw, 1, .between (1) 20, .now, true, false⟩, -- LSS step timeout
  ⟨0x0A, 1, .u16, .rw, 1500, .between (100) 10000, .now, true, false⟩, -- Dawn discovery time
  ⟨0x0B, 1, .dom 0, .ro, 0, .any, .now, false, false⟩, -- Unknown nodes
  ⟨0x0C, 1, .u16, .rw, 100, .between (10) 5000, .now, true, false⟩, -- USDO client timeout
  ⟨0x0D, 1, .u8, .ro, 0, .any, .now, false, true⟩, -- Active port
  ⟨0x0E, 1, .u8, .ro, 0, .any, .now, false, true⟩] -- Hold by peers

/-- 5001h and 126 more, 1 apart (18_field_network_peers.md R394). -/
def dict5001 : List DictRow := [
  ⟨0x01, 1, .bool, .rw, 0, .between 0 1, .now, true, false⟩, -- Profile enabled
  ⟨0x02, 1, .u8, .ro, 0, .any, .now, false, true⟩, -- Peer state
  ⟨0x03, 1, .u32, .rw, 0, .any, .now, true, false⟩, -- Expected vendor ID
  ⟨0x04, 1, .u32, .rw, 0, .any, .now, true, false⟩, -- Expected product code
  ⟨0x05, 1, .u32, .rw, 0, .any, .now, true, false⟩, -- Expected revision
  ⟨0x06, 1, .u32, .rw, 0, .any, .now, true, false⟩, -- Expected serial
  ⟨0x07, 1, .u8, .rw, 0, .between 0 5, .now, true, false⟩, -- Role
  ⟨0x08, 1, .u8, .rw, 1, .between 0 2, .now, true, false⟩, -- Boundary action
  ⟨0x09, 1, .bool, .rw, 0, .between 0 1, .now, true, false⟩, -- Gates transits
  ⟨0x0A, 1, .u16, .rw, 300, .between (20) 60000, .now, true, false⟩, -- Heartbeat consumer time
  ⟨0x0B, 1, .u8, .rw, 0, .between 0 16, .now, true, false⟩, -- Ready value
  ⟨0x0C, 1, .u8, .rw, 0, .between (0) 31, .now, true, false⟩, -- Ready bit
  ⟨0x0D, 1, .dom 4096, .rw, 0, .any, .now, true, false⟩, -- Configuration script
  ⟨0x0E, 1, .dom 0, .ro, 0, .any, .now, false, false⟩, -- Identity read
  ⟨0x0F, 1, .u8, .rw, 0, .between 0 1, .now, true, false⟩, -- Port
  ⟨0x10, 1, .u8, .wo, 0, .between 1 3, .now, false, false⟩, -- Command
  ⟨0x11, 1, .u16, .ro, 0, .any, .now, false, false⟩, -- Departures
  ⟨0x12, 1, .u64, .ro, 0, .any, .now, false, false⟩, -- Last EMCY
  ⟨0x13, 1, .u16, .ro, 0, .any, .now, false, false⟩, -- Configuration failures
  ⟨0x14, 1, .u32, .ro, 0, .any, .now, false, false⟩, -- Last USDO abort
  ⟨0x15, 1, .bool, .ro, 1, .between 0 1, .now, false, true⟩, -- Values stale
  ⟨0x20, 16, .u32, .rw, 0, .any, .now, true, true⟩] -- Peer value 1…16

/-- 1000h (19_object_dictionary.md R411). -/
def dict1000 : List DictRow := [
  ⟨0x00, 1, .u32, .const, 0, .any, .now, false, false⟩] -- Device type

/-- 1001h (19_object_dictionary.md R411). -/
def dict1001 : List DictRow := [
  ⟨0x00, 1, .u8, .ro, 0, .any, .now, false, true⟩] -- Error register

/-- 1003h (19_object_dictionary.md R411). -/
def dict1003 : List DictRow := [
  ⟨0x00, 1, .u8, .rw, 0, .between 0 0, .now, false, false⟩, -- Error count
  ⟨0x01, 8, .u32, .ro, 0, .any, .now, false, false⟩] -- Error field

/-- 1005h (19_object_dictionary.md R411). -/
def dict1005 : List DictRow := [
  ⟨0x00, 1, .u32, .rw, 128, .any, .now, true, false⟩] -- COB-ID SYNC

/-- 1006h (19_object_dictionary.md R411). -/
def dict1006 : List DictRow := [
  ⟨0x00, 1, .u32, .rw, 0, .zeroOr 1000 1000000, .now, true, false⟩] -- Cycle period

/-- 1008h (19_object_dictionary.md R411). -/
def dict1008 : List DictRow := [
  ⟨0x00, 1, .str, .const, 0, .any, .now, false, false⟩] -- Device name

/-- 1009h (19_object_dictionary.md R411). -/
def dict1009 : List DictRow := [
  ⟨0x00, 1, .str, .const, 0, .any, .now, false, false⟩] -- Hardware version

/-- 100Ah (19_object_dictionary.md R411). -/
def dict100A : List DictRow := [
  ⟨0x00, 1, .str, .ro, 0, .any, .now, false, false⟩] -- Software version

/-- 1010h (19_object_dictionary.md R411). -/
def dict1010 : List DictRow := [
  ⟨0x01, 3, .u32, .rw, 1, .any, .now, false, false⟩] -- Store

/-- 1011h (19_object_dictionary.md R411). -/
def dict1011 : List DictRow := [
  ⟨0x01, 3, .u32, .rw, 1, .any, .now, false, false⟩] -- Restore

/-- 1012h (19_object_dictionary.md R411). -/
def dict1012 : List DictRow := [
  ⟨0x00, 1, .u32, .rw, 256, .any, .now, true, false⟩] -- COB-ID TIME

/-- 1014h (19_object_dictionary.md R411). -/
def dict1014 : List DictRow := [
  ⟨0x00, 1, .u32, .ro, 129, .any, .now, false, false⟩] -- COB-ID EMCY

/-- 1015h (19_object_dictionary.md R411). -/
def dict1015 : List DictRow := [
  ⟨0x00, 1, .u16, .rw, 0, .any, .now, true, false⟩] -- EMCY inhibit time

/-- 1016h (19_object_dictionary.md R411). -/
def dict1016 : List DictRow := [
  ⟨0x01, 127, .u32, .ro, 0, .any, .now, false, false⟩] -- Consumer heartbeat, sub = node-ID

/-- 1017h (19_object_dictionary.md R411). -/
def dict1017 : List DictRow := [
  ⟨0x00, 1, .u16, .rw, 100, .between (10) 10000, .now, true, false⟩] -- Producer heartbeat time

/-- 1018h (19_object_dictionary.md R411). -/
def dict1018 : List DictRow := [
  ⟨0x01, 1, .u32, .const, 1475, .any, .now, false, false⟩, -- Vendor ID
  ⟨0x02, 1, .u32, .const, 28968, .any, .now, false, false⟩, -- Product code
  ⟨0x03, 1, .u32, .const, 0, .any, .now, false, false⟩, -- Revision
  ⟨0x04, 1, .u32, .const, 0, .any, .now, false, false⟩] -- Serial number

/-- 1019h (19_object_dictionary.md R411). -/
def dict1019 : List DictRow := [
  ⟨0x00, 1, .u8, .rw, 0, .zeroOr 2 240, .now, true, false⟩] -- SYNC counter overflow

/-- 2000h (19_object_dictionary.md R414). -/
def dict2000 : List DictRow := [
  ⟨0x01, 1, .str, .const, 0, .any, .now, false, false⟩, -- Part name
  ⟨0x02, 1, .u64, .const, 0, .any, .now, false, false⟩, -- Unique ID
  ⟨0x03, 1, .u16, .const, 0, .any, .now, false, false⟩] -- Stepping and build

/-- 2001h (19_object_dictionary.md R414). -/
def dict2001 : List DictRow := [
  ⟨0x01, 1, .u8, .ro, 0, .any, .now, false, false⟩, -- Dawn step
  ⟨0x02, 1, .bool, .ro, 0, .between 0 1, .now, false, true⟩, -- Ready
  ⟨0x03, 1, .u32, .ro, 0, .any, .now, false, true⟩] -- Engine summary

/-- 2002h (19_object_dictionary.md R414). -/
def dict2002 : List DictRow := [
  ⟨0x01, 1, .u32, .rw, 0, .any, .now, true, false⟩] -- Latency tolerance

/-- 2003h (19_object_dictionary.md R414). -/
def dict2003 : List DictRow := [
  ⟨0x01, 1, .u8, .ro, 0, .any, .now, false, false⟩, -- Store state
  ⟨0x02, 1, .u32, .ro, 0, .any, .now, false, false⟩, -- Store sequence
  ⟨0x03, 1, .u8, .ro, 0, .any, .now, false, false⟩, -- Current copy
  ⟨0x04, 1, .u16, .ro, 0, .any, .now, false, true⟩, -- Records rejected
  ⟨0x05, 1, .dom 0, .ro, 0, .any, .now, false, false⟩, -- Rejected entries
  ⟨0x06, 1, .u32, .ro, 0, .any, .now, false, false⟩, -- Stores completed
  ⟨0x07, 1, .u16, .ro, 0, .any, .now, false, false⟩, -- Store failures
  ⟨0x08, 1, .u32, .ro, 0, .any, .now, false, false⟩, -- Mailbox requests
  ⟨0x09, 1, .u32, .ro, 0, .any, .now, false, false⟩] -- USDO requests

/-- 1400h and 1800h PDO communication records (19_object_dictionary.md R412): COB-ID, transmission type, inhibit time,
event timer. -/
def dictPdoComm : List DictRow := [
  ⟨0x01, 1, .u32, .rw, 0x80000000, .any, .now, true, false⟩,
  ⟨0x02, 1, .u8, .rw, 254, .any, .now, true, false⟩,
  ⟨0x03, 1, .u16, .rw, 0, .any, .now, true, false⟩,
  ⟨0x05, 1, .u16, .rw, 0, .any, .now, true, false⟩]

/-- 1600h and 1A00h PDO mapping records (19_object_dictionary.md R412): number of mapped objects, then the objects. -/
def dictPdoMap : List DictRow := [
  ⟨0x00, 1, .u8, .rw, 0, .between 0 64, .now, true, false⟩,
  ⟨0x01, 64, .u32, .rw, 0, .any, .now, true, false⟩]

/-- Groups of indexes, part 1. -/
def dictGroups1 : List DictGroup := [
  ⟨0x4400, 4, 1, dict4400⟩,
  ⟨0x2200, 1, 1, dict2200⟩,
  ⟨0x2201, 1, 1, dict2201⟩,
  ⟨0x2202, 1, 1, dict2202⟩,
  ⟨0x2203, 1, 1, dict2203⟩,
  ⟨0x2210, 8, 1, dict2210⟩,
  ⟨0x2300, 256, 1, dict2300⟩,
  ⟨0x2470, 1, 1, dict2470⟩,
  ⟨0x2471, 1, 1, dict2471⟩,
  ⟨0x2472, 1, 1, dict2472⟩,
  ⟨0x2400, 1, 1, dict2400⟩,
  ⟨0x2410, 8, 1, dict2410⟩,
  ⟨0x2420, 8, 1, dict2420⟩,
  ⟨0x2430, 1, 1, dict2430⟩,
  ⟨0x2450, 1, 1, dict2450⟩,
  ⟨0x2500, 1, 1, dict2500⟩,
  ⟨0x2510, 16, 1, dict2510⟩,
  ⟨0x2520, 1, 1, dict2520⟩,
  ⟨0x2521, 1, 1, dict2521⟩,
  ⟨0x2522, 1, 1, dict2522⟩,
  ⟨0x2530, 8, 1, dict2530⟩,
  ⟨0x2600, 1, 1, dict2600⟩,
  ⟨0x2601, 1, 1, dict2601⟩,
  ⟨0x2602, 1, 1, dict2602⟩]

/-- Groups of indexes, part 2. -/
def dictGroups2 : List DictGroup := [
  ⟨0x2700, 1, 1, dict2700⟩,
  ⟨0x2701, 1, 1, dict2701⟩,
  ⟨0x2702, 1, 1, dict2702⟩,
  ⟨0x2440, 8, 1, dict2440⟩,
  ⟨0x2780, 128, 1, dict2780⟩,
  ⟨0x2100, 128, 1, dict2100⟩,
  ⟨0x2703, 1, 1, dict2703⟩,
  ⟨0x2704, 1, 1, dict2704⟩,
  ⟨0x2180, 8, 1, dict2180⟩,
  ⟨0x3420, 1, 1, dict3420⟩,
  ⟨0x3440, 1, 1, dict3440⟩,
  ⟨0x3460, 1, 1, dict3460⟩,
  ⟨0x3000, 8, 16, dict3000⟩,
  ⟨0x3001, 8, 16, dict3001⟩,
  ⟨0x3005, 1, 1, dict3005⟩,
  ⟨0x3002, 8, 16, dict3002⟩,
  ⟨0x3003, 8, 16, dict3003⟩,
  ⟨0x3004, 8, 16, dict3004⟩,
  ⟨0x300F, 4, 16, dict300F⟩,
  ⟨0x307F, 1, 1, dict307F⟩,
  ⟨0x3100, 192, 1, dict3100⟩,
  ⟨0x3200, 4, 1, dict3200⟩,
  ⟨0x3210, 4, 1, dict3210⟩,
  ⟨0x3401, 1, 1, dict3401⟩]

/-- Groups of indexes, part 3. -/
def dictGroups3 : List DictGroup := [
  ⟨0x3402, 1, 1, dict3402⟩,
  ⟨0x3403, 1, 1, dict3403⟩,
  ⟨0x3404, 1, 1, dict3404⟩,
  ⟨0x3405, 1, 1, dict3405⟩,
  ⟨0x3406, 1, 1, dict3406⟩,
  ⟨0x3407, 1, 1, dict3407⟩,
  ⟨0x3408, 1, 1, dict3408⟩,
  ⟨0x3409, 1, 1, dict3409⟩,
  ⟨0x4000, 1, 1, dict4000⟩,
  ⟨0x4001, 1, 1, dict4001⟩,
  ⟨0x4002, 1, 1, dict4002⟩,
  ⟨0x4010, 4, 1, dict4010⟩,
  ⟨0x4020, 1, 1, dict4020⟩,
  ⟨0x4030, 8, 1, dict4030⟩,
  ⟨0x4100, 1, 1, dict4100⟩,
  ⟨0x4101, 1, 1, dict4101⟩,
  ⟨0x4110, 1, 1, dict4110⟩,
  ⟨0x4120, 8, 1, dict4120⟩,
  ⟨0x4280, 1, 1, dict4280⟩,
  ⟨0x4281, 3, 1, dict4281⟩,
  ⟨0x4200, 1, 1, dict4200⟩,
  ⟨0x4201, 1, 1, dict4201⟩,
  ⟨0x4202, 1, 1, dict4202⟩,
  ⟨0x4210, 1, 1, dict4210⟩]

/-- Groups of indexes, part 4. -/
def dictGroups4 : List DictGroup := [
  ⟨0x4211, 1, 1, dict4211⟩,
  ⟨0x4220, 1, 1, dict4220⟩,
  ⟨0x4300, 1, 1, dict4300⟩,
  ⟨0x4301, 1, 1, dict4301⟩,
  ⟨0x4302, 1, 1, dict4302⟩,
  ⟨0x4310, 1, 1, dict4310⟩,
  ⟨0x4320, 1, 1, dict4320⟩,
  ⟨0x5000, 1, 1, dict5000⟩,
  ⟨0x5001, 127, 1, dict5001⟩,
  ⟨0x1000, 1, 1, dict1000⟩,
  ⟨0x1001, 1, 1, dict1001⟩,
  ⟨0x1003, 1, 1, dict1003⟩,
  ⟨0x1005, 1, 1, dict1005⟩,
  ⟨0x1006, 1, 1, dict1006⟩,
  ⟨0x1008, 1, 1, dict1008⟩,
  ⟨0x1009, 1, 1, dict1009⟩,
  ⟨0x100A, 1, 1, dict100A⟩,
  ⟨0x1010, 1, 1, dict1010⟩,
  ⟨0x1011, 1, 1, dict1011⟩,
  ⟨0x1012, 1, 1, dict1012⟩,
  ⟨0x1014, 1, 1, dict1014⟩,
  ⟨0x1015, 1, 1, dict1015⟩,
  ⟨0x1016, 1, 1, dict1016⟩,
  ⟨0x1017, 1, 1, dict1017⟩]

/-- Groups of indexes, part 5. -/
def dictGroups5 : List DictGroup := [
  ⟨0x1018, 1, 1, dict1018⟩,
  ⟨0x1019, 1, 1, dict1019⟩,
  ⟨0x2000, 1, 1, dict2000⟩,
  ⟨0x2001, 1, 1, dict2001⟩,
  ⟨0x2002, 1, 1, dict2002⟩,
  ⟨0x2003, 1, 1, dict2003⟩,
  ⟨0x1400, 16, 1, dictPdoComm⟩,
  ⟨0x1800, 16, 1, dictPdoComm⟩,
  ⟨0x1600, 16, 1, dictPdoMap⟩,
  ⟨0x1A00, 16, 1, dictPdoMap⟩]

/-- Every index of the dictionary (R395). -/
def dictGroups : List DictGroup := dictGroups1 ++ dictGroups2 ++ dictGroups3 ++ dictGroups4 ++ dictGroups5

/-- The rows of an index, if the index exists. -/
def rowsIn (idx : Nat) : List DictGroup → Option (List DictRow)
  | [] => none
  | g :: r =>
    if g.base ≤ idx ∧ idx < g.base + g.count * g.stride ∧ (idx - g.base) % g.stride = 0 then some g.rows else rowsIn idx r

/-- The row among `rs` that holds subindex `sub`. -/
def rowAt (sub : Nat) : List DictRow → Option DictRow
  | [] => none
  | d :: r => if d.sub ≤ sub ∧ sub < d.sub + d.n then some d else rowAt sub r

/-- Whether an index exists (R399 step 1). -/
def indexExists (idx : Nat) : Bool := (rowsIn idx dictGroups).isSome

/-- The highest subindex of a list of rows. -/
def highestSub (rs : List DictRow) : Nat := rs.foldl (fun m d => max m (d.sub + d.n - 1)) 0

/-- The row of an entry, subindex 00h of a record included (R396). -/
def dictRow (idx sub : Nat) : Option DictRow :=
  match rowsIn idx dictGroups with
  | none => none
  | some rs =>
    match rowAt sub rs with
    | some d => some d
    | none => if sub = 0 then some ⟨0, 1, .u8, .ro, highestSub rs, .any, .now, false, false⟩ else none

/-- The key of an entry: index and subindex as one number, so 2200h:02h is 0x220002. -/
def ekey (idx sub : Nat) : Nat := idx * 256 + sub

/-- Defaults that differ from unit to unit of one row (R228, R247, R265, R291, R329). -/
def unitDefault (k : Nat) : Option Nat :=
  if k = 0x300001 then some 1 else if k = 0x301001 then some 2
  else if k = 0x300007 then some 1 else if k = 0x301007 then some 2
  else if k = 0x400203 then some 4 else if k = 0x400204 then some 2 else if k = 0x400202 then some 8
  else if 0x310000 ≤ k ∧ k < 0x318000 ∧ (k % 256 = 3 ∨ k % 256 = 4) then some 8
  else if 0x310000 ≤ k ∧ k < 0x318000 ∧ (k % 256 = 5 ∨ k % 256 = 6) then some 0
  else if 0x318000 ≤ k ∧ k < 0x31C000 ∧ k % 256 = 8 then some ((k / 256 - 0x3180) % 64)
  else if k = 0x42810A then some 4 else if k = 0x42810B then some 3 else if k = 0x42810C then some 3
  else if k = 0x42820A then some 6 else if k = 0x42820B then some 8 else if k = 0x42820C then some 48
  else if k = 0x42830A then some 60 else if k = 0x42830B then some 1 else if k = 0x42830C then some 1
  else if k = 0x428110 ∨ k = 0x428111 ∨ k = 0x428112 ∨ k = 0x428210 ∨ k = 0x428211 ∨ k = 0x428310 then some 1
  else if k = 0x101802 then some 0x7128 else if k = 0x101801 then some 0x5C3
  else none

/-- The default of an entry (R13): its row's default, or the unit's own. -/
def dictDefault (k : Nat) : Nat :=
  match unitDefault k with
  | some v => v
  | none =>
    match dictRow (k / 256) (k % 256) with
    | some d => d.dflt
    | none => 0

/-- The size in bytes of a numeric type (R397); 0 for strings and DOMAINs. -/
def DictType.bytes : DictType → Nat
  | .bool => 1 | .u8 => 1 | .u16 => 2 | .u32 => 4 | .u64 => 8 | .i16 => 2 | .i32 => 4 | .str => 0 | .dom _ => 0

/-- Whether a type is held as a number. -/
def DictType.numeric (t : DictType) : Bool := t.bytes != 0

/-- The number a value of a type stands for (R397). -/
def DictType.value (t : DictType) (v : Nat) : Int :=
  match t with
  | .i16 => signed 16 v
  | .i32 => signed 32 v
  | _ => v

/-- Whether `v` is a power of two. -/
def isPow2 (v : Nat) : Bool := v != 0 && (v &&& (v - 1)) == 0

/-- R399 step 7, the Range/unit column. -/
def Range.ok (r : Range) (t : DictType) (v : Nat) : Bool :=
  match r with
  | .any => t != .bool || v ≤ 1
  | .between lo hi => decide (lo ≤ t.value v ∧ t.value v ≤ hi)
  | .oneOf vs => vs.contains v
  | .pow2 lo hi => decide (lo ≤ v ∧ v ≤ hi) && isPow2 v
  | .zeroOr lo hi => v == 0 || decide (lo ≤ v ∧ v ≤ hi)
  | .even hi => decide (v ≤ hi) && v % 2 == 0
  | .mult m lo hi => decide (lo ≤ v ∧ v ≤ hi) && v % m == 0
  | .aligned => v % 4096 == 0

end Sys2Proof.Machine
end

