-- ==== Sys2Proof/Machine/State.lean ====
section
/-! DEFINITION. State: every register, buffer, counter, mode and pin of the WE7128, as plain data, and the queue of commands
that wait. Dictionary entries are registers under their own number; everything else has a field. A store indexed by unit
holds only the units that differ from their reset content (Cells.lean). -/

namespace Sys2Proof.Machine

/-- No command of the spec ends the machine: fault messages, abort codes and error flags are effects on the state. Nothing
raises the constructor; it stands for what a step of this block never answers (safe: it is never used). -/
inductive Fault where
  | none
  deriving DecidableEq, Repr

/-- `notModelled` is raised by an arm of Dispatch.lean whose command has no meaning yet (safe). -/
inductive Refusal where
  | notModelled (mnemonic : String)
  deriving DecidableEq, Repr

/-- What the engine sends out. Frames carry their bytes; a pulse or a pin level its unit. -/
inductive Output where
  | msix (vector : Nat)
  | hostWrite (addr : Nat) (data : List Byte)
  | hostRead (addr len : Nat)
  | dramRead (addr len : Nat)
  | line (h : Nat) (frame : List Byte)
  | command (h : Nat) (frame : List Byte)
  | strobe (h : Nat) (high : Bool)
  | axisFrame (a : Nat) (frame : List Byte)
  | can (port id : Nat) (data : List Byte)
  | bar2 (status : Nat) (data : List Byte)
  | debug (data : List Byte)
  | pin (name : Nat) (level : Bool)
  deriving DecidableEq, Repr

/-- What the engine is doing as a whole: power-on reset held (R349); Dawn, from step 1 on (R377); running; held in reset
with a FAULT_L pattern (R377, R378); waiting on the debug port (R371, R376); thermal shutdown (R358). -/
inductive EngineMode where
  | powerOnReset
  | dawn
  | running
  | held (pattern : Nat)
  | debugWait
  | shutdown
  deriving DecidableEq, Repr

/-- The states of a DMA channel (R66), in the order of STATE. -/
inductive DmaState where
  | idle | running | atEnd | stopping | stopped | error
  deriving DecidableEq, Repr

/-- A descriptor (R62). -/
structure Desc where
  src : Nat := 0
  dst : Nat := 0
  count : Nat := 0
  ctrl : Nat := 0
  next : Nat := 0
  deriving DecidableEq, Repr

/-- A DMA channel (R61, R66). `exec`: the descriptor in execution; `fetching`: the address of a descriptor read in flight;
`rereading`: a doorbell re-read is in flight; `bounded`: the channel stands at a descriptor boundary. -/
structure Dma where
  chain : Bool := false
  irqEn : Bool := false
  st : DmaState := .idle
  dbPending : Bool := false
  waiting : Bool := false
  done : Bool := false
  atEndEvt : Bool := false
  stoppedEvt : Bool := false
  errorEvt : Bool := false
  errCode : Nat := 0
  startIgnored : Bool := false
  src : Nat := 0
  dst : Nat := 0
  count : Nat := 0
  mode : Nat := 0
  desc : Nat := 0
  cur : Nat := 0
  doneCount : Nat := 0
  surplus : Nat := 0
  errAddr : Nat := 0
  remain : Nat := 0
  direct : Bool := false
  exec : Option Desc := none
  fetching : Option Nat := none
  rereading : Bool := false
  deriving DecidableEq, Repr

/-- The dictionary mailbox (R402): its registers, the request taken at GO, an open write transfer and an open snapshot. -/
structure Mailbox where
  irqEn : Bool := false
  busy : Bool := false
  done : Bool := false
  goIgnored : Bool := false
  op : Nat := 0
  sub : Nat := 0
  index : Nat := 0
  offset : Nat := 0
  length : Nat := 0
  more : Bool := false
  result : Nat := 0
  respLength : Nat := 0
  respMore : Bool := false
  total : Nat := 0
  seq : Nat := 0
  data : List (Nat × Byte) := []
  taken : Option (Nat × Nat × Nat × Nat × Nat × Bool) := none
  takenData : List Byte := []
  wrOpen : Option (Nat × Nat) := none
  wrBytes : List Byte := []
  snapOpen : Option (Nat × Nat) := none
  snap : List Byte := []
  deriving DecidableEq, Repr

/-- The PCI Express side (R57-R78): event ring registers, phase and SEQ, MSI-X table and PBA, link and power state. -/
structure HostIf where
  dma : List (Nat × Dma) := []
  bar2Err : Nat := 0
  linkSpeed : Nat := 0
  linkWidth : Nat := 0
  inL1 : Bool := false
  aspmL1 : Bool := false
  d3hot : Bool := false
  stepping : Nat := 0
  build : Nat := 0
  ringBase : Nat := 0
  ringSize : Nat := 8
  ringEnable : Bool := false
  holdoff : Nat := 10
  wr : Nat := 0
  rd : Nat := 0
  dropped : Nat := 0
  phase : Bool := true
  ringSeq : Nat := 0
  holdoffOn : Bool := false
  unsignalled : Bool := false
  lostSince : Nat := 0
  msix : List (Nat × Nat) := []
  pba : List (Nat × Bool) := []
  mb : Mailbox := {}
  deriving DecidableEq, Repr

/-- An entry of the fault log (R320), with the time of its acknowledgement and the REPEAT its last record carried. -/
structure LogEntry where
  seq : Nat := 0
  src : Nat := 0
  kind : Nat := 0
  cls : Nat := 0
  orig : Nat := 0
  detail : Nat := 0
  time : Nat := 0
  repeats : Nat := 0
  shadowed : Nat := 0
  acked : Bool := false
  escalated : Bool := false
  autoAcked : Bool := false
  incident : Nat := 0
  ackTime : Nat := 0
  recorded : Nat := 0
  lossSlot : Bool := false
  lost : Bool := false
  deriving DecidableEq, Repr

/-- An open incident (R314). -/
structure Incident where
  seq : Nat := 0
  src : Nat := 0
  orig : Nat := 0
  cls : Nat := 0
  deriving DecidableEq, Repr

/-- The dependency sets of the shadow windows (R317). -/
inductive WinKind where
  | head (h : Nat)
  | stop
  | halt
  | pll
  | channel
  | migration (ch rank : Nat)
  | partition (p : Nat)
  | stage4
  deriving DecidableEq, Repr

/-- An open shadow window (R317). `ended`: its end condition has come, and only its extension runs. -/
structure Window where
  id : Nat := 0
  kind : WinKind
  cls : Nat := 0
  seq : Nat := 0
  ended : Bool := false
  deriving DecidableEq, Repr

/-- The fault collector (R313-R324). `blankTransit`: the BLANK of a Stop or Halt lasts to the end of the transit in force;
`stopHold`: hold cause 1 is due at the next boundary; `reactions`: Stop, Halt and abort reactions so far (R177); the fields
from `counting` on accumulate the panel fault record (R324). -/
structure Collector where
  log : List LogEntry := []
  nextSeq : Nat := 1
  incidents : List Incident := []
  windows : List Window := []
  nextWindow : Nat := 0
  blankTransit : Bool := false
  stopHold : Bool := false
  faultLPin : Bool := true
  minimumOn : Bool := false
  clearPending : Bool := false
  emcyActive : Bool := false
  reactions : Nat := 0
  counting : Bool := false
  panelCls : List (Nat × Nat) := []
  panelEsc : Nat := 0
  panelShadow : Nat := 0
  panelMsg : Nat := 0
  panelMsgSeq : Nat := 0
  panelFirst : Nat := 0
  panelLast : Nat := 0
  deriving DecidableEq, Repr

/-! Jobs, panels and transits (R31-R56, R134, R158-R160) -/

/-- The printing transit or return sweep in progress (R32-R38, R158). `line`: the next line whose tick is due; `composed`
and `sent`: the next compose line and the next frame line; `firstSeq`: the port line number of line 0; `gated`: the axis-1
gate failed; `stopped`: cut by a Halt or stage 4; `miss`: the compose line from which a clock bypass blanks the rest, and
`noFrames`: PLL-B bypass does (R179). -/
structure Flight where
  t : Nat := 0
  index : Nat := 0
  reverse : Bool := false
  ret : Bool := false
  origin : Int := 0
  line : Nat := 0
  composed : Nat := 0
  gatePassed : Bool := false
  gated : Bool := false
  stopped : Bool := false
  miss : Option Nat := none
  noFrames : Bool := false
  aborted : Bool := false
  nominal : Nat := 0
  deriving DecidableEq, Repr

/-- A media row of a bank with a counted lost pixel (R156): the transit in which the first one was lost, the record's cause,
the lowest column lost with that cause and the head that was to fire it. -/
structure LostRow where
  b : Nat := 0
  y : Nat := 0
  t : Nat := 0
  cause : Nat := 0
  x : Nat := 0
  h : Nat := 0
  deriving DecidableEq, Repr

/-- A row record of a panel report (R55): first row, row count, cause, head (255: none). -/
structure RowRecord where
  first : Nat := 0
  rows : Nat := 0
  cause : Nat := 0
  head : Nat := 255
  deriving DecidableEq, Repr

/-- Job, panel and transit control. `nextT`: the job transit number of the next printing transit (R134), `firstT` that of the
panel's first; `launched`: the printing transits of the panel already launched; `returning`: the next sweep is a return sweep
(R36); `endAfter`: command 4; `panelOpen`: a panel's report is not closed; `cut`: a Halt or stage 4 cut it; `due`: a boundary
has begun whose steps 1 to 5 are still to do (R46), with staged writes `armed` and a switch due (`switchDue`) before it began;
`t0`: the first start time in REF cycles; `lastStart`, `lastEnd`, `lastCadence`: of the last transit and panel (R46, R50);
`panels`: panels committed by the job; `holder`: a partition whose switch holds the boundary (R27); `peerHold`: profiles that hold the job (R392); from `linesBlanked` on: the
open panel's report (R54), lost and degraded rows, keys of rows already reported (R156), cadence breaks, pixels screened with
their time (R40), and the geometry fixed for the job (R122). -/
structure Panels where
  flight : Option Flight := none
  nextT : Nat := 0
  firstT : Nat := 0
  launched : Nat := 0
  returning : Bool := false
  endAfter : Bool := false
  panelOpen : Bool := false
  cut : Bool := false
  t0 : Nat := 0
  lastStart : Nat := 0
  lastCadence : Nat := 0
  lastEnd : Option Nat := none
  panels : Nat := 0
  holder : Option Nat := none
  y0Axis1 : Int := 0
  linesBlanked : Nat := 0
  dotsBlanked : Nat := 0
  deadlines : Nat := 0
  lostRows : List LostRow := []
  degradedRows : List (Nat × Nat) := []
  reported : List (Nat × Bool) := []
  screenedAt : List (Nat × Nat) := []
  due : Bool := false
  armed : Bool := false
  switchDue : Option Nat := none
  breaks : List (Nat × Nat) := []
  firstRow : Nat := 0
  peerHold : List Nat := []
  resW : Nat := 0
  resNbx : Nat := 0
  resH : Nat := 32768
  resB : Nat := 0
  resNbr : Nat := 0
  resP : Nat := 4
  resDpi : Nat := 1200
  bidir : Bool := true
  banks : Nat := 0
  storeBase : Nat := 0
  tagBase : Nat := 0
  countBase : Nat := 0
  overlap : Nat := 0
  deriving DecidableEq, Repr

/-! Stream contexts, codecs, screening and the store (R71-R131) -/

/-- A complete or failing block in a ring: stream offset of its first header byte, and its length with the header. -/
structure RingBlock where
  off : Nat := 0
  len : Nat := 0
  deriving DecidableEq, Repr

/-- A stream context (R71-R74, R80, R110, R126). Offsets count bytes from the first byte of the coded stream. `wpos`: the
next byte intake writes; `rpos`: the first byte not yet decoded; `hpos`: the header of the block arriving; `blocks`: complete
blocks waiting; `hist`: history, newest byte first; `produced`: bytes since the last history reset; `checked`: decoded bytes
from the start of row `row` on, not yet screened; `skipPad`: padding bytes of the previous row still to arrive; `group`: the
rows of the open four-row group, as levels; `lane`: the lane of the engine that last took a block; `heldSince`: the lane
waits for a release (R129) since then; `retired`: the context has stopped contributing to its blocks (R127); `merging`: the open
group found no combiner space (R126). -/
structure Ctx where
  wpos : Nat := 0
  rpos : Nat := 0
  hpos : Nat := 0
  blocks : List RingBlock := []
  lastEnd : Option Nat := none
  lastPassed : Bool := false
  hist : List Byte := []
  produced : Nat := 0
  checked : List Byte := []
  skipPad : Nat := 0
  row : Nat := 0
  group : List (Nat × List Nat) := []
  lane : Nat := 0
  heldSince : Option Nat := none
  retired : Bool := false
  merging : Bool := false
  deriving DecidableEq, Repr

/-- A decode engine (R73, R89, R91): the context and block it decodes; the cycle a stall on a full buffer began. -/
structure DecEng where
  ctx : Nat := 0
  block : RingBlock := {}
  stalled : Option Nat := none
  deriving DecidableEq, Repr

/-- A proof unit (R104): one stream's rows of one transit. -/
structure ProofUnit where
  stream : Nat := 0
  bank : Nat := 0
  col : Nat := 0
  width : Nat := 0
  row : Nat := 0
  rows : Nat := 0
  last : Bool := false
  deriving DecidableEq, Repr

/-- The proof encoder (R104-R108). `off`: raw bytes of the first unit already packed; `hist`: the unit's raw bytes since the
last history reset; `ended`: a latched end command (FLUSH or not). -/
structure Proof where
  units : List ProofUnit := []
  off : Nat := 0
  start : Nat := 0
  ended : Option Bool := none
  panelLast : Bool := false
  deriving DecidableEq, Repr

/-- The screening tables of a bank (R115-R120). -/
structure Tables where
  curve : List (Nat × Nat) := []
  thr : List (Nat × Nat) := []
  ox : Nat := 0
  oy : Nat := 0
  check : Nat := 3990826448
  deriving DecidableEq, Repr

/-- A bank's screening state: the tables in force, the previous ones while a changeover is pending, the staged array, and
one above the highest row screened or being screened. -/
structure BankScr where
  cur : Tables := {}
  prev : Tables := {}
  stagedThr : Option (List (Nat × Nat) × Nat) := none
  top : Nat := 0
  deriving DecidableEq, Repr

/-- A frontier interval (R113): first column, width, next media row. -/
structure Span where
  x : Nat := 0
  n : Nat := 0
  row : Nat := 0
  deriving DecidableEq, Repr

/-- The supply-paced half. `encodeQ`: blocks (bank, column, row, lane) whose pixels are complete; `bad`: slots whose pixels
met poison; `served`: the context last served by decode. -/
structure Supply where
  ctxs : List (Nat × Ctx) := []
  engines : List (Nat × Option DecEng) := []
  served : Nat := 255
  proof : Proof := {}
  scr : List (Nat × BankScr) := []
  frontier : List (Nat × List Span) := []
  encodeQ : List (Nat × Nat × Nat × Nat) := []
  bad : List (Nat × Bool) := []
  firstBoundary : Bool := false
  deriving DecidableEq, Repr

/-! Masks, Catalogue, plans and deficits (R132-R157) -/

/-- The mask selection of a row (R138): mask, offsets. -/
structure MaskSel where
  m : Nat := 0
  ox : Nat := 0
  oy : Nat := 0
  deriving DecidableEq, Repr

/-- Where the lines of a transit lie (R158, R168): direction, W, Pmax, peff by 2h + row, tt by 32h + slice. -/
structure FineGeo where
  reverse : Bool := false
  w : Nat := 0
  pmax : Nat := 0
  peff : List (Nat × Int) := []
  tts : List (Nat × Nat) := []
  deriving DecidableEq, Repr

/-- A row plan (R144): per pass the element of e-number that serves it, or none. -/
structure RowPlan where
  sel : MaskSel := {}
  pass : List (Option Nat) := []
  poisoned : Bool := false
  deriving DecidableEq, Repr

/-- A deficit record (R151, R174): transit, head, element range, frame-line range, cause; `cols`: the range is of columns. -/
structure Deficit where
  t : Nat := 0
  h : Nat := 0
  n0 : Nat := 0
  n1 : Nat := 2047
  first : Nat := 0
  last : Nat := 0
  cols : Bool := false
  cause : Nat := 0
  deriving DecidableEq, Repr

/-- Masks, Catalogue copies, row plans (key: media row × 8 + bank) and deficit tables. `dirty`: entries written
to the staging copy since the last copy; `poisonW`, `poisonS`: poisoned entries of the working and staging copy. -/
structure Imaging where
  masks : List (Nat × Nat) := []
  staging : List (Nat × Nat) := []
  working : List (Nat × Nat) := []
  dirty : List (Nat × Bool) := []
  poisonW : List (Nat × Bool) := []
  poisonS : List (Nat × Bool) := []
  plans : List (Nat × RowPlan) := []
  deficits : List (Nat × List Deficit) := []
  geos : List (Nat × FineGeo) := []
  poisonM : List (Nat × Bool) := []
  poisonD : List (Nat × Bool) := []
  poisonB : List (Nat × Bool) := []
  deadBank : List (Nat × Nat) := []
  deriving DecidableEq, Repr

/-! Compose and firing (R158-R181) -/

/-- A slice-line in the fine line buffers (R169): its 64 codes, stored check word, and the causes that failed it
(`cause4`: 0 none, 1 fetch deadline, 2 compose deadline; `twin`: the twin's check word differed). -/
structure SliceLine where
  line : Nat := 0
  codes : List Nat := []
  check : Nat := 0
  cause3 : Bool := false
  cause4 : Nat := 0
  twin : Bool := false
  deriving DecidableEq, Repr

/-- A block in the fetch buffer (R163): its levels, or why it is not usable yet. -/
inductive Fetched where
  | requested
  | unwritten
  | refused
  | busError
  | accepted (levels : List Nat)
  deriving DecidableEq, Repr

/-- The line path: interpolator (R160; `pos`: the last filtered count; `delta`: the interval of the last two counts, and
`sinceTick`: from the last tick to the last count, in FIRE cycles), fetch buffer (key: slot), the line whose fetch deadline
was evaluated, failed slice-lines of that line (key h×32+s) with their cause, the compose line in progress, fine line buffers
(key (h×32+s)×64 + m mod 64), drive maps (key b×256+i) of main and twin. -/
structure LinePath where
  pos : Int := 0
  delta : Nat := 0
  sinceTick : Int := 0
  fetch : List (Nat × Fetched) := []
  cutFor : Option Nat := none
  fails : List (Nat × Nat) := []
  started : Option Nat := none
  lines : List (Nat × SliceLine) := []
  maps : List (Nat × Nat) := []
  twins : List (Nat × Nat) := []
  deriving DecidableEq, Repr

/-! Heads (R182-R227) -/

/-- A command to a head (R195): type, address, length, data. -/
structure HeadCmd where
  ty : Nat := 0x13
  addr : Nat := 0
  len : Nat := 0
  data : List Byte := []
  host : Bool := false
  deriving DecidableEq, Repr

/-- A frame whose echo is awaited (R194): line sequence and the CRC sent; `blank`: it was a BLANK frame; `line`: its line of
transit `t`, or of a drop-watch run. -/
structure Echo where
  t : Option Nat := none
  seq : Nat := 0
  crc : Nat := 0
  blank : Bool := false
  fired : Bool := false
  line : Nat := 0
  codes : List Nat := []
  deriving DecidableEq, Repr

/-- A head and its port. `portLine`: lines on the port before line 0 of the transit or run (R171); `frame`: the next frame
line; `serving`: in service at the launch check; `drainReq`, `drainCancel`: commands taken at the next launch check (R148);
`cut`: the line whose frame was cut; `blankSeen`: reactions that had happened when the head last received a BLANK frame
(R177); `wdHold`: the strobe watchdog holds the strobe low (R178); `coolSince`: below the soft limit since (R212);
`waiting`: the command outstanding, its retries and the time it was sent; `identLeft`: READs of an identity read still to
answer, with the bytes read; `verdicts`: previous verdicts by element; `means`: factory mean codes by segment; `todo`:
elements still to measure in the sweep, which is `counted` if the head joined it after its identity read; `missing`: the run
found a missing drop; `early`: the run began before the identity read passed; `suspended`: one more than the receiver state
before PLL-B was lost (R185), or 0. -/
structure Head where
  portLine : Nat := 0
  frame : Nat := 0
  serving : Bool := false
  drainReq : Bool := false
  drainCancel : Bool := false
  echoes : List Echo := []
  cut : Option Nat := none
  blankSeen : Nat := 0
  strobeHigh : Bool := false
  wdHold : Bool := false
  tempValid : Bool := false
  tempAt : Nat := 0
  stale : Bool := false
  soft : Bool := false
  coolSince : Option Nat := none
  meas : Bool := false
  idleWarm : Bool := false
  queue : List HeadCmd := []
  waiting : Option (HeadCmd × Nat × Nat) := none
  tag : Nat := 0
  identLeft : Nat := 0
  identData : List (Nat × Byte) := []
  verdicts : List (Nat × Nat) := []
  means : List (Nat × Nat) := []
  inSweep : Bool := false
  todo : List Nat := []
  missing : Bool := false
  early : Bool := false
  counted : Bool := false
  suspended : Nat := 0
  deriving DecidableEq, Repr

/-- The resistance sweep and the drop-watch run (R213-R219), and the fire counters (R222). -/
structure Care where
  heads : List (Nat × Head) := []
  fires : List (Nat × Nat) := []
  poisonF : List (Nat × Bool) := []
  sweep : Bool := false
  window : Bool := false
  watch : Bool := false
  watchLine : Nat := 0
  watchHeads : List Nat := []
  openWins : List Nat := []
  arrivals : List (Nat × Nat) := []
  verdictList : List Nat := []
  watchList : List Nat := []
  deriving DecidableEq, Repr

/-! Motion (R228-R247) -/

/-- The segments of a move (R236, R238). -/
inductive SegKind where
  | up | cruise | down | stop | position
  deriving DecidableEq, Repr

/-- A segment of a planned motion with the values it started with (R236): from `x0` at `v0` to `x1` at `v1` in `len` servo
periods, `k` of them done; a part at constant speed runs on until the ramp down is due. -/
structure Seg where
  kind : SegKind := .cruise
  x0 : Int := 0
  x1 : Int := 0
  v0 : Int := 0
  v1 : Int := 0
  a : Nat := 0
  j : Nat := 0
  len : Nat := 0
  k : Nat := 0
  deriving DecidableEq, Repr

/-- An axis. `v`: planned speed; `target`: the goal of the move in progress; `start`: a goal taken at the next servo period or
at the end of the running ramp; `plan`: segments of a transit still to run; `stopNext`, `stopping`: the stop ramp is due, runs;
`stopFault`: a fault caused it; `clearEnable`: a Halt clears ENABLE once it has ended; `ownBase`, `leadBase`: follow bases;
`feRun`, `feHard`: periods over the limit, over the hard limit; `restSince`: REF cycle since when the following error lies in
the window; `missedRun`, `seq`, `awaiting`, `discarded`: of the link; `sendPos`: a position to send in place of the set-point. -/
structure Axis where
  v : Int := 0
  seg : Option Seg := none
  target : Option Int := none
  start : Option Int := none
  plan : List Seg := []
  stopNext : Bool := false
  stopFault : Bool := false
  stopping : Bool := false
  clearEnable : Bool := false
  ownBase : Int := 0
  leadBase : Int := 0
  feRun : Nat := 0
  feHard : Bool := false
  restSince : Option Nat := none
  missedRun : Nat := 0
  seq : Nat := 0
  awaiting : Bool := false
  discarded : Bool := false
  enable : Bool := false
  hold : Bool := false
  faultReset : Bool := false
  sendPos : Option Int := none
  driveFault : Bool := false
  deriving DecidableEq, Repr

/-- An encoder input (R234, R235): levels of A and B; the monotonic filter, its direction, the furthest count, whether the
running fall-back was reported as a reversal; FIRE cycles since the filtered count moved, and the time of the last count. -/
structure Encoder where
  a : Bool := false
  b : Bool := false
  m : Int := 0
  active : Bool := false
  reverse : Bool := false
  fallen : Bool := false
  since : Nat := 0
  lastAt : Nat := 0
  deriving DecidableEq, Repr

/-- A filtered digital input (R233), with the times of its glitches of the last millisecond. -/
structure InputState where
  active : Bool := false
  unstable : Bool := false
  stuck : Bool := false
  recent : List Nat := []
  deriving DecidableEq, Repr

/-- Axes, encoders, digital inputs, the number of the servo period, and whether axis 0 still runs out a transit after its last
FIRE edge (R242). -/
structure Motion where
  axes : List (Nat × Axis) := []
  encs : List (Nat × Encoder) := []
  inputs : List (Nat × InputState) := []
  period : Nat := 0
  tail : Bool := false
  deriving DecidableEq, Repr

/-! DRAM and integrity (R266-R307) -/

/-- A channel of the DRAM controller: whether it is in service, its logical-to-physical rank map, the rank in migration,
corrected lines per rank of the running hour, postponed refreshes and open rows per bank. -/
structure Channel where
  up : Bool := false
  lrank : List Nat := []
  migrating : Option Nat := none
  corr : List (Nat × Nat) := []
  hour : Nat := 0
  postponed : List (Nat × Nat) := []
  openRows : List (Nat × Nat) := []
  retryDue : Bool := false
  trainedTemp : Int := 0
  deriving DecidableEq, Repr

/-- The engine DRAM: bytes of written lines, the written lines as intervals, BAD lines, and the controller. -/
structure Dram where
  bytes : List (Nat × Byte) := []
  written : List (Nat × Nat) := []
  bad : List (Nat × Bool) := []
  density : Nat := 16
  width : Nat := 8
  ranks : Nat := 4
  spare : Nat := 3
  grain : Nat := 12
  seed : Nat := 0xffffffff
  fitted : Nat := 15
  trained : Bool := false
  chans : List (Nat × Channel) := []
  lateSeen : Bool := false
  imbalanceRaised : Bool := false
  imbalanceMs : Nat := 0
  turnaroundRetrained : Bool := false
  deriving DecidableEq, Repr

/-- A suspect word (R298): macro and word, errors after rewrite, uncorrectable finds. -/
structure Suspect where
  word : Nat := 0
  errors : Nat := 0
  uncorr : Nat := 0
  deriving DecidableEq, Repr

/-- On-chip integrity: suspects and remap entries (key g×16+slot), words already warned of, flash records pending. -/
structure Integrity where
  suspects : List (Nat × List Suspect) := []
  remap : List (Nat × Nat) := []
  warned : List (Nat × Bool) := []
  flashDue : List Nat := []
  scrubbed : List (Nat × Nat) := []
  deriving DecidableEq, Repr

/-! Loops, analog inputs, traces (R248-R265) -/

/-- A loop's timers (R249-R252, R256): times of the last output change and of the last timed evaluation, following-error time
accumulated (REF cycles), the fault of the running excursion already raised, set-point written since the last evaluation; zone
loops: invalid input seen and the valid evaluations since. -/
structure LoopState where
  changedAt : Nat := 0
  lastEval : Nat := 0
  feTime : Nat := 0
  feRaised : Bool := false
  spWritten : Bool := false
  invalid : Bool := false
  validRun : Nat := 0
  deriving DecidableEq, Repr

/-- A trace unit (R261-R263): samples since arm, samples on chip not drained, trigger sample, divider count, last sample. -/
structure Trace where
  taken : Nat := 0
  drained : Nat := 0
  chip : List Nat := []
  trigAt : Option Nat := none
  trigDue : Bool := false
  div : Nat := 0
  prev : Option Int := none
  deriving DecidableEq, Repr

/-- Loops, outputs, analog accumulators (sum and number of conversions of the running millisecond), trace units. -/
structure Control where
  loops : List (Nat × LoopState) := []
  hz : List (Nat × Bool) := []
  hv : List (Nat × Bool) := []
  dwEn : List (Nat × Bool) := []
  tripped : List (Nat × Bool) := []
  sums : List (Nat × Nat) := []
  counts : List (Nat × Nat) := []
  traces : List (Nat × Trace) := []
  deriving DecidableEq, Repr

/-! Clocks, power, temperature (R327-R361) -/

/-- A PLL (R331-R337): a lock attempt runs; lock declared; it takes CLK_IN as its reference. -/
structure Pll where
  searching : Bool := false
  declared : Bool := false
  clkIn : Bool := false
  deriving DecidableEq, Repr

/-- Clocks and power. `refBad`: REF monitor windows out of range in a row (R328); `vinLow`, `refHold`: what holds power-on reset;
`sag`: deepest voltage stage whose trigger is present, `pfail`: the stage PFAIL_L brings, the other triggers of 4200h:05h;
`offMedian`: samples in a row of a sensor more than 20 °C off the median, `sampled`: sensors sampled since Dawn (R356);
`idleAt`: the time an idle state was entered; `waking`: exit from Twilight or Night runs (R354). -/
structure Power where
  plls : List (Nat × Pll) := []
  refBad : Nat := 0
  vinLow : Bool := false
  refHold : Bool := false
  sag : Nat := 0
  current : Bool := false
  pfail : Nat := 0
  dieHot : Bool := false
  dieCrit : Bool := false
  converter : Bool := false
  sampled : List (Nat × Bool) := []
  offMedian : List (Nat × Nat) := []
  idleAt : Nat := 0
  waking : Bool := false
  deriving DecidableEq, Repr

/-! Fuses as read at Dawn, and Dawn (R362-R379) -/

/-- What the last Dawn made of a fuse word (R368). -/
structure FuseRead where
  val : Nat := 0
  sealed : Bool := false
  corrected : Bool := false
  marginal : Bool := false
  failed : Bool := false
  deriving DecidableEq, Repr

/-- Dawn's own state (R368, R376, R377): fuse words as read, words corrected whose Notice is due after step 3, partitions whose
fallback is due to be reported, the time the running step began, images that verified (2p + s), partitions that serve; `discovery`: step 8 runs. -/
structure DawnState where
  read : List (Nat × FuseRead) := []
  noticesDue : List Nat := []
  fallbackDue : List Nat := []
  discovery : Bool := false
  stepStart : Nat := 0
  verified : List (Nat × Bool) := []
  partUp : Nat := 0
  partOld : List (Nat × Nat) := []
  deriving DecidableEq, Repr

/-! Field network (R380-R394, R412) -/

/-- A peer (R387-R391): configuration step (0 none, 1 to 4 identity, 5 script, 6 1017h), USDO retried, script offset, identity
read so far, timer armed, NMT state of the latest heartbeat, arrival times of its values, loss pending delivery. -/
structure Peer where
  cfgStep : Nat := 0
  retried : Bool := false
  scriptOff : Nat := 0
  idRead : List Nat := []
  armed : Bool := false
  nmt : Nat := 0
  arrived : List (Nat × Nat) := []
  lossDue : Bool := false
  deriving DecidableEq, Repr

/-- A TPDO's transmission state (R412): values last sent, time last sent, SYNCs since. -/
structure Tpdo where
  last : List Byte := []
  sentAt : Option Nat := none
  syncs : Nat := 0
  deriving DecidableEq, Repr

/-- The field network. `rpdoSync`: frames of synchronous RPDOs that wait for the SYNC; `scan`: an LSS Fastscan runs on port A or B;
`emcyAt`: time the last EMCY was sent; `syncCount`: the SYNC counter; `nodeId`, `portB`: in force since Dawn (R380). -/
structure Field where
  peers : List (Nat × Peer) := []
  tpdos : List (Nat × Tpdo) := []
  rpdoSync : List (Nat × List Byte) := []
  scan : List (Nat × Bool) := []
  emcyAt : Option Nat := none
  syncCount : Nat := 0
  nodeId : Nat := 1
  portB : Nat := 0
  deriving DecidableEq, Repr

/-! The dictionary and the whole -/

/-- The dictionary's values. `dict`: numbers by key (`ekey`); `dom`: DOMAIN values by key; `staged`, `stagedDom`: staged
values held for the next armed boundary (R47); `atLaunch`: values held for the next launch check (R207). -/
structure Dict where
  dict : List (Nat × Nat) := []
  dom : List (Nat × List Byte) := []
  staged : List (Nat × Option Nat) := []
  stagedDom : List (Nat × Option (List Byte)) := []
  atLaunch : List (Nat × Option Nat) := []
  deriving DecidableEq, Repr

/-- The engine: everything but the queue and what outlives power. `now`: REF cycles since power-on reset; `freeIdx`: free
values taken so far (Config.freeValue); `sdo`, `sdoData`: abort code and bytes of the last dictionary request answered;
`readData`: data of the last host register read; `out`: what has been sent, newest first. -/
structure Engine where
  now : Nat := 0
  freeIdx : Nat := 0
  mode : EngineMode := .dawn
  sdo : Nat := 0
  sdoData : List Byte := []
  readData : Nat := 0
  out : List Output := []
  d : Dict := {}
  host : HostIf := {}
  flt : Collector := {}
  pan : Panels := {}
  sup : Supply := {}
  img : Imaging := {}
  path : LinePath := {}
  care : Care := {}
  mot : Motion := {}
  mem : Dram := {}
  integ : Integrity := {}
  ctl : Control := {}
  pwr : Power := {}
  dawn : DawnState := {}
  net : Field := {}
  deriving DecidableEq, Repr

/-- What outlives power: 512 fuse words of 40 bits (data [31:0], seal bit 32, check bits [39:33]; R362), and the boot flash
(R374): readable header, slot selector and TRIAL and fallback count of each partition, images by 2p + s, remap records by
16g + i, and the two copies of the dictionary store. `lossCount`: REF losses since removal of power (R328), `railResets`
(R342), `dawns` (R379). -/
structure NonVol where
  fuses : List (Nat × Nat) := []
  header : Bool := true
  slot : List (Nat × Nat) := []
  trial : List (Nat × Bool) := []
  fallbacks : List (Nat × Nat) := []
  images : List (Nat × List Byte) := []
  records : List (Nat × List Byte) := []
  copies : List (Nat × List Byte) := []
  refLosses : Nat := 0
  railResets : Nat := 0
  dawns : Nat := 0
  deriving DecidableEq, Repr

/-- The machine: the queue of waiting commands, first in first out; what outlives power; the engine. -/
structure State where
  pending : List Instr := []
  nv : NonVol := {}
  e : Engine := {}
  deriving DecidableEq, Repr

/-- The machine at the release of power-on reset (R377 step 1): FAULT_L low, Dawn after step 1, every entry at its default,
every line of DRAM UNWRITTEN, no fuse blown and the flash without images (log entry 8, DESIGN CHOICE), no command waiting. Of Dawn step 1 is done
(DAWN_STEP); it is the first Dawn since power came, and power-on caused it. -/
def State.reset : State :=
  { nv := { dawns := 1 }, e := { d := { dict := [(0x200101, 1), (0x432001, 1), (0x432003, 1)] }, flt := { faultLPin := false } } }

end Sys2Proof.Machine
end

