-- ==== Sys2Proof/Machine/Ops.lean ====
section
/-! DEFINITION. Shared operations: reading and writing dictionary entries and units, answering dictionary requests, sending,
MSI-X and the event ring, engine DRAM. -/

namespace Sys2Proof.Machine

/-- Apply an effect on the engine: every command of the block answers a next state. -/
def onEngine (f : Engine → Engine) (s : State) : Host.Outcome State Fault Refusal := .next { s with e := f s.e }

/-! Dictionary entries as registers (R396, R397) -/

/-- The number held under a key. -/
def Engine.ent (e : Engine) (k : Nat) : Nat := cellGet dictDefault e.d.dict k

/-- Store a number under a key. -/
def Engine.setEnt (e : Engine) (k v : Nat) : Engine := { e with d.dict := cellSet dictDefault e.d.dict k v }

/-- Entry idx:sub. -/
def Engine.get (e : Engine) (idx sub : Nat) : Nat := e.ent (ekey idx sub)

/-- Store entry idx:sub. -/
def Engine.put (e : Engine) (idx sub v : Nat) : Engine := e.setEnt (ekey idx sub) v

/-- Entry idx:sub as a `w`-bit two's complement integer. -/
def Engine.getI (e : Engine) (w idx sub : Nat) : Int := signed w (e.get idx sub)

/-- Store an integer into entry idx:sub of `w` bits. -/
def Engine.putI (e : Engine) (w idx sub : Nat) (i : Int) : Engine := e.put idx sub (unsigned w i)

/-- A BOOLEAN entry. -/
def Engine.flag (e : Engine) (idx sub : Nat) : Bool := e.get idx sub != 0

/-- The width in bits of entry idx:sub. -/
def entBits (idx sub : Nat) : Nat :=
  match dictRow idx sub with
  | some d => 8 * d.ty.bytes
  | none => 32

/-- Advance a saturating counter entry by `n`. -/
def Engine.bump (e : Engine) (idx sub n : Nat) : Engine := e.put idx sub (satAdd (entBits idx sub) (e.get idx sub) n)

/-- Advance a wrapping counter entry by `n`. -/
def Engine.wrap (e : Engine) (idx sub n : Nat) : Engine := e.put idx sub (wrapAdd (entBits idx sub) (e.get idx sub) n)

/-- Bytes of the identity tone curve (R116) and of the default drive map (R165). -/
def identityCurve : List Byte := (List.range 1024).flatMap (fun i => toLe 2 i)

/-- The default drive map: code L for level L in every band and trim class (R165). -/
def defaultMap : List Byte := (List.range 256).map (fun i => BitVec.ofNat 8 ((i / 16) % 4))

/-- The default content of a DOMAIN or VISIBLE_STRING entry (R116, R165, R260, R411, R414). -/
def domDefault (k : Nat) : List Byte :=
  if 0x2410 ≤ k / 256 ∧ k / 256 < 0x2418 ∧ k % 256 = 1 then identityCurve
  else if 0x2440 ≤ k / 256 ∧ k / 256 < 0x2448 ∧ k % 256 = 1 then defaultMap
  else if k / 256 = 0x3409 then List.replicate 130 0
  else if k = 0x432002 then List.replicate 40 0
  else if k = 0x100800 then "WE7128".toUTF8.toList.map (fun c => BitVec.ofNat 8 c.toNat)
  else if k = 0x200001 then "Rhofel WE7128".toUTF8.toList.map (fun c => BitVec.ofNat 8 c.toNat)
  else []

/-- The bytes held under a DOMAIN entry. -/
def Engine.dom (e : Engine) (idx sub : Nat) : List Byte := cellGet domDefault e.d.dom (ekey idx sub)

/-- Store the bytes of a DOMAIN entry. -/
def Engine.setDom (e : Engine) (idx sub : Nat) (bs : List Byte) : Engine :=
  { e with d.dom := cellSet domDefault e.d.dom (ekey idx sub) bs }

/-- The staged value of a key, if one is held (R47). -/
def Engine.stagedVal (e : Engine) (k : Nat) : Option Nat := cellGet (fun _ => none) e.d.staged k

/-- What a read of a numeric entry returns: the staged or launch-class value held, else the value in force (R400). -/
def Engine.shown (e : Engine) (k : Nat) : Nat :=
  match cellGet (fun _ => none) e.d.staged k with
  | some v => v
  | none =>
    match cellGet (fun _ => none) e.d.atLaunch k with
    | some v => v
    | none => e.ent k

/-- What a read of a DOMAIN entry returns. -/
def Engine.shownDom (e : Engine) (idx sub : Nat) : List Byte :=
  match cellGet (fun _ => none) e.d.stagedDom (ekey idx sub) with
  | some v => v
  | none => e.dom idx sub

/-! Units -/

def Engine.dma (e : Engine) (d : Nat) : Dma := cellGet (fun _ => {}) e.host.dma d
def Engine.setDma (e : Engine) (d : Nat) (x : Dma) : Engine := { e with host.dma := cellSet (fun _ => {}) e.host.dma d x }
def Engine.ctx (e : Engine) (c : Nat) : Ctx := cellGet (fun _ => {}) e.sup.ctxs c
def Engine.setCtx (e : Engine) (c : Nat) (x : Ctx) : Engine := { e with sup.ctxs := cellSet (fun _ => {}) e.sup.ctxs c x }
def Engine.decEng (e : Engine) (j : Nat) : Option DecEng := cellGet (fun _ => none) e.sup.engines j
def Engine.setDecEng (e : Engine) (j : Nat) (x : Option DecEng) : Engine :=
  { e with sup.engines := cellSet (fun _ => none) e.sup.engines j x }
def Engine.bankScr (e : Engine) (b : Nat) : BankScr := cellGet (fun _ => {}) e.sup.scr b
def Engine.setBankScr (e : Engine) (b : Nat) (x : BankScr) : Engine :=
  { e with sup.scr := cellSet (fun _ => {}) e.sup.scr b x }
def Engine.head (e : Engine) (h : Nat) : Head := cellGet (fun _ => {}) e.care.heads h
def Engine.setHead (e : Engine) (h : Nat) (x : Head) : Engine := { e with care.heads := cellSet (fun _ => {}) e.care.heads h x }
def Engine.axis (e : Engine) (a : Nat) : Axis := cellGet (fun _ => {}) e.mot.axes a
def Engine.setAxis (e : Engine) (a : Nat) (x : Axis) : Engine := { e with mot.axes := cellSet (fun _ => {}) e.mot.axes a x }
def Engine.enc (e : Engine) (i : Nat) : Encoder := cellGet (fun _ => {}) e.mot.encs i
def Engine.setEnc (e : Engine) (i : Nat) (x : Encoder) : Engine := { e with mot.encs := cellSet (fun _ => {}) e.mot.encs i x }
def Engine.inp (e : Engine) (i : Nat) : InputState := cellGet (fun _ => {}) e.mot.inputs i
def Engine.setInp (e : Engine) (i : Nat) (x : InputState) : Engine :=
  { e with mot.inputs := cellSet (fun _ => {}) e.mot.inputs i x }
def Engine.loop (e : Engine) (l : Nat) : LoopState := cellGet (fun _ => {}) e.ctl.loops l
def Engine.setLoop (e : Engine) (l : Nat) (x : LoopState) : Engine := { e with ctl.loops := cellSet (fun _ => {}) e.ctl.loops l x }
def Engine.trace (e : Engine) (u : Nat) : Trace := cellGet (fun _ => {}) e.ctl.traces u
def Engine.setTrace (e : Engine) (u : Nat) (x : Trace) : Engine := { e with ctl.traces := cellSet (fun _ => {}) e.ctl.traces u x }
def Engine.chan (e : Engine) (c : Nat) : Channel := cellGet (fun _ => {}) e.mem.chans c
def Engine.setChan (e : Engine) (c : Nat) (x : Channel) : Engine := { e with mem.chans := cellSet (fun _ => {}) e.mem.chans c x }
def Engine.pll (e : Engine) (x : Nat) : Pll := cellGet (fun _ => {}) e.pwr.plls x
def Engine.setPll (e : Engine) (x : Nat) (p : Pll) : Engine := { e with pwr.plls := cellSet (fun _ => {}) e.pwr.plls x p }
def Engine.peer (e : Engine) (i : Nat) : Peer := cellGet (fun _ => {}) e.net.peers i
def Engine.setPeer (e : Engine) (i : Nat) (p : Peer) : Engine := { e with net.peers := cellSet (fun _ => {}) e.net.peers i p }
def Engine.hvTripped (e : Engine) (c : Nat) : Bool := cellGet (fun _ => false) e.ctl.tripped c

/-! Time and free values -/

/-- REF cycles in a microsecond and a millisecond (R22). -/
def refUs : Nat := 50
def refMs : Nat := 50000

/-- The next free value (log entry 2, DESIGN CHOICE). -/
def Engine.freeVal (e : Engine) : BitVec 32 := Config.freeValue e.freeIdx

/-- A free value was taken. -/
def Engine.useFree (e : Engine) : Engine := { e with freeIdx := e.freeIdx + 1 }

/-- One REF cycle passes with nothing commanded (log entry 1, DESIGN CHOICE). -/
def Engine.tick (e : Engine) : Engine :=
  match e.mode with
  | .powerOnReset => e
  | _ => { e with now := wrapAdd 64 e.now 1 }

/-! Answering dictionary requests (R399) -/

/-- Refuse a request: only the abort code is answered. -/
def Engine.refuse (e : Engine) (code : Nat) : Engine := { e with sdo := code, sdoData := [] }

/-- Answer a request as done. -/
def Engine.done (e : Engine) : Engine := { e with sdo := 0, sdoData := [] }

/-- Answer a read with bytes. -/
def Engine.answer (e : Engine) (bs : List Byte) : Engine := { e with sdo := 0, sdoData := bs }

/-- 0800 0022h: a state condition fails. -/
def abState : Nat := 0x08000022
/-- 0609 0030h: the value is out of range or inconsistent. -/
def abValue : Nat := 0x06090030
/-- 0800 0020h: the action failed. -/
def abAction : Nat := 0x08000020
/-- 0504 0000h: no response in time. -/
def abTime : Nat := 0x05040000
/-- 0601 0002h: a write to what is read only. -/
def abReadOnly : Nat := 0x06010002
/-- 0607 0010h: length. -/
def abLength : Nat := 0x06070010

/-- The partition that owns an index (R25, R395). -/
def owner (idx : Nat) : Nat :=
  if 0x2100 ≤ idx ∧ idx < 0x2800 then 0
  else if 0x3000 ≤ idx ∧ idx < 0x3500 then 1
  else if idx < 0x2000 ∨ (0x5000 ≤ idx ∧ idx < 0x5080) then 2
  else 3

/-- Whether the engine executes at all: not in power-on reset, not held in reset, not in thermal shutdown. -/
def Engine.live (e : Engine) : Bool :=
  match e.mode with
  | .powerOnReset | .held _ | .shutdown => false
  | .dawn | .running | .debugWait => true

/-- Whether partition `p` serves its entries: it has reported ready and is neither switching nor restarting (R26, R27). -/
def Engine.serving (e : Engine) (p : Nat) : Bool :=
  bit e.dawn.partUp p && e.get (0x4400 + p) 4 != 2 && e.get (0x4400 + p) 4 != 3

/-- An event reaches the engine: in reset or thermal shutdown nothing comes of it. -/
def whenLive (f : Engine → Engine) (e : Engine) : Engine := if e.live then f e else e

/-- A dictionary request for index `idx` (R399 step 5): served by its partition, or answered 0800 0022h. -/
def request (idx : Nat) (f : Engine → Engine) (e : Engine) : Engine :=
  if e.live then (if e.serving (owner idx) then f e else e.refuse abState) else e

/-! Sending, MSI-X (R75) and the event ring (R77) -/

/-- Send something out of the engine. -/
def Engine.send (e : Engine) (o : Output) : Engine := { e with out := o :: e.out }

/-- Word `i` of the MSI-X table; after reset every vector is masked (log entry 6, PRESUMED). -/
def Engine.msixWord (e : Engine) (i : Nat) : Nat := cellGet (fun k => if k % 4 = 3 then 1 else 0) e.host.msix i

/-- Signal a vector: a masked vector sets its PBA bit (log entry 6, PRESUMED). -/
def Engine.signal (e : Engine) (v : Nat) : Engine :=
  if e.msixWord (4 * v + 3) % 2 = 1 then { e with host.pba := cellSet (fun _ => false) e.host.pba v true }
  else e.send (.msix v)

/-- Number of records of the event ring. -/
def Engine.ringLen (e : Engine) : Nat := 2 ^ e.host.ringSize

/-- Whether the ring is full (R77). -/
def Engine.ringFull (e : Engine) : Bool := (e.host.wr + 1) % e.ringLen == e.host.rd

/-- The 32 bytes of an event record (R77). -/
def recordBytes (ty : Nat) (phase : Bool) (seq time : Nat) (payload : List Byte) : List Byte :=
  toLe 1 ty ++ toLe 1 (ofBool phase) ++ toLe 2 seq ++ List.replicate 4 0 ++ toLe 8 time ++
    (payload ++ List.replicate (16 - payload.length) 0)

/-- Write one record at WR and advance it; vector 0 is sent unless a holdoff runs (R77). -/
def Engine.ringWrite (e : Engine) (ty : Nat) (payload : List Byte) : Engine :=
  let h := e.host
  let e := e.send (.hostWrite (h.ringBase + 32 * h.wr) (recordBytes ty h.phase h.ringSeq e.now payload))
  let e := { e with host.wr := (h.wr + 1) % e.ringLen, host.phase := if h.wr + 1 = e.ringLen then !h.phase else h.phase,
                    host.ringSeq := (h.ringSeq + 1) % 65536 }
  if h.holdoffOn then { e with host.unsignalled := true }
  else { e.signal 0 with host.holdoffOn := h.holdoff != 0 }

/-- Write the overflow record that is due, if the ring has space (R77). -/
def Engine.overflowRecord (e : Engine) : Engine :=
  if e.host.ringEnable ∧ e.host.lostSince ≠ 0 ∧ !e.ringFull then
    { e.ringWrite 4 (toLe 4 e.host.lostSince) with host.lostSince := 0 }
  else e

/-- Generate a record: nothing while ENABLE is 0; dropped and counted while the ring is full; an overflow record goes first
once space has returned (R77). -/
def Engine.record (e : Engine) (ty : Nat) (payload : List Byte) : Engine :=
  if e.host.ringEnable then
    let e := e.overflowRecord
    if e.ringFull then
      { e with host.ringSeq := (e.host.ringSeq + 1) % 65536, host.dropped := satAdd 32 e.host.dropped 1,
               host.lostSince := e.host.lostSince + 1 }
    else e.ringWrite ty payload
  else e

/-- A context event record (R77 TYPE 03h). -/
def Engine.contextRecord (e : Engine) (c state cause resume : Nat) : Engine :=
  e.record 3 (toLe 1 c ++ toLe 1 state ++ toLe 1 cause ++ List.replicate 5 0 ++ toLe 8 resume)

/-! Engine DRAM (R266-R270) -/

/-- Bytes of a rank in the configuration in force (R266). -/
def Dram.rsize (m : Dram) : Nat :=
  (if m.density = 16 then (if m.width = 8 then 16 else 32) else (if m.width = 8 then 32 else 64)) * 2 ^ 30

/-- Whether a spare rank exists (R266). -/
def Dram.hasSpare (m : Dram) : Bool := decide (m.spare < m.ranks) && decide (1 < m.ranks)

/-- The channels in service, ascending. -/
def Dram.active (m : Dram) : List Nat :=
  (List.range 4).filter (fun c => (cellGet (fun _ => ({} : Channel)) m.chans c).up)

/-- The usable capacity (R267). -/
def Dram.usable (m : Dram) : Nat := m.active.length * (m.ranks - ofBool m.hasSpare) * m.rsize

/-- Whether the range [a, a+n) lies within usable DRAM (R267). -/
def Engine.inDram (e : Engine) (a n : Nat) : Bool := decide (a + n ≤ e.mem.usable)

/-- One stored byte; bytes of a written line that no one has stored read 0 (R125, R270, R287). -/
def Engine.dramByte (e : Engine) (a : Nat) : Byte := cellGet (fun _ => 0) e.mem.bytes a

/-- Whether a line holds data: written and not BAD (R269). -/
def Engine.lineOk (e : Engine) (l : Nat) : Bool :=
  spanMem l e.mem.written && !cellGet (fun _ => false) e.mem.bad l

/-- The lines that [a, a+n) touches. -/
def linesOf (a n : Nat) : List Nat := if n = 0 then [] else (List.range ((a + n - 1) / 64 + 1 - a / 64)).map (· + a / 64)

/-- The first line of [a, a+n) that gives a bus error, or lies beyond usable DRAM. -/
def Engine.busError (e : Engine) (a n : Nat) : Option Nat :=
  firstIdx (fun l => !e.lineOk l || !e.inDram (64 * l) 64) (linesOf a n)

/-- Read `n` bytes at `a`, or `none` on a bus error (R268, R269). -/
def Engine.dramRead (e : Engine) (a n : Nat) : Option (List Byte) :=
  match e.busError a n with
  | some _ => none
  | none => some ((List.range n).map (fun i => e.dramByte (a + i)))

/-- The (address, byte) pairs of bytes stored from `a` on. -/
def bytePairs (a : Nat) : List Byte → List (Nat × Byte)
  | [] => []
  | b :: r => (a, b) :: bytePairs (a + 1) r

/-- Store bytes and mark the lines [l0, l1) written and free of markers. -/
def Engine.storeLines (e : Engine) (a : Nat) (bs : List Byte) (l0 l1 : Nat) : Engine :=
  { e with mem.bytes := cellSetAll (fun _ => 0) (bytePairs a bs) e.mem.bytes,
           mem.written := spanAdd l0 l1 e.mem.written,
           mem.bad := cellEraseRange l0 (l1 - l0) e.mem.bad }

/-- Count channel traffic of a write or read on the byte's channels is left to BANDWIDTH_WINDOW (R289). A partial write to a
BAD line is discarded and counted; the Warning of R270 is raised by the caller through `badPartial`. -/
def Engine.dramWrite (e : Engine) (a : Nat) (bs : List Byte) : Engine :=
  let ls := linesOf a bs.length
  let lost := ls.filter (fun l => cellGet (fun _ => false) e.mem.bad l && !(decide (a ≤ 64 * l) && decide (64 * l + 64 ≤ a + bs.length)))
  let keep := (bytePairs a bs).filter (fun p => !lost.contains (p.1 / 64))
  let good := ls.filter (fun l => !lost.contains l)
  { (e.bump 0x4001 0x0B lost.length) with
      mem.bytes := cellSetAll (fun _ => 0) keep e.mem.bytes,
      mem.written := good.foldl (fun w l => spanAdd l (l + 1) w) e.mem.written,
      mem.bad := good.foldl (fun w l => cellErase l w) e.mem.bad }

/-- The first BAD line that a write of [a, a+n) would touch in part (R270). -/
def Engine.badPartial (e : Engine) (a n : Nat) : Option Nat :=
  firstIdx (fun l => cellGet (fun _ => false) e.mem.bad l && !(decide (a ≤ 64 * l) && decide (64 * l + 64 ≤ a + n))) (linesOf a n)

/-- Write `n` bytes of whole lines at `a` with the same byte: FILL with 0 and the clearing of regions (R125). -/
def Engine.dramClear (e : Engine) (a n : Nat) : Engine :=
  { e with mem.bytes := cellEraseRange a n e.mem.bytes, mem.written := spanAdd (a / 64) ((a + n + 63) / 64) e.mem.written,
           mem.bad := cellEraseRange (a / 64) ((a + n + 63) / 64 - a / 64) e.mem.bad }

/-- The canonical form of the engine DRAM: bytes and BAD lines strictly rising with no entry at its default, written lines as
rising intervals that do not touch. -/
def Memory.wf (m : Dram) : Bool :=
  cellsWf (fun _ => (0 : Byte)) m.bytes && spansFrom 0 m.written && cellsWf (fun _ => false) m.bad

/-- Mark every line UNWRITTEN (R287). -/
def Engine.dramMark (e : Engine) : Engine := { e with mem.bytes := [], mem.written := [], mem.bad := [] }

/-- Whether the controller serves requests: not marking, re-forming or in self-refresh (R287, R288). -/
def Engine.dramServing (e : Engine) : Bool := e.get 0x4001 1 == 1

/-- Whether two ranges of bytes overlap. -/
def overlap (a n b m : Nat) : Bool := decide (a < b + m) && decide (b < a + n) && decide (0 < n) && decide (0 < m)

/-! Heads, banks and elements (R5, R139) -/

/-- The bank and the position of a head. -/
def bankOf (h : Nat) : Nat := h / 16
def posOf (h : Nat) : Nat := h % 16

/-- The service state of head h (R147). -/
def Engine.svc (e : Engine) (h : Nat) : Nat := e.get 0x2520 (h + 1)

/-- Set the service state of head h. -/
def Engine.setSvc (e : Engine) (h v : Nat) : Engine := e.put 0x2520 (h + 1) v

/-! Job state (R51) -/

/-- 2200h:02h. -/
def Engine.jobState (e : Engine) : Nat := e.get 0x2200 2

/-- Whether hold cause `i` is set. -/
def Engine.hold (e : Engine) (i : Nat) : Bool := bit (e.get 0x2200 3) i

/-- Set or clear hold cause `i`. -/
def Engine.setHold (e : Engine) (i : Nat) (on : Bool) : Engine := e.put 0x2200 3 (setBit (e.get 0x2200 3) i on)

/-- The shedding stage in force (4200h:04h). -/
def Engine.stage (e : Engine) : Nat := e.get 0x4200 4

/-- The idle state (4220h:01h). -/
def Engine.idle (e : Engine) : Nat := e.get 0x4220 1

/-- Whether all three PLLs are in state 2 (R24, R335). -/
def Engine.pllsLocked (e : Engine) : Bool := e.get 0x4281 1 == 2 && e.get 0x4282 1 == 2 && e.get 0x4283 1 == 2

/-- A numbered list of updates, one per index. -/
def Engine.each (e : Engine) (is : List Nat) (f : Engine → Nat → Engine) : Engine := is.foldl f e

end Sys2Proof.Machine
end

