-- ==== Sys2Proof/Machine/Codec.lean ====
section
/-! DEFINITION. The two codes of the engine: Wygrim-D blocks (R79-R88, R105) and Wygrim-F blocks and tags (R93-R103). -/

namespace Sys2Proof.Machine

/-! Wygrim-D: decoding -/

/-- What a decoder answers: the bytes produced newest first with the history behind them and their number since the last
reset, or a format fault with its bit position (R87). -/
inductive Decoded where
  | ok (hist : List Byte) (produced : Nat)
  | bad (sub pos : Nat)
  deriving DecidableEq, Repr

/-- Number of leading zero bits, at most `cap`; `none` if the bits end before a one. -/
def leadingZeros : Nat → List Bool → Option Nat
  | _, [] => none
  | 0, _ => some 0
  | _ + 1, true :: _ => some 0
  | n + 1, false :: r => (leadingZeros n r).map (· + 1)

/-- A length code (R83). -/
inductive LenCode where
  | ok (len : Nat) (bits : Nat)
  | zeros
  | short
  deriving DecidableEq, Repr

/-- Read a length code with least length `lmin`; 17 leading zeros are one too many (R83). -/
def readLen (lmin : Nat) (bs : List Bool) : LenCode :=
  match leadingZeros 17 bs with
  | none => .short
  | some z =>
    if z = 17 then .zeros
    else
      let body := bs.drop (z + 1)
      if body.length < z then .short
      else .ok (2 ^ z + ofBitsMsb (body.take z) - 1 + lmin) (2 * z + 1)

/-- Copy `n` bytes one at a time from distance `dist` (R84); `hist` holds the newest byte first. -/
def copyBack (dist : Nat) : Nat → List Byte → List Byte
  | 0, hist => hist
  | n + 1, hist => copyBack dist n (hist.getD (dist - 1) 0 :: hist)

/-- A body token after its prefix and fields: the distance (0 for a literal) and the output length. -/
inductive Token where
  | lit (b : Byte) (bits : Nat)
  | copy (dist len bits : Nat)
  | fin
  | reserved
  | zeros (at_ : Nat)
  | short
  deriving DecidableEq, Repr

/-- A copy token whose length code starts `skip` bits into the token (R82, R83). -/
def copyToken (dist lmin skip : Nat) (bs : List Bool) : Token :=
  match readLen lmin (bs.drop skip) with
  | .ok l n => .copy dist l (skip + n)
  | .zeros => .zeros (skip + 16)
  | .short => .short

/-- The token at the head of the bits (R82). -/
def readToken (stride : Nat) (bs : List Bool) : Token :=
  match bs with
  | false :: r => if r.length < 8 then .short else .lit (BitVec.ofNat 8 (ofBitsMsb (r.take 8))) 9
  | true :: false :: _ => copyToken 1 1 2 bs
  | true :: true :: false :: _ => copyToken stride 1 3 bs
  | true :: true :: true :: false :: r =>
    if r.length < 14 then .short else copyToken (ofBitsMsb (r.take 14) + 1) 3 18 bs
  | true :: true :: true :: true :: false :: _ => .fin
  | true :: true :: true :: true :: true :: _ => .reserved
  | _ => .short

/-- The first set bit's position from `p` on, if any. -/
def firstSet : Nat → List Bool → Option Nat
  | _, [] => none
  | p, true :: _ => some p
  | p, false :: r => firstSet (p + 1) r

/-- Decode a token stream (R82-R85, R87). `pos` is the bit position, `out` the bytes of the block so far, `avail` the bytes
since the last history reset, `total` the bits of the body. -/
def decodeTokens (stride raw total : Nat) : Nat → Nat → List Bool → List Byte → Nat → Nat → Decoded
  | 0, _, _, _, _, _ => .bad 11 total
  | fuel + 1, pos, bs, hist, avail, out =>
    match readToken stride bs with
    | .short => .bad 11 total
    | .reserved => .bad 5 pos
    | .zeros n => .bad 6 (pos + n)
    | .lit b n =>
      if raw < out + 1 then .bad 9 pos
      else decodeTokens stride raw total fuel (pos + n) (bs.drop n) (b :: hist) (avail + 1) (out + 1)
    | .copy dist len n =>
      if 65536 < len then .bad 7 pos
      else if min 16384 avail < dist then .bad 8 pos
      else if raw < out + len then .bad 9 pos
      else decodeTokens stride raw total fuel (pos + n) (bs.drop n) (copyBack dist len hist) (avail + len) (out + len)
    | .fin =>
      if out < raw then .bad 10 pos
      else
        let pad := (8 - (pos + 5) % 8) % 8
        match firstSet (pos + 5) ((bs.drop 5).take pad) with
        | some p => .bad 12 p
        | none => if total = pos + 5 + pad then .ok hist avail else .bad 12 (pos + 5 + pad)

/-- A block header (R79). -/
structure BlockHeader where
  ty : Nat := 0
  flags : Nat := 0
  ctx : Nat := 0
  res : Nat := 0
  raw : Nat := 0
  coded : Nat := 0
  crc : Nat := 0
  deriving DecidableEq, Repr

/-- A header read from its 16 bytes. -/
def parseHeader (bs : List Byte) : BlockHeader :=
  { ty := le (bs.take 1), flags := le ((bs.drop 1).take 1), ctx := le ((bs.drop 2).take 1), res := le ((bs.drop 3).take 1),
    raw := le ((bs.drop 4).take 4), coded := le ((bs.drop 8).take 4), crc := le ((bs.drop 12).take 4) }

/-- The header faults of R87, sub-codes 1 to 4. -/
def headerFault (h : BlockHeader) : Option Nat :=
  if h.ty ≠ 1 ∧ h.ty ≠ 2 then some 1
  else if 8 ≤ h.flags ∨ h.res ≠ 0 then some 2
  else if 65536 < h.raw then some 3
  else if (h.ty = 2 ∧ h.coded ≠ h.raw) ∨ (h.ty = 1 ∧ h.coded = 0) then some 4
  else none

/-- Decode one block against a history (newest byte first) with `avail` bytes produced since its reset (R79-R87). -/
def decodeBlock (stride : Nat) (h : BlockHeader) (body hist : List Byte) (avail : Nat) : Decoded :=
  match headerFault h with
  | some n => .bad n 0
  | none =>
    if h.ty = 2 then .ok (body.reverse ++ hist) (avail + h.raw)
    else decodeTokens stride h.raw (8 * h.coded) (8 * h.coded + 1) 0 (bitsMsb body) hist avail 0

/-! Wygrim-D: the proof encoder (R104-R108) -/

/-- The Exp-Golomb code of `v` (R83). -/
def lenCode (v : Nat) : List Bool :=
  let z := topBit 16 (v + 1)
  List.replicate z false ++ (natBits (z + 1) (v + 1)).reverse

/-- A field of `w` bits, most significant bit first. -/
def msb (w v : Nat) : List Bool := (natBits w v).reverse

/-- Length of the longest match of the bytes at `i` and at `q` (`q < i`) within the first `n` bytes, at most `fuel`. -/
def matchLen (bs : List Byte) (q i n : Nat) : Nat → Nat
  | 0 => 0
  | fuel + 1 => if i < n ∧ bs.getD q 0 = bs.getD i 0 then matchLen bs (q + 1) (i + 1) n fuel + 1 else 0

/-- hash(i) of R105. -/
def hashAt (bs : List Byte) (i : Nat) : Nat :=
  (((bs.getD i 0).toNat <<< 4) ^^^ ((bs.getD (i + 1) 0).toNat <<< 2) ^^^ (bs.getD (i + 2) 0).toNat) &&& 0xfff

/-- The latest `k` positions below `q0` (searched downward) with `q + 2 < i` whose hash is `hv`, from the history reset on. -/
def candidates (bs : List Byte) (hv i lo : Nat) : Nat → Nat → List Nat
  | 0, _ => []
  | _ + 1, 0 => []
  | q + 1, k + 1 =>
    if q < lo then []
    else if q + 2 < i ∧ hashAt bs q = hv then q :: candidates bs hv i lo q k else candidates bs hv i lo q (k + 1)

/-- The best general match among candidates, nearest first: length and distance (R105). -/
def bestMatch (bs : List Byte) (i n avail : Nat) : List Nat → Nat × Nat → Nat × Nat
  | [], best => best
  | q :: r, (lg, og) =>
    let l := if i - q ≤ avail then matchLen bs q i n 65536 else 0
    bestMatch bs i n avail r (if lg < l then (l, i - q) else (lg, og))

/-- Encode the bytes from `i` to `n` (R105); `lo` is the position of the last history reset. -/
def encodeTokens (bs : List Byte) (stride n lo : Nat) : Nat → Nat → List Bool
  | 0, _ => []
  | fuel + 1, i =>
    if n ≤ i then []
    else
      let avail := min 16384 (i - lo)
      let capLen := min 65536 (n - i)
      let lr := if lo < i then matchLen bs (i - 1) i n capLen else 0
      let lw := if stride ≤ avail ∧ 0 < stride then matchLen bs (i - stride) i n capLen else 0
      let g := if n - i < 3 then (0, 0) else bestMatch bs i n avail (candidates bs (hashAt bs i) i lo i 4) (0, 0)
      let lg := if min g.1 capLen < 3 then 0 else min g.1 capLen
      let m := max lr (max lw lg)
      if m = 0 then false :: msb 8 (bs.getD i 0).toNat ++ encodeTokens bs stride n lo fuel (i + 1)
      else if lr = m then true :: false :: lenCode (m - 1) ++ encodeTokens bs stride n lo fuel (i + m)
      else if lw = m then true :: true :: false :: lenCode (m - 1) ++ encodeTokens bs stride n lo fuel (i + m)
      else true :: true :: true :: false :: msb 14 (g.2 - 1) ++ lenCode (m - 3) ++ encodeTokens bs stride n lo fuel (i + m)

/-- A coded body: tokens, end token, zero padding (R85). -/
def encodeBody (bs : List Byte) (stride start n lo : Nat) : List Byte :=
  let b := encodeTokens bs stride n lo (n - start + 1) start ++ [true, true, true, true, false]
  packMsb ((b.length + 7) / 8) b

/-- A whole proof block (R86, R104, R105): stream index, flags, the unit's bytes `bs` up to `n`, of which [start, n) is this
block's and `lo` the last history reset. -/
def proofBlock (stream flags : Nat) (bs : List Byte) (stride start n lo : Nat) : List Byte :=
  let raw := n - start
  let body := encodeBody bs stride start n lo
  let rawBytes := (bs.drop start).take raw
  let asRaw := decide (0 < raw) && decide (raw ≤ body.length)
  let bd := if asRaw then rawBytes else body
  toLe 1 (if asRaw then 2 else 1) ++ toLe 1 flags ++ toLe 1 stream ++ [0] ++ toLe 4 raw ++ toLe 4 bd.length ++
    toLe 4 (crc32c rawBytes) ++ bd

/-! Wygrim-F (R93-R103) -/

/-- The 64 levels of tile `t` of a block given as 4,096 levels in raw order (R93, R97). -/
def tileLevels (lv : List Nat) (t : Nat) : List Nat :=
  (List.range 64).map (fun p => lv.getD ((8 * (t / 8) + p / 8) * 64 + 8 * (t % 8) + p % 8) 0)

/-- The distinct levels of a tile, in order of first appearance. -/
def distinctLevels (ls : List Nat) : List Nat := ls.foldl (fun d l => if d.contains l then d else d ++ [l]) []

/-- The mode of a tile (R96). -/
def tileMode (ls : List Nat) : Nat :=
  match distinctLevels ls with
  | [l] => if l = 0 then 0 else 1
  | [_, _] => 2
  | [] => 0
  | _ => 3

/-- The payload of a tile (R95, R96). -/
def tilePayload (ls : List Nat) : List Bool :=
  let d := distinctLevels ls
  match tileMode ls with
  | 0 => []
  | 1 => natBits 2 (d.getD 0 0)
  | 2 => natBits 2 (d.getD 0 0) ++ natBits 2 (d.getD 1 0) ++ ls.map (fun l => l != d.getD 0 0)
  | _ => ls.flatMap (natBits 2)

/-- The raw form: 1,024 bytes (R97). -/
def rawForm (lv : List Nat) : List Byte := packLsb 1024 (lv.flatMap (natBits 2))

/-- The coded form's bits, filled to a multiple of 64 (R94, R97). -/
def codedBits (lv : List Nat) : List Bool :=
  let ts := (List.range 64).map (tileLevels lv)
  let b := ts.flatMap (fun t => natBits 2 (tileMode t)) ++ ts.flatMap tilePayload
  b ++ List.replicate ((64 - b.length % 64) % 64) false

/-- The stored form of a block: whether raw, its length in 8-byte units, its bytes (R97). -/
def storeForm (lv : List Nat) : Bool × Nat × List Byte :=
  let b := codedBits lv
  if b.length ≤ 8128 then (false, b.length / 64, packLsb (b.length / 8) b) else (true, 128, rawForm lv)

/-- The tag word (R98). -/
def tagWord (crc : Nat) (raw verified checked : Bool) (gen len : Nat) : Nat :=
  crc * 65536 + ofBool raw * 32768 + ofBool verified * 16384 + ofBool checked * 8192 + gen % 8 * 1024 + len

/-- LENGTH, GEN and flags of a tag word. -/
def tagLen (t : Nat) : Nat := bits t 9 0
def tagGen (t : Nat) : Nat := bits t 12 10
def tagChecked (t : Nat) : Bool := bit t 13
def tagVerified (t : Nat) : Bool := bit t 14
def tagRaw (t : Nat) : Bool := bit t 15

/-- Payload bits of a mode (R95). -/
def modeBits (m : Nat) : Nat := if m = 0 then 0 else if m = 1 then 2 else if m = 2 then 68 else 128

/-- The modes in a coded block's mode area. -/
def blockModes (bs : List Bool) : List Nat := (List.range 64).map (fun t => ofBits ((bs.drop (2 * t)).take 2))

/-- Decode one tile of mode `m` from its payload (R95). -/
def decodeTile (m : Nat) (p : List Bool) : List Nat :=
  if m = 0 then List.replicate 64 0
  else if m = 1 then List.replicate 64 (ofBits (p.take 2))
  else if m = 2 then
    ((p.drop 4).take 64).map (fun b => if b then ofBits ((p.drop 2).take 2) else ofBits (p.take 2))
  else (List.range 64).map (fun i => ofBits ((p.drop (2 * i)).take 2))

/-- Decode the tiles in order. -/
def decodeTiles : List Nat → List Bool → List (List Nat)
  | [], _ => []
  | m :: r, p => decodeTile m (p.take (modeBits m)) :: decodeTiles r (p.drop (modeBits m))

/-- The 4,096 levels of a block in raw order, from its tiles. -/
def untile (ts : List (List Nat)) : List Nat :=
  (List.range 4096).map (fun i =>
    let y := i / 64
    let x := i % 64
    (ts.getD ((y / 8) * 8 + x / 8) []).getD ((y % 8) * 8 + x % 8) 0)

/-- Levels of a raw block (R97). -/
def rawLevels (bs : List Byte) : List Nat :=
  let b := bitsLsb bs
  (List.range 4096).map (fun i => ofBits ((b.drop (2 * i)).take 2))

/-- What compose makes of a tag and its stored bytes (R99, R103): the levels of an accepted block, or `none` for a check
that fails. -/
def acceptBlock (tag : Nat) (stored : List Byte) : Option (List Nat) :=
  if !tagVerified tag && !tagChecked tag then none
  else
    let lv :=
      if tagRaw tag then (if tagLen tag = 128 then some (rawLevels stored) else none)
      else
        let b := bitsLsb stored
        let ms := blockModes b
        let used := 128 + (ms.map modeBits).foldl (· + ·) 0
        if tagLen tag < 2 ∨ 127 < tagLen tag ∨ (used + 63) / 64 ≠ tagLen tag ∨ (b.drop used).any id then none
        else some (untile (decodeTiles ms (b.drop 128)))
    match lv with
    | none => none
    | some l => if tagChecked tag ∧ crc16 (rawForm l) ≠ tag / 65536 then none else some l

end Sys2Proof.Machine
end

