-- ==== Sys2Proof/Machine/Traces.lean ====
section
/-! DEFINITION. Trace units (R261-R263): sampling, triggers, draining. -/

namespace Sys2Proof.Machine

/-- Index of trace unit u. -/
def traceIdx (u : Nat) : Nat := 0x3210 + u

/-- Samples a trace ring holds. -/
def Engine.traceCap (e : Engine) (u : Nat) : Nat := e.get (traceIdx u) 0x0B / 4

/-- Publish the valid count and the offset of the first valid sample (R262). -/
def Engine.tracePublish (e : Engine) (u : Nat) : Engine :=
  let n := (e.trace u).taken
  let v := min n (e.traceCap u)
  (e.put (traceIdx u) 0x0C v).put (traceIdx u) 0x0D ((n - v) * 4 % max 1 (e.get (traceIdx u) 0x0B))

/-- What a node gives (R261): `code` is the conversion code that an analog input has just given. -/
def Engine.traceNode (e : Engine) (kind idx node code : Nat) : Int :=
  match kind, node with
  | 1, 0 => e.getI 16 (0x3100 + idx) 0x0D
  | 1, 1 => e.getI 16 (0x3100 + idx) 0x10
  | 1, 2 => e.getI 16 (0x3100 + idx) 0x0F
  | 1, _ =>
    let i := 0x3100 + idx
    (e.get i 0x0D % 65536 + e.get i 0x0C * 65536 + e.get i 0x0E * 2 ^ 17 : Nat)
  | 2, 0 => e.getI 32 (0x3000 + 16 * idx) 5
  | 2, 1 => e.getI 32 (0x3000 + 16 * idx) 6
  | 2, 2 => e.getI 32 (0x3000 + 16 * idx) 5 - e.getI 32 (0x3000 + 16 * idx) 6
  | 2, 3 => e.getI 16 (0x3002 + 16 * idx) 7
  | 2, _ => e.getI 32 (0x300F + 16 * (idx % 4)) 2
  | _, 0 => code
  | _, _ => e.getI 16 0x3406 (idx + 1)

/-- A trigger comes: the unit waits for the trigger sample, and its time is kept (R262). -/
def Engine.traceTrig (e : Engine) (u : Nat) : Engine :=
  if e.get (traceIdx u) 2 = 1 then
    ((e.put (traceIdx u) 2 2).put (traceIdx u) 0x0F e.now).setTrace u { e.trace u with trigDue := true }
  else e

/-- Whether a sample triggers by its level (modes 1 and 2). -/
def Engine.traceCross (e : Engine) (u : Nat) (v : Int) : Bool :=
  let lim := e.getI 32 (traceIdx u) 8
  match e.get (traceIdx u) 7, (e.trace u).prev with
  | 1, some p => decide (p ≤ lim) && decide (lim < v)
  | 2, some p => decide (lim ≤ p) && decide (v < lim)
  | _, _ => false

/-- Unit u takes a sample: one that finds the on-chip buffer full is lost (R263); the first after a trigger is the trigger
sample; the unit is done once its post-trigger count is taken and the samples fill whole groups of 1,024 (R262). -/
def Engine.traceSample (e : Engine) (u : Nat) (v : Int) : Engine :=
  let e := if e.traceCross u v then e.traceTrig u else e
  let x := e.trace u
  let x := { x with prev := some v }
  if 8192 ≤ x.chip.length then (e.setTrace u x).bump (traceIdx u) 0x10 1
  else
    let k := x.taken
    let e := if x.trigDue then e.put (traceIdx u) 0x0E (k * 4 % max 1 (e.get (traceIdx u) 0x0B)) else e
    let x := { x with taken := k + 1, chip := x.chip ++ [unsigned 32 v], trigAt := if x.trigDue then some k else x.trigAt,
                      trigDue := false }
    let e := (e.setTrace u x).tracePublish u
    let full := x.trigAt.any (fun t => decide (t + 1 + e.get (traceIdx u) 9 ≤ x.taken))
    if full ∧ x.taken % 1024 = 0 then e.put (traceIdx u) 2 3 else e

/-- Whether unit u records. -/
def Engine.tracing (e : Engine) (u : Nat) : Bool := e.get (traceIdx u) 2 == 1 || e.get (traceIdx u) 2 == 2

/-- An event of source (kind, idx) for the nodes `p` names: every divider-th one is sampled (R261). -/
def Engine.traceEvent (e : Engine) (kind idx code : Nat) (p : Nat → Bool) : Engine :=
  e.each [0, 1, 2, 3] (fun e u =>
    let i := traceIdx u
    if e.tracing u && e.get i 3 == kind && e.get i 4 == idx && p (e.get i 5) then
      let n := (e.trace u).div + 1
      if n < e.get i 6 then e.setTrace u { e.trace u with div := n }
      else (e.setTrace u { e.trace u with div := 0 }).traceSample u (e.traceNode kind idx (e.get i 5) code)
    else e)

/-- Recording ends at once in state `st`: the incomplete group of 1,024 is discarded and not counted (R263). -/
def Engine.traceEnd (e : Engine) (u st : Nat) : Engine :=
  if e.tracing u then
    let x := e.trace u
    let n := x.taken / 1024 * 1024
    ((e.put (traceIdx u) 2 st).setTrace u { x with taken := n, chip := x.chip.take (n - x.drained) }).tracePublish u
  else e

/-- One burst of internal channel 34 or 35 (R68): the first of its two units with a whole group drains 1,024 samples. -/
def Engine.traceDrain (e : Engine) (d : Nat) : Engine :=
  match [2 * (d - 34), 2 * (d - 34) + 1].find? (fun u => decide (1024 ≤ (e.trace u).chip.length)) with
  | none => e
  | some u =>
    let x := e.trace u
    let a := e.get (traceIdx u) 0x0A + x.drained * 4 % max 1 (e.get (traceIdx u) 0x0B)
    (e.dramWrite a ((x.chip.take 1024).flatMap (toLe 4))).setTrace u { x with chip := x.chip.drop 1024, drained := x.drained + 1024 }

end Sys2Proof.Machine
end

