-- ==== Sys2Proof/Machine/Flags.lean ====
section
/-! DEFINITION. Demands and restrictions (R20, R253, R312, R318) and the switching rule of the loops (R249-R251). -/

namespace Sys2Proof.Machine

/-- The number a digital input is kept under. -/
def inputNo : DigIn → Nat
  | .stop => 0
  | .pfail => 1
  | .limP a => 2 + a.val
  | .limN a => 10 + a.val
  | .home a => 18 + a.val
  | .encA i => 26 + i.val
  | .encB i => 30 + i.val
  | .encI i => 34 + i.val

/-- Whether a log entry of class `c` or higher is unacknowledged. -/
def Engine.unacked (e : Engine) (c : Nat) : Bool := e.flt.log.any (fun x => !x.acked && decide (c ≤ x.cls))

/-- Conditions that keep the Halt demand after acknowledgement (R318): STOP_L active; shedding stage 5. -/
def Engine.haltCond (e : Engine) : Bool := (e.inp 0).active || decide (5 ≤ e.stage)

/-- Conditions that keep the Stop demand (R318): a latched HV trip (R258), an axis in Fault (R239). -/
def Engine.stopCond (e : Engine) : Bool :=
  [0, 1, 2, 3].any e.hvTripped || (List.range 8).any (fun a => e.get (0x3000 + 16 * a) 2 == 5)

/-- The job goes to Held: axes 0 and 1 leave transit control for state 1 (R243); one that still moves does so at rest. -/
def Engine.toHeld (e : Engine) : Engine :=
  (e.put 0x2200 2 3).each [0, 1] (fun e a =>
    let x := e.axis a
    if e.get (0x3000 + 16 * a) 2 = 6 ∧ x.v = 0 ∧ x.seg.isNone ∧ x.plan.isEmpty then e.put (0x3000 + 16 * a) 2 1 else e)

/-- The Halt demand of R20. -/
def Engine.haltDemand (e : Engine) : Bool := e.unacked 4 || e.haltCond

/-- The Stop demand of R20. -/
def Engine.stopDemand (e : Engine) : Bool := e.unacked 3 || e.haltCond || e.stopCond

/-- Every head BLANK (R312, R344, R51): a Stop or Halt demand, the rest of the transit a reaction met, stage 4, an abort. -/
def Engine.blankDemand (e : Engine) : Bool :=
  e.stopDemand || e.flt.blankTransit || decide (4 ≤ e.stage) || (match e.pan.flight with | some f => f.aborted | none => false)

/-- No new transit may start for a fault (R32). -/
def Engine.faultBlocks (e : Engine) : Bool := e.stopDemand

/-- What the DRAM is demanded to be (R20, R288): 0 active, 2 self-refresh, 3 with the controller's clocks stopped. -/
def Engine.srDemand (e : Engine) : Nat :=
  if e.idle = 3 then 3
  else if e.idle = 2 ∨ 4 ≤ e.stage ∨ e.haltDemand ∨ bit (e.get 0x4280 2) 2 then 2 else 0

/-- Enter or leave self-refresh as demanded (R288): a migration pauses and resumes; on exit a channel whose die temperature
moved is retrained. -/
def Engine.refreshSr (e : Engine) : Engine :=
  let st := e.get 0x4001 1
  if st = 0 ∨ st = 4 then e
  else if e.srDemand ≠ 0 then
    let e := e.put 0x4001 1 e.srDemand
    e.each [0, 1, 2, 3] (fun e c => if e.get (0x4010 + c) 0x0C = 1 then e.put (0x4010 + c) 0x0C 2 else e)
  else if st = 1 then e
  else
    let e := e.put 0x4001 1 1
    e.each [0, 1, 2, 3] (fun e c =>
      let e := if e.get (0x4010 + c) 0x0C = 2 then e.put (0x4010 + c) 0x0C 1 else e
      let t := e.getI 16 0x4211 1
      let x := e.chan c
      if x.up ∧ 10 * e.get 0x4002 6 ≤ (t - x.trainedTemp).natAbs then
        ((e.wrap (0x4010 + c) 7 1).put (0x4010 + c) 9 e.now).setChan c { x with trainedTemp := t }
      else e)

/-- Whether HV channel `c` is enabled (R257). -/
def Engine.hvOn (e : Engine) (c : Nat) : Bool := e.get (0x3200 + c) 1 != 0

/-- Whether loop `l` drives an HV channel (R248, R256). -/
def Engine.isHv (e : Engine) (l : Nat) : Bool := decide (188 ≤ l) && e.hvOn (l - 188)

/-- OFF of every loop: the Halt reaction, thermal shutdown, Dusk and deeper (R253). -/
def Engine.allOff (e : Engine) : Bool := e.haltDemand || e.mode == .shutdown || decide (1 ≤ e.idle)

/-- The restriction of a zone loop or HV channel, as 3100h + l:0Eh codes it: 0 none, 1 off, 2 standby, 3 capped, 4 held
(R253), the most restrictive first (R20). -/
def Engine.zoneRestr (e : Engine) (l : Nat) : Nat :=
  if e.allOff ∨ (e.loop l).invalid ∨ e.get (0x3100 + l) 1 = 0 then 1
  else if e.isHv l then (if e.hvTripped (l - 188) then 1 else if 2 ≤ e.stage then 4 else 0)
  else if e.stopDemand then 2
  else if 2 ≤ e.stage then 3 else 0

/-- The restriction of a warming loop (R253). -/
def Engine.warmRestr (e : Engine) (h : Nat) : Nat :=
  let x := e.head h
  if e.allOff ∨ x.soft ∨ x.stale ∨ x.meas ∨ e.svc h = 3 ∨ e.svc h = 4 ∨ e.svc h = 6 ∨ e.get (0x2100 + h) 1 ≠ 2
     ∨ e.get (0x3100 + h) 1 = 0 then 1 else 0

/-- The restriction of a loop. -/
def Engine.restr (e : Engine) (l : Nat) : Nat := if l < 128 then e.warmRestr l else e.zoneRestr l

/-- REF cycles in the unit of a loop's minimum times (R250). -/
def loopUnit (l : Nat) : Nat := if l < 128 then refUs else refMs

/-- Drive the outputs a loop output feeds (R256, R257). -/
def Engine.driveLoop (e : Engine) (l : Nat) : Engine :=
  if l < 128 then e
  else
    let out := e.flag (0x3100 + l) 0x0C
    let r := e.get (0x3100 + l) 0x0E
    let set (e : Engine) (z : Nat) (v : Bool) : Engine := { e with ctl.hz := cellSet (fun _ => false) e.ctl.hz z v }
    if e.isHv l then
      let c := l - 188
      let e := set e (60 + c) false
      let hv (e : Engine) (v : Bool) (duty st : Nat) : Engine :=
        { ((e.put (0x3200 + c) 8 duty).put (0x3200 + c) 6 st) with ctl.hv := cellSet (fun _ => false) e.ctl.hv c v }
      if e.hvTripped c then hv e false 0 2
      else if r = 1 then hv e false 0 0
      else if r = 4 then e.put (0x3200 + c) 6 3
      else if e.get (0x3200 + c) 1 = 1 then hv e out (if out then 1000 else 0) 1
      else hv e (decide (0 < e.get (0x3200 + c) (if out then 3 else 4))) (e.get (0x3200 + c) (if out then 3 else 4)) 1
    else set e (l - 128) out

/-- Change a loop's output (R250: the minimum times count from here). -/
def Engine.setLoopOut (e : Engine) (l : Nat) (out : Bool) : Engine :=
  if e.flag (0x3100 + l) 0x0C = out then e
  else
    let e := (e.put (0x3100 + l) 0x0C (ofBool out)).wrap (0x3100 + l) 0x13 1
    e.setLoop l { e.loop l with changedAt := e.now }

/-- A sticky flag of R251. -/
def Engine.stick (e : Engine) (idx sub i : Nat) (on : Bool) : Engine :=
  if on then e.put idx sub (setBit (e.get idx sub) i true) else e

/-- The effective set-point of R249 before sat, by restriction. -/
def Engine.rawSp (e : Engine) (l r : Nat) : Int :=
  let i := 0x3100 + l
  if r = 2 then e.getI 16 i 7
  else if r = 3 then e.getI 16 i 2 - (e.get i 3 : Int) - (e.get i 4 : Int)
  else e.getI 16 i 2

/-- The measured value of a loop (R248): the head's temperature code, or the value of the zone loop's input. -/
def Engine.pvOf (e : Engine) (l : Nat) : Int :=
  if l < 128 then (e.get (0x2100 + l) 6 : Int) else e.getI 16 0x3406 (e.get (0x3100 + l) 8 + 1)

/-- The event of a loop that trace units see (R261). -/
def Engine.traceLoop (e : Engine) (l : Nat) : Engine := e.traceEvent 1 l 0 (fun _ => true)

/-- One evaluation of the switching rule (R249) with the restriction in force. A restriction resets the following-error timer
(R252). -/
def Engine.evalLoop (e : Engine) (l : Nat) : Engine :=
  let i := 0x3100 + l
  let r := e.restr l
  let pv := e.pvOf l
  let e := e.put i 0x0E r
  let e := if r = 0 then e else e.setLoop l { e.loop l with feTime := 0, feRaised := false }
  if r = 4 then e.driveLoop l
  else
    let e := e.putI 16 i 0x0D pv
    if r = 1 then ((e.setLoopOut l false).driveLoop l).traceLoop l
    else
      let raw := e.rawSp l r
      let sp := sat16 raw
      let e := e.stick i 0x11 1 (raw != sp)
      let err := sat16 (sp - pv)
      let e := e.stick i 0x11 0 (sp - pv != err)
      let e := (e.putI 16 i 0x10 sp).putI 16 i 0x0F err
      let age := e.now - (e.loop l).changedAt
      let out := e.flag i 0x0C
      let e :=
        if !out ∧ (e.get i 3 : Int) < err ∧ e.get i 6 * loopUnit l ≤ age then e.setLoopOut l true
        else if out ∧ err < -(e.get i 4 : Int) ∧ e.get i 5 * loopUnit l ≤ age then e.setLoopOut l false
        else e
      (e.driveLoop l).traceLoop l

/-- The loops whose enable entry is TRUE. -/
def Engine.enabledLoops (e : Engine) (lo n : Nat) : List Nat :=
  ((List.range n).map (· + lo)).filter (fun l => e.flag (0x3100 + l) 1)

/-- The extra evaluation after a change of restriction (R253). -/
def Engine.reEval (e : Engine) : Engine :=
  e.each (e.enabledLoops 0 192) (fun e l =>
    if e.restr l = e.get (0x3100 + l) 0x0E then e else e.evalLoop l)

end Sys2Proof.Machine
end

