-- ==== Sys2Proof/Machine/Wake.lean ====
section
/-! DEFINITION. The clock domains on bypass, a PLL beginning to lock, and the wake events that return the engine to Awake
(R331, R334, R350, R353). -/

namespace Sys2Proof.Machine

/-- Index of PLL x's entries. -/
def pllIdx (x : Nat) : Nat := 0x4281 + x

/-- The clock domains of PLL x, by their bit of 4280h:02h (R329). -/
def pllDomains (x : Nat) : List Nat := if x = 0 then [0, 1, 2] else if x = 1 then [3, 4] else [5]

/-- Put the domains of PLL x on REF, or back on the PLL. -/
def Engine.setBypass (e : Engine) (x : Nat) (on : Bool) : Engine :=
  e.put 0x4280 2 ((pllDomains x).foldl (fun v i => setBit v i on) (e.get 0x4280 2))

/-- PLL x enters state 1 (R331, R337): a band search runs, its domains on REF. -/
def Engine.pllSearch (e : Engine) (x : Nat) : Engine :=
  let e := (e.put (pllIdx x) 1 1).setBypass x true
  e.setPll x { e.pll x with searching := true, declared := false }

/-- The milliseconds of an idle state that ends are added to 4220h:08h. -/
def Engine.countIdle (e : Engine) : Engine := e.put 0x4220 8 ((e.get 0x4220 8 + (e.now - e.pwr.idleAt) / refMs) % 2 ^ 64)

/-- A wake event of the listed cause (R353): Dusk is left at once, Twilight and Night by their exit (R354), which turns the PLLs
on. -/
def Engine.wake (e : Engine) (cause : Nat) : Engine :=
  if e.idle = 0 ∨ e.pwr.waking then e
  else
    let e := e.put 0x4220 7 cause
    if e.idle = 1 then ((e.put 0x4220 1 0).countIdle).reEval
    else
      let e := e.each [0, 1, 2] (fun e x => if e.get (pllIdx x) 1 = 0 then e.pllSearch x else e)
      { e with pwr.waking := true }

end Sys2Proof.Machine
end

