-- ==== Sys2Proof/Machine/Collector.lean ====
section
/-! DEFINITION. The fault collector (R308-R326) and the reactions it applies. -/

namespace Sys2Proof.Machine

/-! Reactions on the axes and on a drop-watch run -/

/-- Put axis `a` on the stop ramp (R238): it begins in the next servo period and discards the running move. At standstill a
fault takes the axis to Fault at once, and a Halt clears ENABLE. -/
def Engine.stopAxis (e : Engine) (a : Nat) (fault halt : Bool) : Engine :=
  let i := 0x3000 + 16 * a
  let x := e.axis a
  if e.get i 1 = 0 ∨ e.get i 2 = 0 then e
  else if x.v ≠ 0 ∨ x.seg.isSome ∨ !x.plan.isEmpty then
    let x := { x with target := none, start := none, plan := [], stopNext := !x.stopping,
                      stopFault := x.stopFault || fault, clearEnable := x.clearEnable || halt }
    (e.setAxis a x).put i 2 (if e.get i 2 = 5 then 5 else 4)
  else
    let e := e.setAxis a { x with start := none, target := none, enable := x.enable && !halt }
    if fault then e.put i 2 5 else if halt ∧ e.get i 2 ≠ 5 then e.put i 2 0 else e

/-- The Halt reaction and stage 4 on every axis (R20): the stop ramp; a launched transit is stopped and its panel cut. -/
def Engine.stopAll (e : Engine) (halt : Bool) : Engine :=
  let e := e.each (List.range 8) (fun e a => e.stopAxis a false halt)
  match e.pan.flight with
  | some f => { e with pan.flight := some { f with stopped := true }, pan.cut := true }
  | none => e

/-- End a drop-watch run early with state `st` (R219); an element not reached is reported as not checked only for a head that
left service, so nothing is added here. -/
def Engine.endWatch (e : Engine) (st : Nat) : Engine :=
  if e.care.watch then { (e.put 0x3440 2 st) with care.watch := false, ctl.dwEn := [] } else e

/-! Classes and keys -/

/-- Whether axis 0 or 1 is in a launched transit (R242): until axis 0 is at rest after the last FIRE edge. -/
def Engine.inTransit (e : Engine) (a : Nat) : Bool := decide (a < 2) && (e.pan.flight.isSome || e.mot.tail)

/-- The class of a motion fault (R242). -/
def motionClass (cause : Nat) (inTransit : Bool) : Nat :=
  match cause with
  | 1 => 3
  | 2 => 4
  | 3 => if inTransit then 4 else 3
  | 4 => if inTransit then 4 else 3
  | 5 => if inTransit then 4 else 3
  | 7 => 3
  | 8 => 3
  | _ => 1

/-- The class a kind is raised with (R310); a reserved kind is Warning. -/
def Engine.classOf (e : Engine) (src kind detail : Nat) : Nat :=
  match src, kind with
  | 0x02, 0x04 => 0
  | 0x03, 0x03 => 3 | 0x03, 0x04 => 3
  | 0x04, 0x02 => 2 | 0x04, 0x03 => 2
  | 0x05, k => if 1 ≤ k ∧ k ≤ 10 then 2 else 1
  | 0x06, 0x03 => 2 | 0x06, 0x05 => 2
  | 0x07, 0x0B => 4
  | 0x07, k => if 1 ≤ k ∧ k ≤ 10 then motionClass k (e.inTransit (bits detail 39 37)) else 1
  | 0x08, 0x01 => e.get (0x3100 + bits detail 39 32) 0x0B
  | 0x08, 0x02 => 2 | 0x08, 0x03 => 3
  | 0x09, 0x01 => 3 | 0x09, 0x04 => 4 | 0x09, 0x06 => 0 | 0x09, 0x09 => 0 | 0x09, 0x0B => 4
  | 0x0A, 0x01 => 0 | 0x0A, 0x03 => 0 | 0x0A, 0x04 => 3 | 0x0A, 0x05 => 0
  | 0x0B, 0x01 => 3
  | 0x0D, 0x02 => 4
  | 0x0E, 0x01 => 0
  | 0x0F, 0x03 => 0
  | _, _ => 1

/-- The lowest DETAIL bit of a kind's key (R310, R311). -/
def keyLow (src kind : Nat) : Nat :=
  match src, kind with
  | 0x01, 0x01 => 24 | 0x01, 0x02 => 24
  | 0x03, 0x03 => 37 | 0x03, 0x04 => 37
  | 0x04, 0x04 => 33
  | 0x05, k => if 1 ≤ k ∧ k ≤ 5 then 16 else if k = 6 ∨ k = 9 ∨ k = 10 then 33 else 0
  | 0x06, k => if 1 ≤ k ∧ k ≤ 5 then 33 else 0
  | 0x07, k => if 1 ≤ k ∧ k ≤ 11 then 37 else 0
  | 0x08, k => if 1 ≤ k ∧ k ≤ 3 then 32 else 0
  | _, _ => 0

/-- The key of a message (R311). -/
def keyOf (src kind detail : Nat) : Nat := detail >>> keyLow src kind

/-- The 64-bit message (R308). -/
def message (src kind cls detail : Nat) : Nat := src * 2 ^ 56 + kind * 2 ^ 48 + cls * 2 ^ 45 + detail % 2 ^ 40

/-- The message of a log entry. -/
def LogEntry.msg (x : LogEntry) : Nat := message x.src x.kind x.cls x.detail

/-- The 32 bytes of a log entry (R320). -/
def LogEntry.bytes (x : LogEntry) : List Byte :=
  if x.lost then toLe 8 (message 0x10 0xFF 0 0) ++ List.replicate 24 0
  else toLe 8 x.msg ++ toLe 8 x.time ++ toLe 4 x.repeats ++ toLe 4 x.seq ++ toLe 4 x.shadowed ++
    toLe 1 (ofBool x.acked + 2 * ofBool x.escalated + 4 * ofBool x.autoAcked) ++ toLe 1 x.orig ++ toLe 2 x.incident

/-- The dependency set of a window (R317). A 05h:05h message while a rank migrates, and no kind of R310 for a restarting
partition, are the readings of log entry 13, DEDUCED. -/
def WinKind.has (w : WinKind) (src kind detail : Nat) : Bool :=
  let hd := detail >>> 33
  let ax := bits detail 39 37
  match w with
  | .head h =>
    (src == 5 && decide (1 ≤ kind ∧ kind ≤ 9) && hd == h) || (src == 6 && (kind == 1 || kind == 4) && hd == h) ||
      (src == 4 && kind == 1)
  | .stop =>
    (src == 5 && (decide (1 ≤ kind ∧ kind ≤ 6) || kind == 9)) || (src == 6 && kind == 1) || (src == 3 && kind == 1) ||
      (src == 7 && (kind == 1 || kind == 7) && decide (ax < 2))
  | .halt =>
    src == 5 || src == 6 || (src == 7 && (kind == 1 || kind == 2)) || (src == 8 && kind == 1) || (src == 9 && kind == 7) ||
      (src == 3 && (kind == 1 || kind == 2))
  | .pll =>
    (src == 5 && decide (1 ≤ kind ∧ kind ≤ 3)) || (src == 6 && kind == 5) || (src == 9 && kind == 7) ||
      (src == 8 && kind == 1 && decide (bits detail 39 32 < 128)) || (src == 3 && kind == 1)
  | .channel =>
    (src == 1 && kind == 1) || (src == 2 && (kind == 2 || kind == 3)) || (src == 5 && (kind == 1 || kind == 5)) ||
      (src == 4 && (kind == 2 || kind == 3)) || (src == 10 && kind == 6)
  | .migration _ _ => src == 5 && kind == 5
  | .partition _ => false
  | .stage4 =>
    (src == 7 && (kind == 1 || kind == 2)) || (src == 5 && decide (1 ≤ kind ∧ kind ≤ 3)) || (src == 9 && kind == 7)

/-! The log -/

/-- Replace the entry of sequence `s`. -/
def updLog (s : Nat) (f : LogEntry → LogEntry) : List LogEntry → List LogEntry
  | [] => []
  | x :: r => if x.seq = s then f x :: r else x :: updLog s f r

/-- Change the entry of sequence `s` of the log. -/
def Engine.onEntry (e : Engine) (s : Nat) (f : LogEntry → LogEntry) : Engine :=
  { e with flt.log := updLog s f e.flt.log }

/-- Change every open window. -/
def Engine.onWindows (e : Engine) (f : Window → Window) : Engine := { e with flt.windows := e.flt.windows.map f }

/-- The latest logged entry with this source, kind and key (R315). -/
def findSame (src kind key : Nat) (log : List LogEntry) : Option LogEntry :=
  (log.filter (fun x => x.src == src && x.kind == kind && keyOf x.src x.kind x.detail == key && !x.lossSlot)).getLast?

/-- The highest unacknowledged class, 0xFF if none (4100h:04h). -/
def highestUnacked (log : List LogEntry) : Nat :=
  match (log.filter (fun x => !x.acked)).map (·.cls) with
  | [] => 0xFF
  | cs => cs.foldl max 0

/-- The error register 1001h (R322). -/
def Engine.errReg (e : Engine) : Nat := ofBool (e.unacked 3) + 128 * ofBool (e.unacked 1)

/-- Publish the log's state in 4100h:01h, :04h and 1001h. -/
def Engine.publishLog (e : Engine) : Engine :=
  ((e.put 0x4100 1 e.flt.log.length).put 0x4100 4 (highestUnacked e.flt.log)).put 0x1001 0 e.errReg

/-- Ports that carry EMCY, heartbeat and SYNC: A, and B where it is redundant (R381). -/
def Engine.netPorts (e : Engine) : List Nat := if e.net.portB = 2 then [0, 1] else [0]

/-- Send an EMCY (R322): code, error register, 8 bytes of message; newest first in 1003h. Within the inhibit time it is
counted instead (log entry 14 gives the byte order of the frame). -/
def Engine.emcy (e : Engine) (code msg seq : Nat) : Engine :=
  let e := (List.range 7).reverse.foldl (fun e i => e.put 0x1003 (i + 2) (e.get 0x1003 (i + 1))) e
  let e := (e.put 0x1003 1 (code + seq % 65536 * 65536)).put 0x1003 0 (min 8 (e.get 0x1003 0 + 1))
  let late := match e.net.emcyAt with
    | some t => decide (e.now < t + e.get 0x1015 0 * 100 * refUs)
    | none => false
  if late then e.bump 0x4100 0x0E 1
  else
    let bs := toLe 2 code ++ toLe 1 (e.get 0x1001 0) ++ toLe 8 msg
    let e := e.each e.netPorts (fun e p => e.send (.can p (0x80 + e.net.nodeId) bs))
    { e with net.emcyAt := some e.now }

/-- The event record of a log entry (R321). -/
def Engine.logRecord (e : Engine) (x : LogEntry) : Engine :=
  let e := e.record 1 (toLe 8 x.msg ++ toLe 4 x.repeats)
  e.onEntry x.seq (fun y => { y with recorded := y.repeats })

/-- Deliver a new entry: event record, EMCY from class Warning on (R321, R322). -/
def Engine.deliver (e : Engine) (x : LogEntry) : Engine :=
  let e := e.publishLog
  let e := e.logRecord x
  if 1 ≤ x.cls then { e.emcy (0xFF00 + x.cls) x.msg x.seq with flt.emcyActive := e.flt.emcyActive || e.unacked 1 } else e

/-- The entry a new one of class `cls` may replace in a full log (R320). -/
def replaceable (cls : Nat) (log : List LogEntry) : Option Nat :=
  match log.find? (fun x => x.acked && !x.lossSlot) with
  | some x => some x.seq
  | none => if 3 ≤ cls then (log.find? (fun x => decide (x.cls ≤ 1) && !x.lossSlot)).map (·.seq) else none

/-- Count a message that is not logged: 4100h:0Ah and the loss entry (R320). -/
def Engine.logLoss (e : Engine) : Engine :=
  let e := e.bump 0x4100 0x0A 1
  match e.flt.log.find? (·.lossSlot) with
  | some x => e.onEntry x.seq (fun y => { y with repeats := satAdd 32 y.repeats 1 })
  | none =>
    let x : LogEntry := { seq := e.flt.nextSeq, src := 0x10, kind := 2, cls := 1, orig := 1, time := e.now,
                          incident := e.flt.nextSeq, lossSlot := true }
    let e := { e with flt.log := e.flt.log ++ [x], flt.nextSeq := e.flt.nextSeq + 1 }
    e.deliver x

/-- Put a new entry in the log (R320); the sequence is 0 where there is no room. -/
def Engine.store (e : Engine) (x : LogEntry) : Engine × Nat :=
  let add (e : Engine) (log : List LogEntry) : Engine × Nat :=
    ({ e with flt.log := log ++ [{ x with seq := e.flt.nextSeq }], flt.nextSeq := e.flt.nextSeq + 1 }, e.flt.nextSeq)
  if (e.flt.log.filter (fun y => !y.lossSlot)).length < 4096 then add e e.flt.log
  else
    match replaceable x.cls e.flt.log with
    | some s => add e (e.flt.log.filter (fun y => y.seq != s))
    | none => (e.logLoss, 0)

/-! Reactions (R312, R319) -/

/-- Drive FAULT_L low and start its minimum (R319). -/
def Engine.faultLLow (e : Engine) : Engine :=
  { (e.put 0x4100 9 1) with flt.faultLPin := false, flt.minimumOn := true, flt.clearPending := false }

/-- The Stop reaction, and for class 4 the Halt reaction (R312). -/
def Engine.react (e : Engine) (cls : Nat) : Engine :=
  if cls < 3 then e
  else
    let e := { e with flt.blankTransit := e.flt.blankTransit || e.pan.flight.isSome, flt.reactions := e.flt.reactions + 1 }
    let e :=
      if e.jobState = 1 ∨ e.jobState = 3 then (e.setHold 1 true).toHeld
      else if e.jobState = 2 then { e with flt.stopHold := true } else e
    let e := (e.faultLLow).signal 35
    let e := e.endWatch 3
    let e := e.each [0, 1, 2, 3] (fun e u =>
      if e.get (traceIdx u) 7 = 4 then e.traceTrig u else e)
    let e := if cls = 4 then (e.stopAll true).refreshSr else e
    e.reEval

/-! Windows (R317) -/

/-- Open a window. -/
def Engine.openWindow (e : Engine) (k : WinKind) (cls seq : Nat) (ended : Bool) : Engine :=
  { e with flt.windows := e.flt.windows ++ [{ id := e.flt.nextWindow, kind := k, cls := cls, seq := seq, ended := ended }],
           flt.nextWindow := e.flt.nextWindow + 1 }

/-- Mark the end condition of every window that `p` names (R317); the extension then runs. -/
def Engine.endWindows (e : Engine) (p : WinKind → Bool) : Engine :=
  e.onWindows (fun w => if p w.kind then { w with ended := true } else w)

/-- Close the windows that `p` names: their end has no extension (R317). -/
def Engine.closeWindows (e : Engine) (p : WinKind → Bool) : Engine :=
  { e with flt.windows := e.flt.windows.filter (fun w => !p w.kind) }

/-- The windows an entry of this message opens (R317). -/
def Engine.openWindows (e : Engine) (src kind detail cls seq : Nat) : Engine :=
  let h := detail >>> 33
  let e := if cls = 4 then e.openWindow .halt cls seq false else if cls = 3 then e.openWindow .stop cls seq e.pan.flight.isNone else e
  if (src = 5 ∧ kind = 10) ∨ (src = 6 ∧ kind = 3) ∨ (src = 6 ∧ kind = 5) ∨ (src = 5 ∧ kind = 9 ∧ (e.svc h = 3 ∨ e.svc h = 4)) then
    e.openWindow (.head h) cls seq false
  else if src = 0x0C ∧ kind = 1 then e.openWindow .pll cls seq false
  else if src = 9 ∧ kind = 1 then e.openWindow .channel cls seq false
  else if src = 9 ∧ kind = 5 then e.openWindow (.migration (bits detail 39 38) (bits detail 37 36)) cls seq false
  else if src = 0x0B ∧ kind = 1 then e.openWindow (.partition (detail % 4)) cls seq false
  else if src = 0x0D ∧ kind = 1 ∧ detail = 4 then e.openWindow .stage4 cls seq false
  else e

/-- The window a message falls into, the first opened (R317): its class is no higher than the window's. -/
def Engine.shadowing (e : Engine) (src kind detail cls : Nat) : Option Window :=
  e.flt.windows.find? (fun w => decide (cls ≤ w.cls) && w.kind.has src kind detail)

/-! Taking a message (R313-R317) -/

/-- Accumulate the panel fault record (R324). -/
def Engine.panelCount (e : Engine) (cls msg seq : Nat) : Engine :=
  if e.flt.counting then
    { e with flt.panelCls := cellSet (fun _ => 0) e.flt.panelCls cls (cellGet (fun _ => 0) e.flt.panelCls cls + 1),
             flt.panelMsg := if 2 ≤ cls ∧ e.flt.panelMsgSeq = 0 then msg else e.flt.panelMsg,
             flt.panelMsgSeq := if 2 ≤ cls ∧ e.flt.panelMsgSeq = 0 then seq else e.flt.panelMsgSeq,
             flt.panelFirst := if e.flt.panelFirst = 0 then seq else e.flt.panelFirst, flt.panelLast := seq }
  else e

/-- A message that agrees with a logged one (R315): counted into that entry; a Stop or Halt repeat clears its
acknowledgement, and its reaction acts again. -/
def Engine.takeRepeat (e : Engine) (x : LogEntry) (src kind detail : Nat) : Engine :=
  let again := decide (3 ≤ x.cls)
  let e := e.onEntry x.seq (fun y =>
    { y with repeats := satAdd 32 y.repeats 1, acked := y.acked && !again, autoAcked := y.autoAcked && !again })
  let e := e.put 0x4100 0x0D x.msg
  let e := e.openWindows src kind detail x.cls x.seq
  (e.react x.cls).publishLog

/-- A shadowed message (R317). -/
def Engine.takeShadowed (e : Engine) (w : Window) : Engine :=
  let e := (e.bump 0x4100 0x0C 1).onEntry w.seq (fun y => { y with shadowed := satAdd 32 y.shadowed 1 })
  { e with flt.panelShadow := if e.flt.counting then satAdd 32 e.flt.panelShadow 1 else e.flt.panelShadow }

/-- A message that is neither a repeat nor shadowed: escalated where an unacknowledged message of its class stands in another
incident (R314), logged, its reaction applied, delivered. -/
def Engine.takeNew (e : Engine) (src kind detail orig : Nat) (inc : Option Incident) (cls0 : Nat) : Engine :=
  let esc := inc.isNone && decide (orig < 4) && e.flt.log.any (fun x => !x.acked && x.cls == orig)
  let cls := if esc then orig + 1 else cls0
  let e := if esc then { (e.bump 0x4100 0x0B 1) with
    flt.panelEsc := if e.flt.counting then satAdd 16 e.flt.panelEsc 1 else e.flt.panelEsc } else e
  let msg := message src kind cls detail
  let auto := decide (cls ≤ 1) && bit (e.get 0x4100 7) cls
  let first := match inc with | some i => i.seq | none => e.flt.nextSeq
  let x : LogEntry := { src := src, kind := kind, cls := cls, orig := orig, detail := detail % 2 ^ 40, time := e.now,
                        escalated := cls != orig, acked := auto, autoAcked := auto, ackTime := e.now,
                        incident := first }
  let (e, seq) := (e.put 0x4100 0x0D msg).store x
  let e : Engine := match inc with
    | some _ => e
    | none => { e with flt.incidents := e.flt.incidents ++ [{ seq := seq, src := src, orig := orig, cls := cls }] }
  let e := e.openWindows src kind detail cls seq
  let e := e.react cls
  if seq = 0 then e.publishLog else (e.panelCount cls msg seq).deliver { x with seq := seq }

/-- A message that repeats no entry: shadowed, or a new entry. -/
def Engine.takeFresh (e : Engine) (src kind detail orig : Nat) : Engine :=
  let inc := e.flt.incidents.find? (fun i => i.src == src && i.orig == orig)
  let cls := match inc with | some i => i.cls | none => orig
  match e.shadowing src kind detail cls with
  | some w => (e.put 0x4100 0x0D (message src kind cls detail)).takeShadowed w
  | none => e.takeNew src kind detail orig inc cls

/-- The collector takes a fault message (R313-R322): a repeat of a logged entry (R315), or a fresh message. One of class Warning
or above wakes the engine (R353). -/
def Engine.raise (e : Engine) (src kind detail : Nat) : Engine :=
  let orig := e.classOf src kind detail
  let e := if 1 ≤ orig then e.wake 6 else e
  match findSame src kind (keyOf src kind (detail % 2 ^ 40)) e.flt.log with
  | some x =>
    if !x.acked ∨ e.now ≤ x.ackTime + e.get 0x4100 6 * refMs then e.takeRepeat x src kind detail
    else e.takeFresh src kind detail orig
  | none => e.takeFresh src kind detail orig

/-! DETAIL layouts (R311) -/

/-- Layout H. -/
def detailH (h field line : Nat) : Nat := h * 2 ^ 33 + field % 65536 * 65536 + line % 65536
/-- Layout B. -/
def detailB (bank v : Nat) : Nat := bank * 2 ^ 37 + v % 2 ^ 36
/-- Layout A. -/
def detailA (a : Nat) (pos : Int) : Nat := a * 2 ^ 37 + unsigned 32 pos
/-- Layout P. -/
def detailP (l : Nat) (pv : Int) : Nat := l * 2 ^ 32 + unsigned 16 pv
/-- Layout CX. -/
def detailCX (c cause sub resume : Nat) : Nat := c * 2 ^ 32 + cause * 2 ^ 28 + sub * 2 ^ 24 + resume % 2 ^ 24
/-- Layout G. -/
def detailG (g addr : Nat) : Nat := g * 2 ^ 37 + addr % 2 ^ 31
/-- Layout M for channel and rank kinds. -/
def detailM (ch rank addr : Nat) : Nat := ch * 2 ^ 38 + rank * 2 ^ 36 + addr % 2 ^ 36
/-- Layout L (R173). -/
def detailL (h cause t line : Nat) : Nat := h * 2 ^ 33 + cause * 2 ^ 30 + t % 16384 * 65536 + line % 65536
/-- Layout T. -/
def detailT (h s line : Nat) : Nat := h * 2 ^ 33 + s * 2 ^ 28 + line % 65536

/-- Store bytes in DRAM; a partial write to a BAD line is discarded, counted and raised as a Warning (R270). -/
def Engine.dramStore (e : Engine) (a : Nat) (bs : List Byte) : Engine :=
  let lost := e.badPartial a bs.length
  let e := e.dramWrite a bs
  match lost with
  | some l => e.raise 9 0x0A (64 * l)
  | none => e

/-- A demand may have been released (R318): hold causes follow R52 at command 3; loops and DRAM follow at once. -/
def Engine.release (e : Engine) : Engine := (e.refreshSr).reEval

/-- An entry acknowledged at `t` if `p` names it and it is not yet. -/
def ackEntry (t : Nat) (p : LogEntry → Bool) (x : LogEntry) : LogEntry :=
  if !x.acked && p x then { x with acked := true, ackTime := t } else x

/-- Acknowledge the entries `p` names (R318): their counts are recorded once more if they changed (R321); windows of
acknowledged Halts end; when nothing of class Warning or above is left, EMCY 0000h (R322). -/
def Engine.acknowledge (e : Engine) (p : LogEntry → Bool) : Engine :=
  let hit := e.flt.log.filter (fun x => !x.acked && p x)
  let e := hit.foldl (fun e x => if x.repeats = x.recorded then e else e.logRecord x) e
  let e := { e with flt.log := e.flt.log.map (ackEntry e.now p) }
  let e : Engine := e.onWindows (fun w => if w.kind = .halt ∧ hit.any (fun x => x.seq == w.seq) then { w with ended := true } else w)
  let e := e.publishLog
  let e : Engine := if e.flt.emcyActive && !e.unacked 1 then { e.emcy 0 0 0 with flt.emcyActive := false } else e
  e.release

/-- The following-error supervision of a timed evaluation (R252): the interval is the time since the last one. -/
def Engine.supervise (e : Engine) (l : Nat) : Engine :=
  let i := 0x3100 + l
  let x := e.loop l
  let lim := e.get i 9
  let err := e.getI 16 i 0x0F
  let y := { x with lastEval := e.now, spWritten := false }
  if e.get i 0x0E ≠ 0 ∨ lim = 0 ∨ x.spWritten ∨ min 32767 err.natAbs ≤ lim then
    (e.setLoop l { y with feTime := 0, feRaised := false }).stick i 0x11 0 (e.get i 0x0E == 0 && err == -32768)
  else
    let t := x.feTime + (e.now - x.lastEval)
    let e := e.stick i 0x11 0 (err == -32768)
    if x.feRaised then e.setLoop l y
    else if e.get i 0x0A * refMs ≤ t then
      (e.setLoop l { y with feTime := t, feRaised := true }).raise 8 1 (detailP l (e.getI 16 i 0x0D))
    else e.setLoop l { y with feTime := t }

/-- A timed evaluation of a loop: the rule of R249, then its supervision. -/
def Engine.evalTimed (e : Engine) (l : Nat) : Engine := (e.evalLoop l).supervise l

end Sys2Proof.Machine
end

