-- ==== Sys2Proof/Machine/Intake.lean ====
section
/-! DEFINITION. Stream contexts as intake sees them (R70-R74) and the host DMA channels (R61-R69). -/

namespace Sys2Proof.Machine

/-! Contexts -/

/-- The dictionary index of context `c`. -/
def ctxIdx (c : Nat) : Nat := 0x2300 + c

/-- 23xxh:02h: 0 Closed, 1 Open, 2 Ended, 3 Fault. -/
def Engine.ctxState (e : Engine) (c : Nat) : Nat := e.get (ctxIdx c) 2

/-- The DRAM address of stream offset `o` in the ring of context `c`. -/
def Engine.ringAddr (e : Engine) (c o : Nat) : Nat := e.get (ctxIdx c) 0x0A + o % e.get (ctxIdx c) 0x0B

/-- Bytes of context `c`'s ring at stream offset `o`. -/
def Engine.ringBytes (e : Engine) (c o n : Nat) : List Byte := (List.range n).map (fun i => e.dramByte (e.ringAddr c (o + i)))

/-- Free bytes of the ring. -/
def Engine.ringRoom (e : Engine) (c : Nat) : Nat := e.get (ctxIdx c) 0x0B - ((e.ctx c).wpos - (e.ctx c).rpos)

/-- A context goes to Ended when its LAST block has passed, provided it is Open (R74). -/
def Engine.ctxEnd (e : Engine) (c : Nat) : Engine :=
  if e.ctxState c = 1 ∧ (e.ctx c).lastPassed then
    ((e.put (ctxIdx c) 2 2).contextRecord c 2 0 (e.get (ctxIdx c) 0x0E)).signal 34
  else e

/-- A context enters Fault (R74): ring bytes from the failing block on are discarded, the resume offset is set, a Warning is
raised and a context event record written. -/
def Engine.ctxFault (e : Engine) (c cause sub resume : Nat) : Engine :=
  let x := e.ctx c
  let e := e.setCtx c { x with wpos := resume, hpos := resume, blocks := x.blocks.filter (fun b => decide (b.off < resume)),
                               rpos := min x.rpos resume, lastEnd := x.lastEnd.filter (fun l => decide (l ≤ resume)) }
  let e := ((e.put (ctxIdx c) 2 3).put (ctxIdx c) 0x0F cause).put (ctxIdx c) 0x0E resume
  let e := if cause = 1 ∨ cause = 2 then e.bump (ctxIdx c) 0x11 1 else e
  let e := e.raise 1 1 (detailCX c cause sub resume)
  (e.contextRecord c 3 cause resume).signal 34

/-- Store intake bytes into the ring; whole lines come from on chip, so a line's earlier state does not matter (R302). -/
def Engine.intakeStore (e : Engine) (c : Nat) : Nat → List Byte → Engine
  | _, [] => e
  | o, b :: r =>
    let a := e.ringAddr c o
    Engine.intakeStore (e.storeLines a [b] (a / 64) (a / 64 + 1)) c (o + 1) r

/-- Parse the headers that have arrived (R73): at most `fuel` blocks. -/
def Engine.intakeParse (e : Engine) (c : Nat) : Nat → Engine
  | 0 => e
  | fuel + 1 =>
    let x := e.ctx c
    match x.lastEnd with
    | some l => if l < x.wpos then e.ctxFault c 6 0 l else e
    | none =>
      if x.wpos < x.hpos + 16 then e
      else
        let hd := e.ringBytes c x.hpos 16
        let coded := le (hd.drop 8 |>.take 4)
        if le (hd.drop 2 |>.take 1) ≠ c then e.ctxFault c 3 0 x.hpos
        else if e.get (ctxIdx c) 0x0B < 16 + coded then e.ctxFault c 4 0 x.hpos
        else if x.wpos < x.hpos + 16 + coded then e
        else
          let fin := x.hpos + 16 + coded
          let x := { x with blocks := x.blocks ++ [{ off := x.hpos, len := 16 + coded }], hpos := fin,
                            lastEnd := if bit (le (hd.drop 1 |>.take 1)) 1 then some fin else none }
          Engine.intakeParse (e.setCtx c x) c fuel

/-- Bytes for an Open context enter its ring in stream order (R73). -/
def Engine.intake (e : Engine) (c : Nat) (bs : List Byte) : Engine :=
  let x := e.ctx c
  let e := e.intakeStore c x.wpos bs
  (e.setCtx c { x with wpos := x.wpos + bs.length }).intakeParse c (bs.length + 2)

/-! Descriptors -/

/-- A descriptor read from its 32 bytes (R62). -/
def parseDesc (bs : List Byte) : Desc :=
  { src := le (bs.take 8), dst := le ((bs.drop 8).take 8), count := le ((bs.drop 16).take 4),
    ctrl := le ((bs.drop 20).take 4), next := le ((bs.drop 24).take 8) }

/-- KIND of a descriptor. -/
def Desc.kind (d : Desc) : Nat := bits d.ctrl 27 24

/-- END, IRQ and DIR of a descriptor. -/
def Desc.fin (d : Desc) : Bool := bit d.ctrl 31
def Desc.irq (d : Desc) : Bool := bit d.ctrl 30
def Desc.toHost (d : Desc) : Bool := bit d.ctrl 29

/-- The check of a descriptor before any data moves (R65 errors 4, 5, 7): code, and the DRAM address of error 5. -/
def Engine.descError (e : Engine) (ch : Nat) (d : Desc) : Option (Nat × Nat) :=
  if 3 < d.kind ∨ bit d.ctrl 28 ∨ d.ctrl % 65536 ≠ 0 ∨ (d.toHost ∧ d.kind ≠ 0) then some (4, 0)
  else if d.kind = 1 then
    if 256 ≤ d.dst ∨ d.dst % 256 ≠ bits d.ctrl 23 16 ∨ e.get (ctxIdx (d.dst % 256)) 4 ≠ ch then some (7, 0) else none
  else if d.kind = 2 ∧ (d.dst % 64 ≠ 0 ∨ d.count % 64 ≠ 0) then some (5, d.dst)
  else if d.count ≠ 0 ∧ !e.inDram d.dst d.count then some (5, max d.dst e.mem.usable)
  else none

/-! Channels -/

/-- Signal vector 2 + d for an event bit that went from 0 to 1 (R76). -/
def Engine.dmaIrq (e : Engine) (d : Nat) (was : Bool) : Engine :=
  if (e.dma d).irqEn && !was && decide (d < 32) then e.signal (2 + d) else e

/-- The channel enters ERROR (R65). -/
def Engine.dmaError (e : Engine) (d code addr : Nat) : Engine :=
  let x := e.dma d
  (e.setDma d { x with st := .error, errorEvt := true, errCode := code, errAddr := addr, waiting := false, fetching := none,
                       rereading := false }).dmaIrq d x.errorEvt

/-- The channel parks in STOPPED (R66); a latched doorbell is discarded. -/
def Engine.dmaStopped (e : Engine) (d : Nat) : Engine :=
  let x := e.dma d
  (e.setDma d { x with st := .stopped, stoppedEvt := true, fetching := none, rereading := false, dbPending := false,
                       waiting := false, exec := none }).dmaIrq d x.stoppedEvt

/-- The channel parks in AT_END (R66). -/
def Engine.dmaAtEnd (e : Engine) (d : Nat) : Engine :=
  let x := e.dma d
  (e.setDma d { x with st := .atEnd, atEndEvt := true, rereading := false }).dmaIrq d x.atEndEvt

/-- Fetch the descriptor at `a` (R62): error 1 if it is not aligned. -/
def Engine.dmaFetch (e : Engine) (d a : Nat) : Engine :=
  if a % 32 ≠ 0 then (e.setDma d { e.dma d with cur := a }).dmaError d 1 a
  else (e.setDma d { e.dma d with st := .running, fetching := some a, rereading := false }).send (.hostRead a 32)

/-- Re-read CTRL and NEXT of the descriptor at CUR (R67). -/
def Engine.dmaReread (e : Engine) (d : Nat) : Engine :=
  let x := e.dma d
  (e.setDma d { x with rereading := true, dbPending := false }).send (.hostRead (x.cur + 0x14) 12)

/-- Bytes of the next burst of a descriptor (R64, R70). -/
def burstLen (remain : Nat) : Nat := min 4096 remain

/-- The request of a peripheral-paced descriptor (R70): the ring has room for the whole burst. -/
def Engine.intakeReady (e : Engine) (c remain : Nat) : Bool := decide (burstLen remain ≤ e.ringRoom c)

/-- Begin executing a descriptor (R64, R73): bytes for a context that is not Open are skipped and counted. -/
def Engine.dmaExec (e : Engine) (d : Nat) (desc : Desc) : Engine :=
  let x := e.dma d
  let c := desc.dst % 256
  if desc.kind = 1 ∧ e.ctxState c ≠ 1 then
    (e.setDma d { x with exec := some desc, remain := 0, fetching := none, waiting := false }).bump (ctxIdx c) 0x10 desc.count
  else
    e.setDma d { x with exec := some desc, remain := desc.count, fetching := none,
                        waiting := desc.kind == 1 && !e.intakeReady c desc.count }

/-- START (R63). -/
def Engine.dmaGo (e : Engine) (d : Nat) : Engine :=
  let x := e.dma d
  if x.st = .idle ∨ x.st = .stopped then
    let y := { x with st := .running, doneCount := 0, dbPending := false, direct := !x.chain }
    if x.chain then (e.setDma d y).dmaFetch d x.desc
    else
      let desc : Desc := { src := x.src, dst := x.dst, count := x.count, ctrl := x.mode % 2 ^ 31, next := 0 }
      let e := e.setDma d { y with cur := 0 }
      match e.descError d desc with
      | some (code, a) => e.dmaError d code (if code = 5 then a else 0)
      | none => e.dmaExec d desc
  else e.setDma d { x with startIgnored := true }

/-- STOP (R66): at the next boundary; at once from AT_END and while a descriptor is being read. -/
def Engine.dmaHalt (e : Engine) (d : Nat) : Engine :=
  let x := e.dma d
  match x.st with
  | .running => if x.fetching.isSome || x.rereading then e.dmaStopped d else e.setDma d { x with st := .stopping }
  | .atEnd => e.dmaStopped d
  | _ => e

/-- DOORBELL (R67). -/
def Engine.dmaBell (e : Engine) (d : Nat) : Engine :=
  let x := e.dma d
  match x.st with
  | .atEnd => if x.rereading then e.setDma d { x with dbPending := true } else e.dmaReread d
  | .running => e.setDma d { x with dbPending := true }
  | .stopping => e.setDma d { x with dbPending := true }
  | _ => e

/-- RESET (R61): from ERROR or STOPPED to IDLE, STATUS cleared. -/
def Engine.dmaClear (e : Engine) (d : Nat) : Engine :=
  let x := e.dma d
  if x.st = .error ∨ x.st = .stopped then
    e.setDma d { x with st := .idle, dbPending := false, waiting := false, done := false, atEndEvt := false, stoppedEvt := false,
                        errorEvt := false, errCode := 0, startIgnored := false, exec := none }
  else e

/-- The effect of the RESET, START, STOP and DOORBELL bits of one write, in that order (R61). -/
def Engine.dmaControl (e : Engine) (d v : Nat) : Engine :=
  let e := e.setDma d { e.dma d with chain := bit v 8, irqEn := bit v 9 }
  let e := if bit v 3 then e.dmaClear d else e
  let e := if bit v 0 then e.dmaGo d else e
  let e := if bit v 1 then e.dmaHalt d else e
  if bit v 2 then e.dmaBell d else e

/-- A descriptor read completes (R62, R65). -/
def Engine.dmaFetched (e : Engine) (d : Nat) (reply : Option (List Byte)) : Engine :=
  let x := e.dma d
  match x.fetching with
  | none => e
  | some a =>
    let e := e.setDma d { x with cur := a, fetching := none }
    match reply with
    | none => e.dmaError d 1 a
    | some bs =>
      let desc := parseDesc bs
      match e.descError d desc with
      | some (code, b) => e.dmaError d code (if code = 5 then b else a)
      | none => e.dmaExec d desc

/-- The first position at which two byte strings differ. -/
def firstDiff : Nat → List Byte → List Byte → Option Nat
  | _, [], _ => none
  | _, _, [] => none
  | i, a :: r, b :: s => if a = b then firstDiff (i + 1) r s else some i

/-- One pattern byte of a FILL at DRAM address `a` (R64). -/
def fillByte (pattern a : Nat) : Byte := BitVec.ofNat 8 (pattern >>> (8 * (a % 8)))

/-- Data of a burst moves: `n` bytes of descriptor `desc` from position `p` on (R64, R65). -/
def Engine.dmaMove (e : Engine) (d : Nat) (desc : Desc) (p n : Nat) (data : List Byte) : Engine :=
  let step (e : Engine) : Engine := e.setDma d { e.dma d with remain := desc.count - p - n }
  let a := desc.dst + p
  if desc.kind = 2 then (step e).dramWrite a ((List.range n).map (fun i => fillByte desc.src (a + i)))
  else if desc.kind = 3 then
    match e.busError a n with
    | some _ => e.dmaError d 3 a
    | none =>
      match firstDiff 0 (data.take n) ((List.range n).map (fun i => e.dramByte (a + i))) with
      | some i => e.dmaError d 6 (a + i)
      | none => step e
  else if desc.toHost then
    match e.dramRead a n with
    | none => e.dmaError d 3 a
    | some bs => (step e).send (.hostWrite (desc.src + p) bs)
  else (step e).dramStore a (data.take n)

/-- An INTAKE burst arrives (R69, R70, R73): once the context has left Open the rest of the descriptor is skipped. -/
def Engine.dmaIntake (e : Engine) (d : Nat) (desc : Desc) (p n late : Nat) (data : List Byte) : Engine :=
  let c := desc.dst % 256
  let left := desc.count - p - n
  if e.ctxState c = 1 then
    let e := e.intake c (data.take n)
    let x := e.dma d
    if e.ctxState c = 1 then
      e.setDma d { x with remain := left, waiting := decide (left ≠ 0) && !e.intakeReady c left }
    else (e.setDma d { x with remain := 0, waiting := false }).bump (ctxIdx c) 0x10 left
  else
    let x := e.dma d
    (e.setDma d { x with remain := 0, waiting := false, surplus := satAdd 32 x.surplus late }).bump (ctxIdx c) 0x10 left

/-- A burst finishes (R64, R65). -/
def Engine.dmaBurst (e : Engine) (d : Nat) (data : List Byte) (late : Nat) (status : BurstStatus) : Engine :=
  let x := e.dma d
  match x.exec with
  | none => e
  | some desc =>
    let p := desc.count - x.remain
    let n := min data.length (burstLen x.remain)
    match status with
    | .hostError => e.dmaError d 2 (desc.src + p)
    | .dramError => e.dmaError d 3 (desc.dst + p)
    | .ok =>
      if desc.kind = 1 then e.dmaIntake d desc p n late data
      else e.dmaMove d desc p n data

/-- The completion of a descriptor (R64, R66, R67). -/
def Engine.dmaComplete (e : Engine) (d : Nat) : Engine :=
  let x := e.dma d
  match x.exec with
  | none => e
  | some desc =>
    if x.remain ≠ 0 ∨ (x.st ≠ .running ∧ x.st ≠ .stopping) then e
    else
      let e := (e.setDma d { x with exec := none, doneCount := (x.doneCount + 1) % 2 ^ 32, done := x.done || desc.irq })
      let e := if desc.irq then e.dmaIrq d x.done else e
      if x.st = .stopping then e.dmaStopped d
      else if x.direct then e.setDma d { e.dma d with st := .idle }
      else if desc.fin then (if x.dbPending then e.dmaReread d else e.dmaAtEnd d)
      else e.dmaFetch d desc.next

/-- The re-read of the tail returns (R67). -/
def Engine.dmaReread2 (e : Engine) (d : Nat) (reply : Option (List Byte)) : Engine :=
  let x := e.dma d
  if !x.rereading then e
  else
    let e := e.setDma d { x with rereading := false }
    match reply with
    | none => e.dmaError d 1 x.cur
    | some bs =>
      if bit (le (bs.take 4)) 31 then
        if x.dbPending then e.dmaReread d else if x.st = .atEnd then e else e.dmaAtEnd d
      else e.dmaFetch d (le ((bs.drop 4).take 8))

/-- A withdrawn request returns (R69). -/
def Engine.dmaRequestBack (e : Engine) (d : Nat) : Engine :=
  let x := e.dma d
  match x.exec with
  | none => e.setDma d { x with waiting := false }
  | some desc =>
    if desc.kind = 1 ∧ e.ctxState (desc.dst % 256) ≠ 1 then
      (e.setDma d { x with remain := 0, waiting := false }).bump (ctxIdx (desc.dst % 256)) 0x10 x.remain
    else if desc.kind = 1 ∧ !e.intakeReady (desc.dst % 256) x.remain then e
    else e.setDma d { x with waiting := false }

end Sys2Proof.Machine
end

