-- ==== Sys2Proof/Machine/Geometry.lean ====
section
/-! DEFINITION. Where pixels lie: swath rows and elements (R132, R133), the interlace (R134, R135), the store (R122-R124), and
the DRAM regions that must not overlap (R71, R109, R124, R225, R262). -/

namespace Sys2Proof.Machine

/-! Interlace -/

/-- A(m): the sum of the first m media advances (R134). -/
def advSum (h p m : Nat) : Nat := m / p * h + m % p * h / p

/-- a[j] (R134). -/
def advance (h p j : Nat) : Nat := (j + 1) * h / p - j * h / p

/-- The largest advance B (R122). -/
def largestAdvance (h p : Nat) : Nat := ((List.range p).map (advance h p)).foldl max 0

/-- i0(y): the first transit that covers media row y (R135). -/
def firstCover (h p y : Nat) : Nat :=
  match firstIdx (fun r => decide (y % h < (r + 1) * h / p)) (List.range p) with
  | some r => y / h * p + r
  | none => y / h * p + p

/-- Swath height for a stitch overlap (R132). -/
def swathHeight (o : Nat) : Nat := 16 * 2048 - 15 * o

/-- Primary and partner element (head position, element) of swath row u (R133). -/
def elementsOf (o u : Nat) : (Nat × Nat) × Option (Nat × Nat) :=
  let stp := 2048 - o
  let q := min (u / stp) 15
  let n := u - q * stp
  let (q, n) := if 0 < q ∧ n < o / 2 then (q - 1, n + stp) else (q, n)
  ((q, n), if stp ≤ n ∧ q < 15 then some (q + 1, n - stp) else if n < o ∧ 0 < q then some (q - 1, n + stp) else none)

/-- Swath row of element n at head position q. -/
def swathRow (o q n : Nat) : Nat := q * (2048 - o) + n

/-- Y(t) of the job (R134). -/
def Panels.topRow (p : Panels) (t : Nat) : Nat := advSum p.resH p.resP (t + 1) - 1

/-- The media rows that enter the swath at transit t: first row, and one past the last (R144). -/
def Panels.entering (p : Panels) (t : Nat) : Nat × Nat := (advSum p.resH p.resP t, advSum p.resH p.resP (t + 1))

/-- The media rows whose last pass transit t prints: first row, and one past the last (R104, R135). -/
def Panels.leaving (p : Panels) (t : Nat) : Nat × Nat :=
  if t + 1 < p.resP then (0, 0) else (advSum p.resH p.resP (t + 1 - p.resP), advSum p.resH p.resP (t + 2 - p.resP))

/-- Block rows no later transit covers once transit t has ended (R129). -/
def Panels.releasedAfter (p : Panels) (t : Nat) : Nat := (p.leaving t).2 / 64

/-! The store -/

/-- Print width in columns (R122). -/
def widthColumns (um dpi : Nat) : Nat := um * dpi / 25400

/-- W: of the job, or in Idle of the parameters as they stand. -/
def Engine.jobW (e : Engine) : Nat := if e.jobState = 0 then widthColumns (e.get 0x2200 8) (e.get 0x2200 5) else e.pan.resW

/-- Number of slots (R124). -/
def Panels.slots (p : Panels) : Nat := popcount 8 p.banks * p.resNbr * p.resNbx

/-- The slot of block (bx, by) of bank b (R123). -/
def Panels.slot (p : Panels) (b bx by_ : Nat) : Nat :=
  (popcount b (p.banks % 2 ^ b) * p.resNbr + by_ % p.resNbr) * p.resNbx + bx

/-- GEN of block row by (R123). -/
def Panels.gen (p : Panels) (by_ : Nat) : Nat := by_ / p.resNbr % 8

def Panels.slotAddr (p : Panels) (slot : Nat) : Nat := p.storeBase + slot * 1024
def Panels.tagAddr (p : Panels) (slot : Nat) : Nat := p.tagBase + slot * 4
def Panels.countAddr (p : Panels) (slot : Nat) : Nat := p.countBase + slot * 2

/-- The tag word of a slot, or `none` on a bus error. -/
def Engine.tagOf (e : Engine) (slot : Nat) : Option Nat := (e.dramRead (e.pan.tagAddr slot) 4).map le

/-! Regions -/

/-- The ring of context c. -/
def Engine.ctxRing (e : Engine) (c : Nat) : Nat × Nat := (e.get (ctxIdx c) 0x0A, e.get (ctxIdx c) 0x0B)

/-- Rings of Open contexts other than c. -/
def Engine.openRings (e : Engine) (c : Nat) : List (Nat × Nat) :=
  ((List.range 256).filter (fun i => i != c && e.ctxState i == 1)).map e.ctxRing

/-- The proof ring (R106). -/
def Engine.proofRing (e : Engine) : Nat × Nat := (e.get 0x2471 4, e.get 0x2471 5)

/-- The fire-count table, if there is one (R225). -/
def Engine.fireTable (e : Engine) : List (Nat × Nat) := if e.get 0x3460 2 = 0 then [] else [(e.get 0x3460 2, 0x100000)]

/-- The rings of armed trace units other than u (R262). -/
def Engine.traceRings (e : Engine) (u : Nat) : List (Nat × Nat) :=
  ((List.range 4).filter (fun i => i != u && (e.get (0x3210 + i) 2 == 1 || e.get (0x3210 + i) 2 == 2))).map
    (fun i => (e.get (0x3210 + i) 0x0A, e.get (0x3210 + i) 0x0B))

/-- The store, tag and count regions of a geometry (R124). -/
def Panels.regions (p : Panels) : List (Nat × Nat) :=
  [(p.storeBase, p.slots * 1024), (p.tagBase, p.slots * 4), (p.countBase, p.slots * 2)]

/-- The geometry that job command 1 would fix (R122, R124), from the entries as they stand. -/
def Engine.formStore (e : Engine) : Panels :=
  let w := widthColumns (e.get 0x2200 8) (e.get 0x2200 5)
  let h := swathHeight (e.get 0x2500 1)
  let p := e.get 0x2200 6
  let b := largestAdvance h p
  { e.pan with resW := w, resNbx := ceilDiv w 64, resH := h, resB := b, resNbr := ceilDiv (h + b) 64 + 1, resP := p,
               resDpi := e.get 0x2200 5, bidir := e.flag 0x2200 7, banks := e.get 0x2430 4, storeBase := e.get 0x2430 1,
               tagBase := e.get 0x2430 2, countBase := e.get 0x2430 3, overlap := e.get 0x2500 1 }

/-- The store's regions while the job is not Idle. -/
def Engine.storeRegions (e : Engine) : List (Nat × Nat) := if e.jobState = 0 then [] else e.pan.regions

/-- Whether [a, a+n) overlaps one of the regions. -/
def clash (a n : Nat) (rs : List (Nat × Nat)) : Bool := rs.any (fun r => overlap a n r.1 r.2)

/-! The coverage frontier (R113) -/

/-- The next media row expected at column x. -/
def rowAtCol (x : Nat) : List Span → Nat
  | [] => 0
  | s :: r => if s.x ≤ x ∧ x < s.x + s.n then s.row else rowAtCol x r

/-- The intervals outside [x, x+n). -/
def cutSpans (x n : Nat) : List Span → List Span
  | [] => []
  | s :: r =>
    let left := if s.x < x then [{ s with n := min s.n (x - s.x) }] else []
    let right := if x + n < s.x + s.n then [{ s with x := max s.x (x + n), n := s.x + s.n - max s.x (x + n) }] else []
    (left ++ right).filter (fun y => y.n != 0) ++ cutSpans x n r

/-- Insert an interval by its first column. -/
def insSpan (s : Span) : List Span → List Span
  | [] => [s]
  | y :: r => if s.x < y.x then s :: y :: r else y :: insSpan s r

/-- Join neighbours that hold the same row. -/
def joinSpans : List Span → List Span
  | [] => []
  | s :: r =>
    match joinSpans r with
    | [] => [s]
    | y :: q => if s.x + s.n = y.x ∧ s.row = y.row then { s with n := s.n + y.n } :: q else s :: y :: q

/-- The frontier with [x, x+n) set to `row`; columns at row 0 are not listed. -/
def setSpan (x n row : Nat) (fr : List Span) : List Span :=
  let rest := cutSpans x n fr
  joinSpans (if row = 0 ∨ n = 0 then rest else insSpan { x := x, n := n, row := row } rest)

/-- Frontier of bank b. -/
def Engine.frontier (e : Engine) (b : Nat) : List Span := cellGet (fun _ => []) e.sup.frontier b

/-- The column ranges that Open contexts of bank b hold. -/
def Engine.heldCols (e : Engine) (b : Nat) : List (Nat × Nat) :=
  ((List.range 256).filter (fun c => e.ctxState c == 1 && e.get (ctxIdx c) 3 == b)).map
    (fun c => (e.get (ctxIdx c) 5, e.get (ctxIdx c) 6))

/-- The intervals of a frontier with held ranges split off as intervals of their own. -/
def countSpans (fr : List Span) (held : List (Nat × Nat)) : Nat :=
  (held.foldl (fun f r => cutSpans r.1 r.2 f) fr).length + held.length

/-- Publish 2400h:07h. -/
def Engine.publishFrontier (e : Engine) : Engine :=
  e.put 0x2400 7 (((List.range 8).map (fun b => countSpans (e.frontier b) (e.heldCols b))).foldl max 0)

/-- Record the frontier of context c after `rows` rows (R113). -/
def Engine.setFrontier (e : Engine) (c rows : Nat) : Engine :=
  let i := ctxIdx c
  let b := e.get i 3
  { e with sup.frontier := cellSet (fun _ => []) e.sup.frontier b
             (setSpan (e.get i 5) (e.get i 6) (e.get i 7 + rows) (e.frontier b)) }

/-- Whether the frontier equals `row` over all of [x, x+n). -/
def spansEq (x n row : Nat) (fr : List Span) : Bool :=
  if row = 0 then fr.all (fun s => !overlap x n s.x s.n)
  else decide (rowAtCol x fr = row) && fr.any (fun s => decide (s.x ≤ x) && decide (x + n ≤ s.x + s.n))

end Sys2Proof.Machine
end

