-- ==== Sys2Proof/Machine/Screening.lean ====
section
/-! DEFINITION. Screening and the swath store (R110-R131): rows to levels, four-row groups, block completion, the encode pass,
screening tables. -/

namespace Sys2Proof.Machine

/-! Rows of a context (R110, R111, R130) -/

/-- Whether context c is a level context (R130). -/
def Engine.isLevel (e : Engine) (c : Nat) : Bool := bit (e.get 0x2450 (c / 32 + 1)) (c % 32)

/-- Bytes of a row without padding. -/
def Engine.rowBytes (e : Engine) (c : Nat) : Nat :=
  let w := e.get (ctxIdx c) 6
  if e.isLevel c then (w + 3) / 4 else if e.get (ctxIdx c) 8 = 8 then w else 2 * w

/-- Complete rows among the checked bytes of context c. -/
def Engine.rowsWaiting (e : Engine) (c : Nat) : Nat :=
  let n := (e.ctx c).checked.length
  let rb := e.rowBytes c
  if n < rb ∨ rb = 0 then 0 else (n - rb) / (max 1 (e.get (ctxIdx c) 9)) + 1

/-- Pixel values of a row: contone values, or levels for a level context. -/
def Engine.rowPixels (e : Engine) (c : Nat) (bs : List Byte) : List Nat :=
  let w := e.get (ctxIdx c) 6
  if e.isLevel c then (List.range w).map (fun i => bits ((bs.getD (i / 4) 0).toNat) (2 * (i % 4) + 1) (2 * (i % 4)))
  else if e.get (ctxIdx c) 8 = 8 then (List.range w).map (fun i => (bs.getD i 0).toNat)
  else (List.range w).map (fun i => le [bs.getD (2 * i) 0, bs.getD (2 * i + 1) 0])

/-- The threshold word of a cell; the default array has every threshold at 1,023 (R117). -/
def Tables.cell (t : Tables) (i : Nat) : Nat := cellGet (fun _ => 0x3fffffff) t.thr i

/-- The level of a contone value (R115). -/
def Tables.level (t : Tables) (eight : Bool) (c x y : Nat) : Nat :=
  let idx := if eight then c * 4 + c / 64 else c % 1024
  let v := cellGet (fun i => i) t.curve idx
  let w := t.cell ((y + t.oy) % 256 * 256 + (x + t.ox) % 256)
  ofBool (decide (bits w 9 0 < v)) + ofBool (decide (bits w 19 10 < v)) + ofBool (decide (bits w 29 20 < v))

/-- The tables that screen row y of bank b (R118). -/
def Engine.tablesAt (e : Engine) (b y : Nat) : Tables :=
  if e.flag (0x2410 + b) 2 ∧ y < e.get (0x2410 + b) 3 then (e.bankScr b).prev else (e.bankScr b).cur

/-- A changeover ends once every context of the bank has passed y_c or has ended, aborted or closed (R119). -/
def Engine.settleChangeover (e : Engine) (b : Nat) : Engine :=
  if e.flag (0x2410 + b) 2 ∧ (List.range 256).all (fun c =>
      e.ctxState c == 0 || e.get (ctxIdx c) 3 != b || (e.ctx c).retired ||
        decide (e.get (0x2410 + b) 3 ≤ e.get (ctxIdx c) 7 + (e.ctx c).row)) then
    (e.put (0x2410 + b) 2 0).setBankScr b { e.bankScr b with prev := {} }
  else e

/-! Writing groups (R126) -/

/-- Whether the columns of context c cover column x; past the print width the last column's context counts (log entry 21, DEDUCED). -/
def Engine.covers (e : Engine) (c x : Nat) : Bool :=
  let x0 := e.get (ctxIdx c) 5
  let n := e.get (ctxIdx c) 6
  (decide (x0 ≤ x) && decide (x < x0 + n)) || (decide (e.pan.resW ≤ x) && decide (x0 + n = e.pan.resW))

/-- One 64-byte line of a slot: the level a group gives pixel k of it, if it gives one. -/
def Engine.groupPixel (e : Engine) (c bx : Nat) (rows : List (Nat × List Nat)) (k : Nat) : Option Nat :=
  let x := 64 * bx + k % 64
  if !e.covers c x then none
  else (rows.find? (fun r => r.1 % 4 == k / 64)).map (fun r => r.2.getD (x - e.get (ctxIdx c) 5) 0)

/-- Merge a group into the line of block (bx, y / 64) that holds rows y, with y a multiple of 4. -/
def Engine.mergeLine (e : Engine) (c bx y : Nat) (rows : List (Nat × List Nat)) : Engine :=
  let a := e.pan.slotAddr (e.pan.slot (e.get (ctxIdx c) 3) bx (y / 64)) + y % 64 * 16
  let px := (List.range 256).map (e.groupPixel c bx rows)
  if px.any Option.isNone && cellGet (fun _ => false) e.mem.bad (a / 64) then
    (e.bump 0x4001 0x0B 1).raise 9 0x0A a
  else
    let old := (List.range 64).map (fun i => e.dramByte (a + i))
    let lv := (List.range 256).map (fun k =>
      match px.getD k none with
      | some l => l
      | none => bits ((old.getD (k / 4) 0).toNat) (2 * (k % 4) + 1) (2 * (k % 4)))
    e.dramWrite a (packLsb 64 (lv.flatMap (natBits 2)))

/-- The block columns that context c touches. -/
def Engine.ctxBlocks (e : Engine) (c : Nat) : List Nat :=
  let x0 := e.get (ctxIdx c) 5
  (List.range ((x0 + e.get (ctxIdx c) 6 - 1) / 64 + 1 - x0 / 64)).map (· + x0 / 64)

/-- Write the rows of an open group and close it. -/
def Engine.flushGroup (e : Engine) (c : Nat) : Engine :=
  let x := e.ctx c
  match x.group with
  | [] => e
  | (y, _) :: _ =>
    let e := e.each (e.ctxBlocks c) (fun e bx => e.mergeLine c bx (y / 4 * 4) x.group)
    e.setCtx c { e.ctx c with group := [], merging := false }

/-! Block completion (R127, R128) -/

/-- A block that cannot be completed or encoded (R128). -/
def Engine.badBlock (e : Engine) (b bx by_ : Nat) : Engine :=
  let slot := e.pan.slot b bx by_
  ((e.dramStore (e.pan.tagAddr slot) (toLe 4 (tagWord 0 false false false (e.pan.gen by_) 1))).bump 0x2400 6 1).raise 2 3
    (detailB b slot)

/-- A block's pixels are complete: it waits for the encoder of the lane. -/
def Engine.blockDone (e : Engine) (b bx by_ lane : Nat) : Engine :=
  { e with sup.encodeQ := e.sup.encodeQ ++ [(b, bx, by_, lane)] }

/-- Add `n` pixels to a block's count word (R127). -/
def Engine.countAdd (e : Engine) (b bx by_ n lane : Nat) : Engine :=
  let a := e.pan.countAddr (e.pan.slot b bx by_)
  match e.dramRead a 2 with
  | none => e.badBlock b bx by_
  | some w =>
    let g := e.pan.gen by_
    let cnt := (if le w / 8192 = g then le w % 8192 else 0) + n
    if 4096 < cnt then e.badBlock b bx by_
    else
      let e := e.dramStore a (toLe 2 (g * 8192 + cnt))
      if cnt = 4096 then e.blockDone b bx by_ lane else e

/-- Context c stops contributing to block row by after `rows` rows in it. -/
def Engine.stopContributing (e : Engine) (c by_ rows : Nat) : Engine :=
  let b := e.get (ctxIdx c) 3
  e.each (e.ctxBlocks c) (fun e bx =>
    let n := rows * ((List.range 64).filter (fun i => e.covers c (64 * bx + i))).length
    if n = 4096 then e.blockDone b bx by_ (e.ctx c).lane else e.countAdd b bx by_ n (e.ctx c).lane)

/-- Rows of block row by that context c has written below row y. -/
def Engine.rowsInBlock (e : Engine) (c y by_ : Nat) : Nat := y - max (e.get (ctxIdx c) 7) (64 * by_)

/-- A context ends, is aborted or is closed: its complete rows are flushed and counted (R126, R127), its changeover settled. -/
def Engine.retire (e : Engine) (c : Nat) : Engine :=
  let x := e.ctx c
  let y := e.get (ctxIdx c) 7 + x.row
  let e :=
    if x.retired ∨ x.row = 0 ∨ e.jobState = 0 then e
    else
      let e := e.flushGroup c
      if y % 64 = 0 then e else e.stopContributing c ((y - 1) / 64) (e.rowsInBlock c y ((y - 1) / 64))
  let e := e.setCtx c { e.ctx c with retired := true, group := [] }
  e.settleChangeover (e.get (ctxIdx c) 3)

/-- A context that has Ended: its frontier is recorded, and it retires once its last row is screened. -/
def Engine.afterEnd (e : Engine) (c : Nat) : Engine :=
  if e.ctxState c = 2 then
    let e := e.setFrontier c ((e.ctx c).row + e.rowsWaiting c)
    (if e.rowsWaiting c = 0 then e.retire c else e).publishFrontier
  else e

/-! One row (R110-R121) -/

/-- Whether decode and screening run: a job is not Idle, its store is cleared, the staged writes of its first boundary are
applied (R112), and DRAM serves. -/
def Engine.supplyRuns (e : Engine) : Bool :=
  e.jobState != 0 && e.sup.firstBoundary && !e.flag 0x2430 9 && e.dramServing

/-- A block row whose ring row is not released yet (R129). -/
def Engine.unreleased (e : Engine) (by_ : Nat) : Bool := decide (e.get 0x2430 8 + e.pan.resNbr ≤ by_)

/-- The proof of the panel is abandoned where screening takes a slot that the proof has not read (R108). -/
def Engine.proofOverrun (e : Engine) (c by_ : Nat) : Engine :=
  let old := by_ - e.pan.resNbr
  let hit := decide (e.pan.resNbr ≤ by_) && e.sup.proof.units.any (fun u =>
    u.bank == e.get (ctxIdx c) 3 && overlap u.row u.rows (64 * old) 64 &&
      overlap u.col u.width (e.get (ctxIdx c) 5) (e.get (ctxIdx c) 6))
  if hit then Engine.raise { (e.put 0x2471 2 6) with sup.proof := {} } 2 4 (e.get 0x2471 0x0A) else e

/-- Bytes of the combiner that open groups take, at a quarter byte a pixel and four rows (R126). -/
def Engine.combinerUse (e : Engine) : Nat :=
  (e.sup.ctxs.map (fun p => if p.2.group.isEmpty || p.2.merging then 0 else e.get (ctxIdx p.1) 6)).foldl (· + ·) 0

/-- Screen the next row of context c with its first checked bytes (R110-R120, R126-R128). -/
def Engine.screenOne (e : Engine) (c : Nat) (poisoned : Bool) : Engine :=
  let i := ctxIdx c
  let x := e.ctx c
  let b := e.get i 3
  let y := e.get i 7 + x.row
  let by_ := y / 64
  let w := e.get i 6
  let px := e.rowPixels c (x.checked.take (e.rowBytes c))
  let t := e.tablesAt b y
  let lv := if e.isLevel c then px else (List.range w).map (fun k => t.level (e.get i 8 == 8) (px.getD k 0) (e.get i 5 + k) y)
  let e := e.proofOverrun c by_
  let e := if e.get i 8 = 10 ∧ !e.isLevel c then e.bump 0x2400 3 (px.filter (fun v => decide (1024 ≤ v))).length else e
  let e := e.wrap 0x2400 1 w
  let e : Engine := { e with pan.screenedAt := (e.now, w) :: e.pan.screenedAt.filter (fun p =>
                               decide (e.now ≤ p.1 + e.get 0x2201 8 * refMs)) }
  let e := e.setBankScr b { e.bankScr b with top := max (e.bankScr b).top (y + 1) }
  let e : Engine := if poisoned then
      let slots := (e.ctxBlocks c).map (fun bx => e.pan.slot b bx by_)
      { (e.bump 0x4031 3 1) with sup.bad := slots.foldl (fun m k => cellSet (fun _ => false) m k true) e.sup.bad }
    else e
  let full := x.group.isEmpty && decide (2 ^ 21 < e.combinerUse + w)
  let e := if full then e.bump 0x2400 5 1 else e
  let stride := e.get i 9
  let x := { e.ctx c with checked := x.checked.drop stride, skipPad := stride - x.checked.length, row := x.row + 1,
                          group := x.group ++ [(y, lv)], merging := x.merging || full,
                          heldSince := none }
  let e := (e.setCtx c x).put i 0x0D ((e.get i 0x0D + 1) % 2 ^ 32)
  let e := if x.merging ∨ y % 4 = 3 then
      let e := e.flushGroup c
      if y % 4 = 3 then e else e.setCtx c { e.ctx c with merging := x.merging }
    else e
  let e := if y % 64 = 63 then e.stopContributing c by_ (e.rowsInBlock c (y + 1) by_) else e
  let e := e.settleChangeover b
  if e.ctxState c = 2 ∧ e.rowsWaiting c = 0 then e.retire c else e

/-- SCREEN_ROW: the lane of context c takes its next complete row, or waits for the release of the ring row. -/
def Engine.screenRow (e : Engine) (c : Nat) (poisoned : Bool) : Engine :=
  let x := e.ctx c
  if !e.supplyRuns ∨ e.ctxState c = 0 ∨ e.rowsWaiting c = 0 then e
  else if e.unreleased ((e.get (ctxIdx c) 7 + x.row) / 64) then
    e.setCtx c { x with heldSince := x.heldSince.or (some e.now) }
  else
    let e := match x.heldSince with
      | some t => e.bump 0x2400 2 (32 * (e.now - t))
      | none => e
    e.screenOne c poisoned

/-- R110. -/
def execScreenRow (c : Fin 256) (poisoned : Bool) (s : State) : Host.Outcome State Fault Refusal :=
  onEngine (whenLive (fun e => e.screenRow c.val poisoned)) s

/-! The encode pass (R96-R102, R128) -/

/-- Write a stored form and then its tag (R99), and count it (R109). -/
def Engine.storeBlock (e : Engine) (slot : Nat) (raw verified checked : Bool) (gen units crc : Nat) (bs : List Byte) : Engine :=
  let e := if raw then e else e.dramStore (e.pan.slotAddr slot) bs
  let e := e.dramStore (e.pan.tagAddr slot) (toLe 4 (tagWord (if checked then crc else 0) raw verified checked gen units))
  (e.wrap 0x2470 0x11 1).put 0x2470 0x16 ((e.get 0x2470 0x16 + 8 * units) % 2 ^ 64)

/-- The lane encodes the block at the front of its queue. `decodeDiffers`: the decode of the stored form differs from the
input; `rawDiffers`: so does the raw slot data compared afterwards (R102). -/
def Engine.encodeFront (e : Engine) (decodeDiffers rawDiffers : Bool) : Engine :=
  match e.sup.encodeQ with
  | [] => e
  | (b, bx, by_, lane) :: rest =>
    let e : Engine := { e with sup.encodeQ := rest }
    let slot := e.pan.slot b bx by_
    let poisoned := cellGet (fun _ => false) e.sup.bad slot
    let e : Engine := { e with sup.bad := cellErase slot e.sup.bad }
    match e.dramRead (e.pan.slotAddr slot) 1024 with
    | none => e.badBlock b bx by_
    | some rawBytes =>
      if poisoned then e.badBlock b bx by_
      else
        let mode := e.get 0x2470 (lane + 1)
        let verify := mode == 1 || mode == 3
        let check := mode == 2 || mode == 3
        let gen := e.pan.gen by_
        let crc := crc16 rawBytes
        let detail := b * 2 ^ 37 + lane * 2 ^ 32 + slot % 2 ^ 32
        let (raw, units, bs) := storeForm (rawLevels rawBytes)
        if verify && decodeDiffers then
          if rawDiffers then
            let e := e.dramStore (e.pan.tagAddr slot) (toLe 4 (tagWord 0 false false false gen 1))
            (e.bump 0x2470 0x14 1).raise 2 2 detail
          else ((e.storeBlock slot true true check gen 128 crc []).bump 0x2470 0x13 1).raise 2 1 detail
        else (if raw then e.bump 0x2470 0x12 1 else e).storeBlock slot raw verify check gen units crc bs

/-- R128. -/
def execEncodePass (decodeDiffers : Bool) (rawDiffers : Bool) (s : State) : Host.Outcome State Fault Refusal :=
  onEngine (whenLive (fun e => e.encodeFront decodeDiffers rawDiffers)) s

/-- R125: clearing of the three regions completes. -/
def Engine.storeCleared (e : Engine) : Engine :=
  if e.flag 0x2430 9 then
    (e.pan.regions.foldl (fun e r => e.dramClear r.1 r.2) e).put 0x2430 9 0
  else e

/-- R125. -/
def execStoreClearComplete (s : State) : Host.Outcome State Fault Refusal := onEngine (whenLive Engine.storeCleared) s

/-! Screening tables (R116-R120) -/

/-- The entries of a tone curve image (R116). -/
def curveEntries (bs : List Byte) : List Nat := (List.range 1024).map (fun i => le [bs.getD (2 * i) 0, bs.getD (2 * i + 1) 0])

/-- A list of values as a store over the default of each position. -/
def asCells (d : Nat → Nat) (vs : List Nat) : List (Nat × Nat) := cellSetAll d ((List.range vs.length).zip vs) []

/-- Put the tables of bank b in force from a changeover row on (R118). -/
def Engine.changeTables (e : Engine) (b : Nat) (t : Tables) : Engine :=
  let x := e.bankScr b
  let e := (e.put (0x2420 + b) 7 t.check)
  if x.top = 0 ∨ e.jobState = 0 then (e.setBankScr b { x with cur := t }).put (0x2410 + b) 3 0
  else
    let yc := (x.top + 63) / 64 * 64
    ((e.setBankScr b { x with cur := t, prev := x.cur }).put (0x2410 + b) 3 yc).put (0x2410 + b) 2 1 |>.settleChangeover b

/-- Apply the staged curve, array and offsets of bank b together, if any is staged. `curve`, `ox`, `oy`: what is staged. -/
def Engine.applyScreening (e : Engine) (b : Nat) : Engine :=
  let x := e.bankScr b
  let curve := cellGet (fun _ => none) e.d.stagedDom (ekey (0x2410 + b) 1)
  let ox := e.stagedVal (ekey (0x2420 + b) 5)
  let oy := e.stagedVal (ekey (0x2420 + b) 6)
  if curve.isNone && ox.isNone && oy.isNone && x.stagedThr.isNone then e
  else
    let t := x.cur
    let t := match curve with | some bs => { t with curve := asCells id (curveEntries bs) } | none => t
    let t := match x.stagedThr with | some (c, k) => { t with thr := c, check := k } | none => t
    let t := { t with ox := ox.getD t.ox, oy := oy.getD t.oy }
    (e.setBankScr b { x with stagedThr := none }).changeTables b t

/-- TONE_CURVE_WRITE: length, changeover pending (R120), entries (R116); then staged (R47), or in Idle applied at once. -/
def Engine.toneCurve (e : Engine) (b : Nat) (data : List Byte) : Engine :=
  let i := 0x2410 + b
  if 2048 < data.length then e.refuse abLength
  else if e.flag i 2 then e.refuse abState
  else if data.length ≠ 2048 ∨ (curveEntries data).any (fun v => decide (1023 < v)) then e.refuse abValue
  else
    let e : Engine := { e with d.stagedDom := cellSet (fun _ => none) e.d.stagedDom (ekey i 1) (some data) }
    if e.jobState = 0 then
      let e := e.applyScreening b
      let e := e.setDom i 1 data
      Engine.done { e with d.stagedDom := cellErase (ekey i 1) e.d.stagedDom }
    else e.done

/-- R116. -/
def execToneCurveWrite (b : Fin 8) (data : List Byte) (s : State) : Host.Outcome State Fault Refusal :=
  onEngine (request 0x2410 (fun e => e.toneCurve b.val data)) s

/-- The words of an image of `n` little-endian words. -/
def imageWords (n : Nat) (bs : List Byte) : List Nat := (List.range n).map (fun i => le ((bs.drop (4 * i)).take 4))

/-- Whether a threshold cell is in order (R117). -/
def cellOk (w : Nat) : Bool := decide (w < 2 ^ 30) && decide (bits w 9 0 ≤ bits w 19 10) && decide (bits w 19 10 ≤ bits w 29 20)

/-- ARRAY_LOAD (R117). -/
def Engine.arrayLoad (e : Engine) (b : Nat) : Engine :=
  let i := 0x2420 + b
  if e.flag (0x2410 + b) 2 then (e.put i 4 5).refuse abState
  else
    match e.dramRead (e.get i 1) 262144 with
    | none => (e.put i 4 4).refuse abAction
    | some bs =>
      if crc32c bs ≠ e.get i 2 then (e.put i 4 2).refuse abValue
      else
        let ws := imageWords 65536 bs
        if !ws.all cellOk then (e.put i 4 3).refuse abValue
        else
          let e := e.setBankScr b { e.bankScr b with stagedThr := some (asCells (fun _ => 0x3fffffff) ws, e.get i 2) }
          let e := e.put i 4 1
          (if e.jobState = 0 then e.applyScreening b else e).done

/-- R117. -/
def execArrayLoad (b : Fin 8) (s : State) : Host.Outcome State Fault Refusal :=
  onEngine (request 0x2420 (fun e => e.arrayLoad b.val)) s

end Sys2Proof.Machine
end

