-- ==== Sys2Proof/Machine/Imaging.lean ====
section
/-! DEFINITION. Pass masks, the Catalogue, row plans, the chosen pass and deficits (R132-R157). -/

namespace Sys2Proof.Machine

/-! Elements -/

/-- Element number of (head, element) (R139). -/
def elemNo (h n : Nat) : Nat := h * 2048 + n

/-- Working entry of element i. -/
def Engine.work (e : Engine) (i : Nat) : Nat := cellGet (fun _ => 0) e.img.working i

/-- Whether a working entry reads with poison. -/
def Engine.poisonedW (e : Engine) (i : Nat) : Bool := cellGet (fun _ => false) e.img.poisonW i

/-- Whether a status lets an element fire (R140). -/
def Engine.statusOk (e : Engine) (w : Nat) : Bool := w % 4 == 0 || (w % 4 == 1 && !e.flag 0x2500 0x0B)

/-- Whether element i fires by its working entry. -/
def Engine.elemGood (e : Engine) (i : Nat) : Bool := !e.poisonedW i && e.statusOk (e.work i)

/-- Whether element i is available for a row plan (R144). -/
def Engine.elemAvail (e : Engine) (i : Nat) : Bool := e.svc (i / 2048) == 0 && e.elemGood i

/-- Write a staging entry whole: taken by the next launch copy (R141). -/
def Engine.stageEntry (e : Engine) (i w : Nat) : Engine :=
  { e with img.staging := cellSet (fun _ => 0) e.img.staging i w, img.dirty := cellSet (fun _ => false) e.img.dirty i true,
           img.poisonS := cellErase i e.img.poisonS }

/-- Staging entry of element i. -/
def Engine.stagingEntry (e : Engine) (i : Nat) : Nat := cellGet (fun _ => 0) e.img.staging i

/-- Write fields of a staging entry through a mask; a poisoned entry stays poisoned until it is rewritten whole (R140). -/
def Engine.stageField (e : Engine) (i v mask : Nat) : Engine :=
  if cellGet (fun _ => false) e.img.poisonS i then e else e.stageEntry i (maskWrite (e.stagingEntry i) v mask 32)

/-- STATUS 11 in all entries of a head that enters Quarantined (R140). -/
def Engine.quarantineEntries (e : Engine) (h : Nat) : Engine :=
  e.each ((List.range 2048).map (elemNo h)) (fun e i => e.stageField i 3 3)

/-- CATALOGUE_COPY (R141): entries written since the last copy go to the working copy whole; an entry whose working word
was read with poison first takes STATUS 11 (R140), and a poisoned staging entry leaves the working one poisoned. -/
def Engine.catalogueCopy (e : Engine) : Engine :=
  let e := e.each (e.img.poisonW.map (·.1)) (fun e i => e.stageField i 3 3)
  let ds := (e.img.dirty.map (·.1)).filter (fun i => !cellGet (fun _ => false) e.img.poisonS i)
  { e with img.working := ds.foldl (fun m i => cellSet (fun _ => 0) m i (e.stagingEntry i)) e.img.working,
           img.poisonW := ds.foldl (fun m i => cellErase i m) e.img.poisonW,
           img.dirty := e.img.dirty.filter (fun p => !ds.contains p.1) }

/-! Masks (R136-R138) -/

/-- Cell of mask m at column and row cell. -/
def Engine.maskCell (e : Engine) (m i : Nat) : Nat := cellGet (fun _ => 0) e.img.masks (m * 65536 + i)

/-- Cell index of pixel (x, y) under a selection (R137). -/
def MaskSel.cell (s : MaskSel) (x y : Nat) : Nat := (y + s.oy) % 256 * 256 + (x + s.ox) % 256

/-- The selection in force of bank b. -/
def Engine.maskSel (e : Engine) (b : Nat) : MaskSel :=
  { m := e.get (0x2530 + b) 4, ox := e.get (0x2530 + b) 2, oy := e.get (0x2530 + b) 3 }

/-- Whether mask m is in use (R138). -/
def Engine.maskInUse (e : Engine) (m : Nat) : Bool :=
  e.jobState != 0 && ((List.range 8).any (fun b => e.get (0x2530 + b) 4 == m || e.shown (ekey (0x2530 + b) 1) == m) ||
    e.img.plans.any (fun p => p.2.sel.m == m))

/-- MASK_LOAD (R136). -/
def Engine.maskLoad (e : Engine) (m : Nat) : Engine :=
  let i := 0x2510 + m
  if e.maskInUse m then (e.put i 4 5).refuse abState
  else
    match e.dramRead (e.get i 1) 65536 with
    | none => (e.put i 4 4).refuse abAction
    | some bs =>
      if crc32c bs ≠ e.get i 2 then (e.put i 4 2).refuse abValue
      else if bs.any (fun b => decide (8 ≤ b.toNat)) then (e.put i 4 3).refuse abValue
      else
        let cells := (List.range 65536).map (fun k => (m * 65536 + k, (bs.getD k 0).toNat))
        let e : Engine := { e with img.masks := cellSetAll (fun _ => 0) cells e.img.masks,
                                   img.poisonM := cellEraseRange (m * 65536) 65536 e.img.poisonM }
        (((e.put i 4 1).put i 5 ((bs.map (·.toNat)).foldl max 0)).put i 6 (crc32c bs)).done

/-- R136. -/
def execMaskLoad (m : Fin 16) (s : State) : Host.Outcome State Fault Refusal :=
  onEngine (request 0x2510 (fun e => e.maskLoad m.val)) s

/-! The Catalogue window and images (R142, R143) -/

/-- Advance the window's index where auto-increment is set. -/
def Engine.windowNext (e : Engine) : Engine :=
  if e.flag 0x2600 4 then e.put 0x2600 1 ((e.get 0x2600 1 + 1) % 262144) else e

/-- CATALOGUE_WINDOW_WRITE: a poisoned staging entry takes only a write of all its bits (log entry 26, DEDUCED). -/
def Engine.windowWrite (e : Engine) (v : Nat) : Engine :=
  let i := e.get 0x2600 1
  let mask := e.get 0x2600 5
  let w := maskWrite (e.stagingEntry i) v mask 32
  if 262143 < i ∨ bits w 15 11 ≠ 0 then e.refuse abValue
  else if cellGet (fun _ => false) e.img.poisonS i ∧ mask ≠ 0xffffffff then e.refuse abAction
  else ((e.stageEntry i w).windowNext).done

/-- CATALOGUE_STAGING_READ. -/
def Engine.windowRead (e : Engine) : Engine :=
  let i := e.get 0x2600 1
  if 262143 < i then e.refuse abValue
  else if cellGet (fun _ => false) e.img.poisonS i then e.refuse abAction
  else e.windowNext.answer (toLe 4 (e.stagingEntry i))

/-- R142. -/
def execCatalogueWindowWrite (v : BitVec 32) (s : State) : Host.Outcome State Fault Refusal :=
  onEngine (request 0x2600 (fun e => e.windowWrite v.toNat)) s

/-- R142. -/
def execCatalogueStagingRead (s : State) : Host.Outcome State Fault Refusal := onEngine (request 0x2600 Engine.windowRead) s

/-- CATALOGUE_LOAD (R143). -/
def Engine.imageLoad (e : Engine) : Engine :=
  let h0 := e.get 0x2601 3
  let n := e.get 0x2601 4
  if 128 < h0 + n then (e.put 0x2601 6 5).refuse abValue
  else
    match e.dramRead (e.get 0x2601 1) (n * 8192) with
    | none => (e.put 0x2601 6 4).refuse abAction
    | some bs =>
      if crc32c bs ≠ e.get 0x2601 2 then (e.put 0x2601 6 2).refuse abValue
      else
        let ws := imageWords (n * 2048) bs
        if ws.any (fun w => bits w 15 11 != 0) then (e.put 0x2601 6 3).refuse abValue
        else (((List.range (n * 2048)).zip ws).foldl (fun e p => Engine.stageEntry e (h0 * 2048 + p.1) p.2)
          (e.put 0x2601 6 1)).done

/-- CATALOGUE_DUMP (R143). -/
def Engine.imageDump (e : Engine) : Engine :=
  let h0 := e.get 0x2601 3
  let n := e.get 0x2601 4
  let a := e.get 0x2601 1
  let is := (List.range (n * 2048)).map (· + h0 * 2048)
  if 128 < h0 + n then (e.put 0x2601 6 5).refuse abValue
  else if is.any e.poisonedW then (e.put 0x2601 6 7).refuse abAction
  else if !e.inDram a (n * 8192) then (e.put 0x2601 6 4).refuse abAction
  else
    let bs := is.flatMap (fun i => toLe 4 (e.work i))
    (((e.dramStore a bs).put 0x2601 2 (crc32c bs)).put 0x2601 6 6).done

/-- R143. -/
def execCatalogueLoad (s : State) : Host.Outcome State Fault Refusal := onEngine (request 0x2601 Engine.imageLoad) s

/-- R143. -/
def execCatalogueDump (s : State) : Host.Outcome State Fault Refusal := onEngine (request 0x2601 Engine.imageDump) s

/-! Eclipse commands (R148) -/

/-- Pass count in force. -/
def Engine.passes (e : Engine) : Nat := if e.jobState = 0 then e.get 0x2200 6 else e.pan.resP

/-- HEAD_ECLIPSE: taken at the next launch check; with one pass it raises a Warning. -/
def Engine.headEclipse (e : Engine) (h : Nat) : Engine :=
  if e.svc h ≠ 0 then e.refuse abState
  else
    let e := e.setHead h { e.head h with drainReq := true }
    (if e.passes = 1 then e.raise 4 4 (detailH h 0 0) else e).done

/-- HEAD_CANCEL_DRAIN: a draining head returns at the next launch check. -/
def Engine.cancelDrain (e : Engine) (h : Nat) : Engine :=
  if e.svc h ≠ 1 then e.refuse abState else (e.setHead h { e.head h with drainCancel := true }).done

/-- R148. -/
def execHeadEclipse (h : Fin 128) (s : State) : Host.Outcome State Fault Refusal :=
  onEngine (request 0x2521 (fun e => e.headEclipse h.val)) s

/-- R148. -/
def execHeadCancelDrain (h : Fin 128) (s : State) : Host.Outcome State Fault Refusal :=
  onEngine (request 0x2521 (fun e => e.cancelDrain h.val)) s

/-! Row plans (R144) -/

/-- Key of the plan of row y of bank b. -/
def planKey (b y : Nat) : Nat := y * 8 + b

/-- The element that serves a pass: the primary if it is available, else the partner, else none. -/
def Engine.passElem (e : Engine) (b u : Nat) : Option Nat :=
  let (p, q) := elementsOf e.pan.overlap u
  let no (x : Nat × Nat) : Nat := elemNo (b * 16 + x.1) x.2
  if e.elemAvail (no p) then some (no p)
  else match q with
    | some r => if e.elemAvail (no r) then some (no r) else none
    | none => none

/-- Form the plan of row y of bank b, which enters at transit t. -/
def Engine.formPlan (e : Engine) (b t y : Nat) : RowPlan :=
  { sel := e.maskSel b,
    pass := (List.range e.pan.resP).map (fun j => e.passElem b (e.pan.topRow (t + j) - y)) }

/-- The banks of the store. -/
def Panels.bankList (p : Panels) : List Nat := (List.range 8).filter (fun b => bit p.banks b)

/-- ROW_PLAN: the plans of the rows that enter the swath at transit t. -/
def Engine.formPlans (e : Engine) (t : Nat) : Engine :=
  let (y0, y1) := e.pan.entering t
  e.each e.pan.bankList (fun e b => e.each ((List.range (y1 - y0)).map (· + y0)) (fun e y =>
    { e with img.plans := cellSet (fun _ => {}) e.img.plans (planKey b y) (e.formPlan b t y) }))

/-- The plan of row y of bank b. -/
def Engine.plan (e : Engine) (b y : Nat) : RowPlan := cellGet (fun _ => {}) e.img.plans (planKey b y)

/-- The element that serves pass j. -/
def RowPlan.elem (p : RowPlan) (j : Nat) : Option Nat := p.pass.getD j none

/-- The chosen pass of a mask pass k (R145). -/
def RowPlan.chosen (p : RowPlan) (np k : Nat) : Option Nat :=
  firstIdx (fun c => (p.elem c).isSome) ((List.range np).map (fun i => (k + i) % np))

/-- The lowest available pass above `cur` (R152). -/
def RowPlan.next (p : RowPlan) (np cur : Nat) : Option Nat :=
  firstIdx (fun c => decide (cur < c) && (p.elem c).isSome) (List.range np)

/-! Lines, columns (R158) and deficits (R150-R153) -/

/-- tt of a slice in a transit (R168). -/
def FineGeo.tt (g : FineGeo) (h s : Nat) : Nat := cellGet (fun _ => 976) g.tts (32 * h + s)

/-- peff of a row of a head. -/
def FineGeo.off (g : FineGeo) (h n : Nat) : Int := cellGet (fun _ => 0) g.peff (2 * h + n % 2)

/-- The column element (h, n) takes in compose line m. -/
def FineGeo.column (g : FineGeo) (h n : Nat) (m : Int) : Int :=
  if g.reverse then (g.w : Int) - 1 + g.pmax - m - g.off h n else m - g.off h n

/-- The frame line in which element (h, n) fires column x. -/
def FineGeo.frame (g : FineGeo) (h n x : Nat) : Int :=
  let m : Int := if g.reverse then (g.w : Int) - 1 + g.pmax - x - g.off h n else x + g.off h n
  m + (g.tt h (n / 64) / 32 : Nat)

/-- The geometry of transit t. -/
def Engine.geo (e : Engine) (t : Nat) : FineGeo := cellGet (fun _ => {}) e.img.geos t

/-- Deficit records of bank b. -/
def Engine.defs (e : Engine) (b : Nat) : List Deficit := cellGet (fun _ => []) e.img.deficits b

/-- Whether column x of element i in transit t lies in a record (R151, R174). -/
def Engine.inDeficit (e : Engine) (b t x i : Nat) : Bool :=
  (e.defs b).any (fun r =>
    r.t == t && r.h == i / 2048 && decide (r.n0 ≤ i % 2048) && decide (i % 2048 ≤ r.n1) &&
      (if r.cols then decide (r.first ≤ x) && decide (x ≤ r.last)
       else
         let f := (e.geo t).frame (i / 2048) (i % 2048) x
         decide ((r.first : Int) ≤ f) && decide (f ≤ r.last)))

/-- Walk from pass `cur` over deficits of earlier transits (R152). -/
def Engine.walk (e : Engine) (b t y x j : Nat) (p : RowPlan) : Nat → Option Nat → Option Nat
  | 0, c => c
  | _ + 1, none => none
  | fuel + 1, some cur =>
    if decide (cur < j) && (match p.elem cur with | some i => e.inDeficit b (t + cur - j) x i | none => true) then
      Engine.walk e b t y x j p fuel (p.next e.pan.resP cur)
    else some cur

/-- Publish 2500h:0Dh. -/
def Engine.publishDeficits (e : Engine) : Engine :=
  e.put 0x2500 0x0D ((e.img.deficits.map (fun p => p.2.length)).foldl (· + ·) 0)

/-- Join a record to one that it follows: the next line of the same elements, or the next element of the same columns. -/
def joinDeficit (r : Deficit) : List Deficit → Option (List Deficit)
  | [] => none
  | q :: rest =>
    if q.t = r.t ∧ q.h = r.h ∧ q.cause = r.cause ∧ q.cols = r.cols ∧ q.n0 = r.n0 ∧ q.n1 = r.n1 ∧ q.last + 1 = r.first then
      some ({ q with last := r.last } :: rest)
    else if q.t = r.t ∧ q.h = r.h ∧ q.cause = r.cause ∧ q.cols = r.cols ∧ q.first = r.first ∧ q.last = r.last ∧
        q.n1 + 1 = r.n0 then
      some ({ q with n1 := r.n1 } :: rest)
    else (joinDeficit r rest).map (q :: ·)

/-- Record a deficit of bank b (R151); in a full table it is final at once (R153). -/
def Engine.addDeficit (e : Engine) (b : Nat) (r : Deficit) : Engine :=
  match joinDeficit r (e.defs b) with
  | some ds => { e with img.deficits := cellSet (fun _ => []) e.img.deficits b ds }
  | none =>
    if (e.defs b).length < 2048 then
      Engine.publishDeficits { e with img.deficits := cellSet (fun _ => []) e.img.deficits b (e.defs b ++ [r]) }
    else (e.bump 0x2500 0x0E 1).raise 4 1 (detailB b 0)

/-- Free the records of transits up to t − P + 1 (R151), and the geometries and plans of rows that had left before t: echoes
of the last lines of t may still come. -/
def Engine.freeDeficits (e : Engine) (t : Nat) : Engine :=
  let keep (r : Deficit) : Bool := decide (t < r.t + e.pan.resP - 1)
  let (_, y1) := e.pan.leaving (t - 1)
  Engine.publishDeficits { e with
    img.deficits := (e.img.deficits.map (fun p => (p.1, p.2.filter keep))).filter (fun p => !p.2.isEmpty),
    img.geos := e.img.geos.filter (fun p => decide (t < p.1 + e.pan.resP)),
    img.plans := e.img.plans.filter (fun p => decide (8 * y1 ≤ p.1)) }

/-- Launch-time losses (R150): planned elements of a pass j ≥ 1 of transit t that can no longer fire. -/
def Engine.launchDeficits (e : Engine) (t : Nat) : Engine :=
  let np := e.pan.resP
  e.each e.pan.bankList (fun e b => e.each (List.range (e.pan.resH)) (fun e u =>
    let top := e.pan.topRow t
    if top < u then e
    else
      let y := top - u
      let j := t - firstCover e.pan.resH np y
      match (e.plan b y).elem j with
      | some i =>
        let h := i / 2048
        let out := decide (2 ≤ e.svc h)
        if 1 ≤ j ∧ j < np ∧ (out ∨ !e.statusOk (e.work i)) then
          e.addDeficit b { t := t, h := h, n0 := i % 2048, n1 := i % 2048, first := 0, last := e.pan.resW - 1, cols := true,
                           cause := if e.svc h = 3 ∨ e.svc h = 4 then 2 else 1 }
        else e
      | none => e))

/-! One pixel in one transit (R137, R145, R146, R152, R164) -/

/-- The level of pixel (x, y) as fetched, or `none` where its block is not accepted. -/
def Engine.fetchedLevel (e : Engine) (b x y : Nat) : Option Nat :=
  match cellGet (fun _ => Fetched.unwritten) e.path.fetch (e.pan.slot b (x / 64) (y / 64)) with
  | .accepted l => some (l.getD (y % 64 * 64 + x % 64) 0)
  | _ => none

/-- Whether the mask cell of pixel (x, y) is poisoned. -/
def Engine.maskPoison (e : Engine) (p : RowPlan) (x y : Nat) : Bool :=
  cellGet (fun _ => false) e.img.poisonM (p.sel.m * 65536 + p.sel.cell x y)

/-- Mask pass of pixel (x, y). -/
def Engine.maskPass (e : Engine) (p : RowPlan) (x y : Nat) : Nat := e.maskCell p.sel.m (p.sel.cell x y)

/-- The pass in which pixel (x, y) is to fire as transit t, printing pass j of row y, finds it (R152). -/
def Engine.firingPass (e : Engine) (b t y x j : Nat) (p : RowPlan) : Option Nat :=
  e.walk b t y x j p (e.pan.resP + 1) (p.chosen e.pan.resP (e.maskPass p x y))

/-- Whether row y gives neighbour shares: one pass, boost on, its pass 0 unavailable (R146). -/
def Engine.gives (e : Engine) (b y : Nat) : Bool :=
  e.pan.resP == 1 && e.flag 0x2500 0x0C && ((e.plan b y).elem 0).isNone && cellFind (planKey b y) e.img.plans != none

/-- Whether row y of the swath of transit t takes shares. -/
def Engine.takes (e : Engine) (b y : Nat) : Bool := ((e.plan b y).elem 0).isSome

/-- The share that pixel (x, y) gives to row `to` (R146). -/
def Engine.share (e : Engine) (b x y to_ : Nat) : Nat :=
  if !e.gives b y then 0
  else match e.fetchedLevel b x y with
    | none => 0
    | some l =>
      let up := decide (0 < y) && e.takes b (y - 1)
      let down := e.takes b (y + 1)
      if to_ + 1 = y then (if up then (l + 1) / 2 + (if down then 0 else l / 2) else 0)
      else if to_ = y + 1 then (if down then l / 2 + (if up then 0 else (l + 1) / 2) else 0)
      else 0

/-- The level pixel (x, y) fires with (R146). -/
def Engine.boosted (e : Engine) (b x y l : Nat) : Nat :=
  min 3 (l + e.share b x (y + 1) y + (if 0 < y then e.share b x (y - 1) y else 0))

/-- The drive-map byte that gives the code of element (h, n) at column x in transit t (R164, R165): none where the element
does not fire. -/
def Engine.mapIndex (e : Engine) (t h n : Nat) (x : Int) : Option Nat :=
  let b := bankOf h
  let top := e.pan.topRow t
  let u := swathRow e.pan.overlap (posOf h) n
  if x < 0 ∨ (e.pan.resW : Int) ≤ x ∨ top < u ∨ top - u < cellGet (fun _ => 0) e.img.deadBank b then none
  else
    let x := x.toNat
    let y := top - u
    let p := e.plan b y
    let j := t - firstCover e.pan.resH e.pan.resP y
    let i := elemNo h n
    if p.elem j ≠ some i ∨ p.poisoned ∨ !e.elemGood i ∨ e.firingPass b t y x j p ≠ some j then none
    else
      let l := e.boosted b x y ((e.fetchedLevel b x y).getD 0)
      if l = 0 then none else some (b * 256 + (e.get (0x2780 + h) 4 * 64 + l * 16 + bits (e.work i) 5 2))

/-- The default code of a drive-map byte (R165). -/
def mapDefault (k : Nat) : Nat := k / 16 % 4

/-- The code of element (h, n) at column x in transit t: 0 where it does not fire. -/
def Engine.codeOf (e : Engine) (t h n : Nat) (x : Int) : Nat :=
  match e.mapIndex t h n x with
  | some k => cellGet mapDefault e.path.maps k
  | none => 0

/-! Accounting of fired and lost pixels (R156, 2500h:0Fh-11h) -/

/-- Order of causes where several meet (R151). -/
def causeRank (c : Nat) : Nat := if c = 5 then 0 else if c = 2 then 1 else if c = 3 then 2 else if c = 4 then 3 else 4

/-- Enter a counted lost pixel in the list of unrecovered rows. -/
def addLost (r : LostRow) : List LostRow → List LostRow
  | [] => [r]
  | q :: rest =>
    if q.b = r.b ∧ q.y = r.y then
      (if q.t = r.t ∧ (causeRank r.cause < causeRank q.cause ∨ (r.cause = q.cause ∧ r.x < q.x)) then r else q) :: rest
    else q :: addLost r rest

/-- Pixel (x, y) of bank b is lost in transit t (R156). -/
def Engine.lose (e : Engine) (b y x t cause h : Nat) : Engine :=
  match e.fetchedLevel b x y with
  | some 0 => e
  | _ =>
    let e := e.wrap 0x2500 0x10 1
    if cellGet (fun _ => false) e.pan.reported (planKey b y) then e
    else { e with pan.lostRows := addLost { b := b, y := y, t := t, cause := cause, x := x, h := h } e.pan.lostRows }

/-- Account for the pixel of element (h, n) at column x of transit t. `blank`: its frame line was blanked with that cause;
`final`: no record could be made of it (R153). -/
def Engine.accountPixel (e : Engine) (t h n : Nat) (x : Int) (blank : Option Nat) (final : Bool) : Engine :=
  let b := bankOf h
  let top := e.pan.topRow t
  let u := swathRow e.pan.overlap (posOf h) n
  if x < 0 ∨ (e.pan.resW : Int) ≤ x ∨ top < u then e
  else
    let x := x.toNat
    let y := top - u
    let p := e.plan b y
    let np := e.pan.resP
    let j := t - firstCover e.pan.resH np y
    let k := e.maskPass p x y
    let i := elemNo h n
    let primary := (elementsOf e.pan.overlap u).1 = (posOf h, n)
    if p.poisoned ∨ y < cellGet (fun _ => 0) e.img.deadBank b then
      (if p.elem j = some i ∧ e.firingPass b t y x j p = some j then e.lose b y x t 3 h else e)
    else
      match p.chosen np k with
      | none =>
        if primary ∧ k % np = j then
          if np = 1 ∧ e.flag 0x2500 0x0C ∧ (e.fetchedLevel b x y).isSome ∧
              ((0 < y ∧ e.takes b (y - 1)) ∨ e.takes b (y + 1)) then
            (match e.fetchedLevel b x y with
              | some 0 => e
              | _ => { (e.wrap 0x2500 0x11 1) with pan.degradedRows := cellInsert (planKey b y) h (cellErase (planKey b y) e.pan.degradedRows) })
          else e.lose b y x t 1 h
        else e
      | some _ =>
        if p.elem j ≠ some i ∨ e.firingPass b t y x j p ≠ some j then e
        else
          let launch := (e.defs b).find? (fun r => r.t == t && r.h == h && r.cols && decide (r.n0 ≤ n) && decide (n ≤ r.n1))
          let dead := launch.isSome || !e.elemGood i
          if dead ∨ blank.isSome then
            let cause := match launch with | some r => r.cause | none => blank.getD 1
            let noRecord := (dead && launch.isNone) || (!dead && final)
            if noRecord ∨ (p.next np j).isNone then e.lose b y x t cause h else e
          else if k ≠ j ∧ e.fetchedLevel b x y ≠ some 0 then e.wrap 0x2500 0x0F 1 else e

/-- Account for frame line f of head h in transit t: each slice carries the column composed d[s] lines earlier (R169). -/
def Engine.accountLine (e : Engine) (t h f : Nat) (blank : Option Nat) (final : Bool) : Engine :=
  let g := e.geo t
  e.each (List.range 2048) (fun e n =>
    let m : Int := (f : Int) - (g.tt h (n / 64) / 32 : Nat)
    if m < 0 then e else e.accountPixel t h n (g.column h n m) blank final)

/-- Pending deficits become final at job end or abort (R154): every later pass they waited for is gone. -/
def Engine.finalDeficits (e : Engine) : Engine :=
  e.each (e.img.deficits.flatMap (fun p => p.2.map (fun _ => p.1))) (fun e b =>
    match e.defs b with
    | [] => e
    | r :: rest =>
      let g := e.geo r.t
      let e : Engine := { e with img.deficits := cellSet (fun _ => []) e.img.deficits b rest }
      e.each ((List.range (r.n1 + 1 - r.n0)).map (· + r.n0)) (fun e n =>
        let u := swathRow e.pan.overlap (posOf r.h) n
        let top := e.pan.topRow r.t
        if top < u then e
        else
          let y := top - u
          let p := e.plan b y
          let j := r.t - firstCover e.pan.resH e.pan.resP y
          e.each (List.range (r.last + 1 - r.first)) (fun e k =>
            let x : Int := if r.cols then ((r.first + k : Nat) : Int)
              else g.column r.h n (((r.first + k : Nat) : Int) - (g.tt r.h (n / 64) / 32 : Nat))
            if x < 0 ∨ (e.pan.resW : Int) ≤ x ∨ p.elem j ≠ some (elemNo r.h n) ∨ (p.next e.pan.resP j).isNone then e
            else e.lose b y x.toNat r.t r.cause r.h)))

end Sys2Proof.Machine
end

