-- ==== Sys2Proof/Machine/HeadOps.lean ====
section
/-! DEFINITION. Shared operations on heads: frames of the head link (R187, R195), service states (R147, R209-R212), fire
counts (R222-R224). -/

namespace Sys2Proof.Machine

/-- Index of head h's link entries, and of its bank's limits. -/
def headIdx (h : Nat) : Nat := 0x2100 + h
def bankIdx (h : Nat) : Nat := 0x2180 + bankOf h

/-- Whether the receiver of head h is up (R184). -/
def Engine.rxUp (e : Engine) (h : Nat) : Bool := e.get (headIdx h) 1 == 2

/-! Frames -/

/-- The slice check word (R170): CRC-32C of the 64 codes as packed (R188). -/
def checkWord (codes : List Nat) : Nat := crc32c (packLsb 24 (codes.flatMap (natBits 3)))

/-- A LINE frame without its commas (R187, R188): FLAGS, SEQ, fine delays, the codes of the 32 slices, CRC. -/
def lineFrame (warm blank reverse : Bool) (seq : Nat) (fds : List Nat) (slices : List (List Nat)) : List Byte :=
  let bs := [1] ++ toLe 1 (ofBool warm + 2 * ofBool blank + 4 * ofBool reverse) ++ toLe 2 seq ++
    packLsb 20 (fds.flatMap (natBits 5)) ++ slices.flatMap (fun c => packLsb 24 (c.flatMap (natBits 3)))
  bs ++ toLe 4 (crc32c bs)

/-- A command frame without its commas (R195). -/
def commandFrame (tag : Nat) (c : HeadCmd) : List Byte :=
  let bs := toLe 1 c.ty ++ toLe 1 tag ++ toLe 2 c.addr ++ toLe 2 c.len ++ [0, 0] ++ c.data
  bs ++ toLe 4 (crc32c bs)

/-- Queue a command for head h. -/
def Engine.enqueue (e : Engine) (h : Nat) (c : HeadCmd) : Engine :=
  e.setHead h { e.head h with queue := (e.head h).queue ++ [c] }

/-- A READ and a WRITE of head memory. -/
def readCmd (addr len : Nat) : HeadCmd := { ty := 0x10, addr := addr, len := len }
def writeCmd (addr : Nat) (data : List Byte) : HeadCmd := { ty := 0x11, addr := addr, len := data.length, data := data }

/-- The 267 READs of an identity read (R210). -/
def identityReads : List HeadCmd :=
  [readCmd 0 8, readCmd 8 6, readCmd 0x3C 2] ++ (List.range 8).map (fun k => readCmd (0x500 + 32 * k) 32) ++
    (List.range 256).map (fun k => readCmd (0x2000 + 32 * k) 32)

/-- Whether an address belongs to an identity read. -/
def identityAddr (a : Nat) : Bool := a == 0 || a == 8 || a == 0x3C || (0x500 ≤ a && a < 0x600) || (0x2000 ≤ a && a < 0x4000)

/-- Begin the identity read of head h (R210). -/
def Engine.startIdentity (e : Engine) (h : Nat) : Engine :=
  let x := e.head h
  e.setHead h { x with queue := x.queue.filter (fun c => !(c.ty == 0x10 && identityAddr c.addr)) ++ identityReads,
                       identLeft := 267, identData := [] }

/-- Write CONTROL of head h (R200): MEAS and IDLE_WARM. -/
def Engine.writeControl (e : Engine) (h : Nat) (meas idleWarm : Bool) : Engine :=
  (e.setHead h { e.head h with meas := meas, idleWarm := idleWarm }).enqueue h
    (writeCmd 0x24 (toLe 1 (ofBool meas + 2 * ofBool idleWarm)))

/-- Write LINE_PERIOD of head h, in ns (R191). -/
def Engine.writePeriod (e : Engine) (h ns : Nat) : Engine := e.enqueue h (writeCmd 0x20 (toLe 4 ns))

/-! Return checks and service states -/

/-- Set or clear a bit of 2100h + h:0Eh. -/
def Engine.setCheck (e : Engine) (h i : Nat) (on : Bool) : Engine :=
  e.put (headIdx h) 0x0E (setBit (e.get (headIdx h) 0x0E) i on)

/-- A bit of 2100h + h:0Eh; bit 2 also holds while 3440h:07h is FALSE (R211). -/
def Engine.check (e : Engine) (h i : Nat) : Bool := bit (e.get (headIdx h) 0x0E) i || (i == 2 && !e.flag 0x3440 7)

/-- Clear bits 0-3 and with them the failures of an earlier pass through the checks (R212). -/
def Engine.clearChecks (e : Engine) (h : Nat) : Engine :=
  let e := [0, 1, 2, 3, 5, 6].foldl (fun e i => e.setCheck h i false) e
  e.setHead h { e.head h with verdicts := [], identLeft := 0, missing := false }

/-- Entry into state 5 (R209, R212): STATUS 11, checks cleared, the identity read begun where the receiver is up. -/
def Engine.enterQuarantine (e : Engine) (h : Nat) : Engine :=
  let e := (((e.setSvc h 5).quarantineEntries h).clearChecks h).setCheck h 4 (e.rxUp h)
  let e := e.setHead h { e.head h with wdHold := false, coolSince := none }
  if e.rxUp h then e.startIdentity h else e

/-- The table word of element i, or `none` on a bus error. -/
def Engine.fireWord (e : Engine) (i : Nat) : Option Nat := (e.dramRead (e.get 0x3460 2 + 4 * i) 4).map le

/-- Write a head's table words back to its FIRE_COUNT (R224). -/
def Engine.writeBack (e : Engine) (h : Nat) : Engine :=
  if e.get 0x3460 2 = 0 ∨ !e.rxUp h then e
  else e.each (List.range 32) (fun e k =>
    e.enqueue h (writeCmd (0x2000 + 256 * k)
      ((List.range 64).flatMap (fun j => toLe 4 ((e.fireWord (elemNo h (64 * k + j))).getD 0)))))

/-- Entry into state 2 (R148, R224). -/
def Engine.enterEclipsed (e : Engine) (h : Nat) : Engine := (e.setSvc h 2).writeBack h

/-- A head leaves the sweep and a watch run it takes part in. -/
def Engine.dropHead (e : Engine) (h : Nat) : Engine :=
  let e := e.setHead h { e.head h with inSweep := false, todo := [], meas := false }
  if e.care.watch ∧ e.care.watchHeads.contains h then
    { e with care.watchHeads := e.care.watchHeads.filter (· != h) } else e

/-- Entry into state 3 (R184, R194, R178). -/
def Engine.enterLost (e : Engine) (h : Nat) : Engine := (e.setSvc h 3).dropHead h

/-- Elements of head h that the running watch has not reached are reported as not checked (R219). -/
def Engine.notChecked (e : Engine) (h : Nat) : Engine :=
  let from_ := if posOf h * 2048 ≤ e.care.watchLine then e.care.watchLine - posOf h * 2048 else 0
  let rest := (List.range (2048 - min 2048 from_)).map (fun k => elemNo h (from_ + k) + 3 * 2 ^ 18)
  { e with care.watchList := e.care.watchList ++ rest }

/-- The hard limit takes head h out of service (R219-R221). -/
def Engine.enterOverTemp (e : Engine) (h line : Nat) : Engine :=
  let s := e.svc h
  if s = 0 ∨ s = 1 ∨ s = 2 ∨ s = 5 then
    let e := if e.care.watch ∧ e.care.watchHeads.contains h then e.notChecked h else e
    let e := ((e.setSvc h 4).dropHead h)
    let e := e.setHead h { e.head h with coolSince := none }
    (e.raise 6 3 (detailH h 0 line)).reEval
  else e

/-- A head returns to state 0 (R211): its windows close (R317). -/
def Engine.enterService (e : Engine) (h : Nat) : Engine :=
  let e := (e.setSvc h 0).setHead h { e.head h with wdHold := false }
  e.closeWindows (fun w => match w with | .head i => i == h | _ => false)

/-! Fire counts (R222, R223, R301) -/

/-- Count the fired elements of a line: codes 1 to 7 (R222). On-chip counters are 24 bits and saturate (log entry 27, DEDUCED). -/
def Engine.countFires (e : Engine) (h : Nat) (codes : List Nat) : Engine :=
  let hit := (List.range codes.length).filter (fun n => codes.getD n 0 != 0)
  { e with care.fires := hit.foldl (fun m n =>
      cellSet (fun _ => 0) m (elemNo h n) (satAdd 24 (cellGet (fun _ => 0) m (elemNo h n)) 1)) e.care.fires }

/-- The bucket of element i follows its count (R223). -/
def Engine.setBucket (e : Engine) (i count : Nat) : Engine :=
  if bits (e.stagingEntry i) 31 24 = count / 2 ^ 24 then e else e.stageField i (count / 2 ^ 24 * 2 ^ 24) 0xff000000

/-- FIRE_COUNT_ADD for one element: a poisoned counter loses its count, an unreadable table word is rewritten from the
on-chip count alone (R301). -/
def Engine.addFire (e : Engine) (i n : Nat) : Engine :=
  if cellGet (fun _ => false) e.care.poisonF i then
    let e : Engine := { e with care.poisonF := cellErase i e.care.poisonF }
    (e.bump 0x4035 3 1).raise 0x0A 5 (detailG 5 0)
  else if e.get 0x3460 2 = 0 then e
  else
    let a := e.get 0x3460 2 + 4 * i
    match e.fireWord i with
    | some v => (e.dramStore a (toLe 4 (satAdd 32 v n))).setBucket i (satAdd 32 v n)
    | none =>
      let l := a / 64
      let e : Engine := { e with mem.written := spanAdd l (l + 1) e.mem.written, mem.bad := cellErase l e.mem.bad }
      ((e.dramStore a (toLe 4 n)).setBucket i n).raise 0x0A 6 a

/-- Add the on-chip counts to the table, after a transit or a watch run (R222, R225). -/
def Engine.addFires (e : Engine) : Engine :=
  let fs := e.care.fires
  fs.foldl (fun e p => e.addFire p.1 p.2) { e with care.fires := [] }

/-- Seed a head's table words from what was read of its FIRE_COUNT (R222, R225). -/
def Engine.seedFires (e : Engine) (h : Nat) (words : List Nat) : Engine :=
  if e.get 0x3460 2 = 0 then e
  else
    let e := e.dramStore (e.get 0x3460 2 + 8192 * h) (words.flatMap (toLe 4))
    e.each (List.range 2048) (fun e n => e.setBucket (elemNo h n) (words.getD n 0))

end Sys2Proof.Machine
end

