-- ==== Sys2Proof/Machine/Compose.lean ====
section
/-! DEFINITION. Compose and firing (R158-R181): Parallax, the Meridian interpolator, fetch, compose lines, frames, strobes. -/

namespace Sys2Proof.Machine

/-! Parallax (R159, R168) -/

/-- A populated head: one that does not report itself absent (R5, R147). -/
def Engine.populated (e : Engine) (h : Nat) : Bool := e.svc h != 6

/-- Populated heads of the banks of the store. -/
def Engine.storeHeads (e : Engine) : List Nat :=
  (List.range 128).filter (fun h => bit e.pan.banks (bankOf h) && e.populated h)

/-- bo_int and bo_frac of a bidirectional offset. -/
def boInt (bo : Int) : Int := (bo + 65536) / 32 - 2048
def boFrac (bo : Int) : Int := bo - 32 * boInt bo

/-- Effective position of row r of head h from given row positions and offset. -/
def peffOf (p : Nat) (bo : Int) (reverse : Bool) : Int := (p : Int) + (if reverse then boInt bo else 0)

/-- peff(h, r) by the entries in force. -/
def Engine.peff (e : Engine) (h r : Nat) (reverse : Bool) : Int :=
  peffOf (e.get (0x2780 + h) (r + 1)) (e.getI 16 0x2702 (bankOf h + 1)) reverse

/-- Pmax over populated heads, both rows and both directions. -/
def Engine.pmax (e : Engine) : Nat :=
  (((List.range 128).filter e.populated).map (fun h =>
    (max (max (e.peff h 0 false) (e.peff h 1 false)) (max (e.peff h 0 true) (e.peff h 1 true))).toNat)).foldl max 0

/-- DELAY of a working entry (R139): four bits' worth of 1/32 lines in two's complement. -/
def delayOf (w : Nat) : Int := signed 5 (bits w 10 6)

/-- tt of slice s of head h (R168), from its available elements. -/
def Engine.sliceDelay (e : Engine) (h s : Nat) (reverse : Bool) : Nat :=
  let q : Int := e.getI 16 (0x2780 + h) 3 * s
  let skew : Int := (q + 16 + 32000) / 32 - 1000
  let ds := ((List.range 64).map (fun i => elemNo h (64 * s + i))).filter e.elemGood
  let sum : Int := (ds.map (fun i => delayOf (e.work i))).foldl (· + ·) 0
  let cnt : Int := ds.length
  let avg : Int := if cnt = 0 then 0 else (2 * (sum + 16 * cnt) + cnt) / (2 * cnt) - 16
  let dlt := skew + avg
  (if reverse then 976 - dlt + boFrac (e.getI 16 0x2702 (bankOf h + 1)) else 976 + dlt).toNat

/-- FINE_DELAY_COMPUTE: the geometry of transit t, with the delays published in 2780h + h:05h (R168). -/
def Engine.formGeo (e : Engine) (t : Nat) (reverse : Bool) : Engine :=
  let hs := e.storeHeads
  let tts := hs.flatMap (fun h => (List.range 32).map (fun s => (32 * h + s, e.sliceDelay h s reverse)))
  let g : FineGeo :=
    { reverse := reverse, w := e.pan.resW, pmax := e.get 0x2700 0x0A - 64,
      peff := cellSetAll (fun _ => 0) (hs.flatMap (fun h =>
        [(2 * h, e.peff h 0 reverse), (2 * h + 1, e.peff h 1 reverse)])) [],
      tts := cellSetAll (fun _ => 976) tts [] }
  let e : Engine := { e with img.geos := cellSet (fun _ => {}) e.img.geos t g }
  e.each hs (fun e h => e.setDom (0x2780 + h) 5 ((List.range 32).flatMap (fun s => toLe 2 (g.tt h s))))

/-- d[s] of a slice in transit t. -/
def Engine.dOf (e : Engine) (t h s : Nat) : Nat := (e.geo t).tt h s / 32

/-- The smallest d[s] of a head. -/
def Engine.dMin (e : Engine) (t h : Nat) : Nat := ((List.range 32).map (e.dOf t h)).foldl min 60

/-! The Meridian interpolator (R160) -/

/-- Encoder counts per line of the job. -/
def Engine.cpl (e : Engine) : Nat := e.get 0x300F 3 / max 1 e.pan.resDpi

/-- A filtered count moves the position to `m`; `dt` FIRE cycles passed since the last one. An interpolator that had reached
the last sub-step before the count waited there (R160). -/
def Engine.interpCount (e : Engine) (m : Int) (dt : Nat) : Engine :=
  let e := if e.path.delta < dt then e.bump 0x2700 0x0D 1 else e
  { e with path.pos := m, path.delta := dt, path.sinceTick := e.path.sinceTick + dt }

/-- Sub-steps from the last count to the beginning of line m, in the direction of the transit. -/
def Engine.subStepsTo (e : Engine) (f : Flight) (m : Nat) : Int :=
  let a : Int := e.path.pos * (64 / max 1 e.cpl : Nat)
  if f.reverse then a - (f.origin - 64 * m) else f.origin + 64 * m - a

/-- Lines per transit C (2700h:0Bh). -/
def Engine.linesC (e : Engine) : Nat := e.get 0x2700 0x0B

/-- Whether the position has reached, or can reach before the next count, the beginning of the next line. -/
def Engine.tickReady (e : Engine) (f : Flight) : Bool :=
  !f.ret && decide (f.line < e.linesC) && decide (e.subStepsTo f f.line ≤ (64 / max 1 e.cpl : Nat) - 1)

/-! Blanked lines (R173, R174) -/

/-- The slice-line that slice s of head h carries in frame line D, or `none` where its compose line is below 0. -/
def Engine.carried (e : Engine) (t h s D : Nat) : Option SliceLine :=
  let d := e.dOf t h s
  if D < d then none
  else
    let x := cellGet (fun _ => ({} : SliceLine)) e.path.lines ((32 * h + s) * 64 + (D - d) % 64)
    if x.line = D - d ∧ x.codes ≠ [] then some x else some { line := D - d, cause4 := 2 }

/-- Dots a frame line would have fired. -/
def Engine.dotsOf (e : Engine) (t h D : Nat) : Nat :=
  ((List.range 32).map (fun s => match e.carried t h s D with
    | some x => (x.codes.filter (· != 0)).length
    | none => 0)).foldl (· + ·) 0

/-- Line sequence of line D of the transit on port h (R171). -/
def Engine.lineSeq (e : Engine) (h D : Nat) : Nat := ((e.head h).portLine + D) % 65536

/-- The fault message of a blanked line (R173): `how` 1 fetch, 2 compose, 3 serialize deadline. -/
def Engine.blankMessage (e : Engine) (t h D cause how : Nat) : Engine :=
  let dl := detailL h cause t (e.lineSeq h D)
  if cause = 5 then e
  else if cause = 4 then (e.bump 0x4110 how 1).raise 5 how dl
  else if cause = 2 then e.raise 5 4 dl
  else e.raise 5 5 dl

/-- A line of head h met the deadline of a stage: the least slack of the panel and its line (R323). Slack is never 0; its value is
open (log entry 46, DESIGN CHOICE). -/
def Engine.deadlineMet (e : Engine) (stage h seq : Nat) : Engine :=
  let v := max 1 (Config.slack stage h seq e.now).toNat
  if v < e.get 0x4110 (4 + stage) then (e.put 0x4110 (4 + stage) v).put 0x4110 (8 + stage) (h * 65536 + seq) else e

/-- Deficit of frame lines [D, last] of head h, and what no record can hold (R151, R153, R156). -/
def Engine.lineDeficit (e : Engine) (t h D last cause : Nat) : Engine :=
  let b := bankOf h
  let r : Deficit := { t := t, h := h, first := D, last := last, cause := cause }
  let full := (joinDeficit r (e.defs b)).isNone && decide (2048 ≤ (e.defs b).length)
  let e := e.addDeficit b r
  e.each ((List.range (last + 1 - D)).map (· + D)) (fun e f => e.accountLine t h f (some cause) full)

/-- LINE_BLANK: frame line D of head h is blanked with the recorded cause (R173, R174). -/
def Engine.blankLine (e : Engine) (t h D cause how : Nat) : Engine :=
  let dots := e.dotsOf t h D
  let e := (e.put (0x2780 + h) 6 cause).bump (0x2780 + h) 7 1
  let e : Engine := { e with pan.linesBlanked := e.pan.linesBlanked + 1, pan.dotsBlanked := e.pan.dotsBlanked + dots,
                             pan.deadlines := e.pan.deadlines + ofBool (cause == 4) }
  (e.blankMessage t h D cause how).lineDeficit t h D D cause

/-! Fetch (R163) -/

/-- Block rows that the elements of head h cover in transit t, with the neighbour rows that boost reads. -/
def Engine.blockRows (e : Engine) (t h : Nat) : List Nat :=
  let top := e.pan.topRow t
  let u0 := swathRow e.pan.overlap (posOf h) 0
  let hi := top - u0 + 1
  let lo := top - (u0 + 2047) - 1
  if top < u0 then [] else (List.range (hi / 64 + 1 - lo / 64)).map (· + lo / 64)

/-- Request one block: its tag is read (R163). -/
def Engine.requestBlock (e : Engine) (b bx by_ : Nat) : Engine :=
  let slot := e.pan.slot b bx by_
  match cellFind slot e.path.fetch with
  | some (.accepted _) | some .requested | some .refused | some .busError => e
  | _ =>
    let st : Fetched := match e.tagOf slot with
      | none => .busError
      | some t => if tagLen t = 0 ∨ tagGen t ≠ e.pan.gen by_ then .unwritten else if tagLen t = 1 then .refused else .requested
    let e := match st with | .refused => e.bump 0x2470 0x15 1 | _ => e
    { e with path.fetch := cellInsert slot st (cellErase slot e.path.fetch) }

/-- Request the block columns of compose line m: the one each row's column lies in and the next in compose order. -/
def Engine.requestBlocks (e : Engine) (f : Flight) (m : Nat) : Engine :=
  let g := e.geo f.t
  e.each e.storeHeads (fun e h => e.each [0, 1] (fun e r =>
    let x := g.column h r m
    let nx := if f.reverse then x - 64 else x + 64
    let cols := ([x, nx].filter (fun (c : Int) => decide (0 ≤ c) && decide (c < (e.pan.resW : Int)))).map
      (fun (c : Int) => c.toNat / 64)
    e.each cols (fun e bx =>
      e.each (e.blockRows f.t h) (fun e by_ =>
        if (cellFind (e.pan.slot (bankOf h) bx by_) e.path.fetch).isSome then e
        else e.requestBlock (bankOf h) bx by_))))

/-- FETCH_TAG_REREAD: the tag of a block found unwritten is read again. -/
def Engine.tagReread (e : Engine) (b bx by_ : Nat) : Engine :=
  if e.pan.flight.isNone ∨ cellFind (e.pan.slot b bx by_) e.path.fetch ≠ some .unwritten then e else e.requestBlock b bx by_

/-- R163. -/
def execFetchTagReread (b : Fin 8) (bx : Nat) (by_ : Nat) (s : State) : Host.Outcome State Fault Refusal :=
  onEngine (whenLive (fun e => e.tagReread b.val bx by_)) s

/-- FETCH_BLOCK_ACCEPT: the payload of a requested block returns and is checked (R99, R103). -/
def Engine.blockAccept (e : Engine) (b bx by_ : Nat) : Engine :=
  let slot := e.pan.slot b bx by_
  if e.pan.flight.isNone ∨ cellFind slot e.path.fetch ≠ some .requested then e
  else
    let tag := (e.tagOf slot).getD 0
    let st : Fetched := match e.dramRead (e.pan.slotAddr slot) (8 * min 128 (tagLen tag)) with
      | none => .busError
      | some bs => match acceptBlock tag bs with
        | some l => .accepted l
        | none => .refused
    let e := match st with | .refused => e.bump 0x2470 0x15 1 | _ => e
    { e with path.fetch := cellInsert slot st (cellErase slot e.path.fetch) }

/-- R163. -/
def execFetchBlockAccept (b : Fin 8) (bx : Nat) (by_ : Nat) (s : State) : Host.Outcome State Fault Refusal :=
  onEngine (whenLive (fun e => e.blockAccept b.val bx by_)) s

/-- What element (h, n) lacks of compose line m: 0 nothing, 3 or 4 the cause, 13 a bus error. A slice-line needs the blocks of
the pixels that its elements are planned for. -/
def Engine.elemLack (e : Engine) (f : Flight) (h n m : Nat) : Nat :=
  let b := bankOf h
  let x := (e.geo f.t).column h n m
  let top := e.pan.topRow f.t
  let u := swathRow e.pan.overlap (posOf h) n
  if x < 0 ∨ (e.pan.resW : Int) ≤ x ∨ top < u then 0
  else
    let y := top - u
    if (e.plan b y).elem (f.t - firstCover e.pan.resH e.pan.resP y) ≠ some (elemNo h n) then 0
    else match cellGet (fun _ => Fetched.unwritten) e.path.fetch (e.pan.slot b (x.toNat / 64) (y / 64)) with
      | .accepted _ => 0
      | .refused => 3
      | .busError => 13
      | .unwritten | .requested => 4

/-- The fetch deadline of compose line m (R163): slice-lines that lack a block fail; cause 3 comes before 4. -/
def Engine.fetchDeadline (e : Engine) (f : Flight) : Engine :=
  let m := f.composed
  let e : Engine := { e with path.cutFor := some m, path.fails := [] }
  let e := e.each e.storeHeads (fun e h => e.each (List.range 32) (fun e s =>
    let ls := (List.range 64).map (fun i => e.elemLack f h (64 * s + i) m)
    let three := ls.any (fun l => l == 3 || l == 13)
    let e := if ls.contains 13 then e.bump 0x2700 7 1 else e
    let e := if ls.contains 4 then e.bump 0x2700 4 1 else e
    if three ∨ ls.contains 4 then
      { e with path.fails := cellSet (fun _ => 0) e.path.fails (32 * h + s) (if three then 3 else 4) }
    else e))
  e.each e.storeHeads (fun e h =>
    if (e.head h).serving ∧ (List.range 32).all (fun s => cellGet (fun _ => 0) e.path.fails (32 * h + s) == 0) then
      e.deadlineMet 1 h (e.lineSeq h m)
    else e)

/-- The flight and whether PIPE tick of D − 2 of its next compose line D has come. -/
def Engine.composing (e : Engine) : Option Flight :=
  match e.pan.flight with
  | some f => if !f.ret ∧ f.composed < e.linesC ∧ f.composed ≤ f.line + 1 then some f else none
  | none => none

/-- R163. -/
def execFetchDeadline (s : State) : Host.Outcome State Fault Refusal :=
  onEngine (whenLive (fun e => match e.composing with
    | some f => if e.path.cutFor = some f.composed then e else e.fetchDeadline f
    | none => e)) s

/-! Compose lines (R162-R170, R175) -/

/-- The band after a temperature (R167). -/
def nextBand (th : Nat → Nat) (hyst temp band : Nat) : Nat :=
  let up (b : Nat) : Nat := if b < 3 ∧ th (b + 1) ≤ temp then b + 1 else b
  let down (b : Nat) : Nat := if 0 < b ∧ temp + hyst < th b then b - 1 else b
  iter down 3 (iter up 3 band)

/-- BAND_UPDATE of head h: 0 without a valid temperature since discovery. -/
def Engine.bandUpdate (e : Engine) (h : Nat) : Engine :=
  let i := 0x2440 + bankOf h
  e.put (0x2780 + h) 4 (if (e.head h).tempValid then
    nextBand (fun k => e.get i (k + 1)) (e.get i 5) (e.get (headIdx h) 6) (e.get (0x2780 + h) 4) else 0)

/-- COMPOSE_LINE_START: at the PIPE tick of D − 2 the bands are taken and the blocks 64 lines ahead are requested; the fetch
deadline of the line has come. Warming loops are evaluated after the tick (R254). -/
def Engine.lineStart (e : Engine) : Engine :=
  match e.composing with
  | none => e
  | some f =>
    if e.path.started.isSome then e
    else
      let e := if e.path.cutFor = some f.composed then e else e.fetchDeadline f
      let e := e.each e.storeHeads Engine.bandUpdate
      let e := e.requestBlocks f (f.composed + 64)
      let e : Engine := { e with path.started := some f.composed }
      e.each (e.enabledLoops 0 128) (fun e l => e.evalTimed l)

/-- The elements of a slice that meet poison in compose line m, and what it lies in. -/
def Engine.slicePixels (e : Engine) (f : Flight) (h s m : Nat) : List (Nat × Nat × Nat) :=
  let top := e.pan.topRow f.t
  ((List.range 64).map (fun i => 64 * s + i)).filterMap (fun n =>
    let x := (e.geo f.t).column h n m
    let u := swathRow e.pan.overlap (posOf h) n
    if x < 0 ∨ (e.pan.resW : Int) ≤ x ∨ top < u then none else some (n, x.toNat, top - u))

/-- Poison met by a slice-line: a mask cell, a working entry, a row plan word, a drive-map byte (R155, R175, R301). Each is
counted in its group and named once; the slice-line fails with cause 3. -/
def Engine.slicePoison (e : Engine) (f : Flight) (h s m : Nat) : Engine × Bool :=
  let b := bankOf h
  let px := e.slicePixels f h s m
  let masks := px.filter (fun p => e.maskPoison (e.plan b p.2.2) p.2.1 p.2.2)
  let works := px.filter (fun p => e.poisonedW (elemNo h p.1))
  let plans := px.filter (fun p => (e.plan b p.2.2).poisoned)
  let maps := (px.filterMap (fun p => e.mapIndex f.t h p.1 p.2.1)).filter (fun k => cellGet (fun _ => false) e.img.poisonD k)
  let e := match masks with
    | [] => e
    | p :: _ => (e.bump 0x4034 3 1).raise 5 8 (e.plan b p.2.2).sel.m
  let e := if works.isEmpty then e else e.bump 0x4033 3 1
  let e := match plans with
    | [] => e
    | p :: _ => (e.bump 0x4033 3 1).raise 4 2 (detailB b p.2.2)
  let e := match maps with
    | [] => e
    | k :: _ =>
      let e := (e.bump 0x4034 3 1).raise 5 7 (detailB b 0)
      { e with path.maps := cellSet mapDefault e.path.maps k (cellGet mapDefault e.path.twins k),
               img.poisonD := cellErase k e.img.poisonD }
  (e, !masks.isEmpty || !works.isEmpty || !plans.isEmpty || !maps.isEmpty)

/-- A poisoned deficit record of bank b met by compose (R155): the bank fires no further pixel of the rows under the swath that
have a pass still to come. -/
def Engine.deficitPoison (e : Engine) (f : Flight) (b : Nat) : Engine :=
  if !cellGet (fun _ => false) e.img.poisonB b then e
  else
    let e := (e.bump 0x4033 3 1).raise 4 3 (detailB b 0)
    { e with img.poisonB := cellErase b e.img.poisonB, img.deficits := cellErase b e.img.deficits,
             img.deadBank := cellSet (fun _ => 0) e.img.deadBank b (e.pan.topRow f.t + 1) }

/-- Store a slice-line. -/
def Engine.storeSlice (e : Engine) (h s : Nat) (x : SliceLine) : Engine :=
  { e with path.lines := cellInsert ((32 * h + s) * 64 + x.line % 64) x (cellErase ((32 * h + s) * 64 + x.line % 64) e.path.lines) }

/-- Compose one slice-line and check it against the twin's (R164, R170, R175). -/
def Engine.composeSlice (e : Engine) (f : Flight) (h s m : Nat) (twin poison : Bool) : Engine :=
  let fail := cellGet (fun _ => 0) e.path.fails (32 * h + s)
  let (e, bitten) := e.slicePoison f h s m
  let e := if poison || bitten then e.bump 0x2700 7 1 else e
  let e := if twin then e.bump 0x2700 2 1 else e
  let codes := (List.range 64).map (fun i => e.codeOf f.t h (64 * s + i) ((e.geo f.t).column h (64 * s + i) m))
  e.storeSlice h s { line := m, codes := codes, check := checkWord codes,
                     cause3 := twin || poison || bitten || fail == 3, cause4 := if fail = 4 then 1 else 0, twin := twin }

/-- COMPOSE_LINE_COMPLETE: every slice-line of the line in progress is written with its check word before the deadline. -/
def Engine.lineComplete (e : Engine) (twin poison : List (Fin 128 × Fin 32)) : Engine :=
  match e.pan.flight, e.path.started with
  | some f, some m =>
    if m ≠ f.composed then e
    else
      let e := e.each e.pan.bankList (fun e b => e.deficitPoison f b)
      let e := e.each e.storeHeads (fun e h => e.each (List.range 32) (fun e s =>
        e.composeSlice f h s m (twin.any (fun p => p.1.val == h && p.2.val == s))
          (poison.any (fun p => p.1.val == h && p.2.val == s))))
      let e := e.each e.storeHeads (fun e h =>
        if (e.head h).serving ∧ (List.range 32).all (fun s =>
            match cellFind ((32 * h + s) * 64 + m % 64) e.path.lines with
            | some x => !x.cause3 && x.cause4 == 0
            | none => false) then
          e.deadlineMet 2 h (e.lineSeq h m)
        else e)
      let e := e.put 0x2700 1 ((e.get 0x2700 1 + 128) % 2 ^ 64)
      match e.pan.flight with
      | some g => { e with path.started := none, pan.flight := some { g with composed := m + 1 } }
      | none => e
  | _, _ => e

/-- COMPOSE_DEADLINE: at the PIPE tick of D − 1 the slice-lines of compose line D that are not written fail with cause 4. A
line in bypass of PLL-A marks the transit's later frames (R179). -/
def Engine.lineDeadline (e : Engine) : Engine :=
  match e.pan.flight with
  | some f =>
    if f.ret ∨ e.linesC ≤ f.composed ∨ f.line < f.composed then e
    else
      let m := f.composed
      let e := e.bump 0x2700 5 1
      let e := e.each e.storeHeads (fun e h => e.each (List.range 32) (fun e s =>
        let fail := cellGet (fun _ => 0) e.path.fails (32 * h + s)
        e.storeSlice h s { line := m, codes := List.replicate 64 0, check := checkWord (List.replicate 64 0),
                           cause3 := fail == 3 && e.path.cutFor == some m, cause4 := 2 }))
      let miss := if e.get 0x4281 1 ≠ 2 then f.miss.or (some m) else f.miss
      { e with path.started := none, pan.flight := some { f with composed := m + 1, miss := miss } }
  | none => e

/-- R162, R167, R163. -/
def execComposeLineStart (s : State) : Host.Outcome State Fault Refusal := onEngine (whenLive Engine.lineStart) s

/-- R170. -/
def execComposeLineComplete (twin poison : List (Fin 128 × Fin 32)) (s : State) : Host.Outcome State Fault Refusal :=
  onEngine (whenLive (fun e => e.lineComplete twin poison)) s

/-- R162. -/
def execComposeDeadline (s : State) : Host.Outcome State Fault Refusal := onEngine (whenLive Engine.lineDeadline) s

/-! Frames (R171, R172) -/

/-- Whether reading a slice-line back from the fine line buffers fails its check (R171 step 2). -/
def SliceLine.readBad (x : SliceLine) (flagged : Bool) : Bool := flagged || checkWord x.codes != x.check

/-- The recorded cause of frame line D of head h (R173, R151): 0 when it is not blanked. -/
def Engine.frameCause (e : Engine) (f : Flight) (h D : Nat) (ls : List (Option SliceLine)) (bad : Bool) : Nat :=
  if e.blankDemand ∨ f.gated ∨ f.aborted then 5
  else if e.svc h = 3 ∨ e.svc h = 4 then 2
  else if bad ∨ ls.any (fun x => match x with | some y => y.cause3 | none => false) then 3
  else if ls.any (fun x => match x with | some y => y.cause4 != 0 | none => false) ∨ f.noFrames ∨
      f.miss.any (fun m => decide (m + e.dMin f.t h ≤ D)) then 4
  else 0

/-- Which deadline a line of cause 4 missed: fetch where only fetch failed it, else compose. -/
def frameHow (ls : List (Option SliceLine)) : Nat :=
  if ls.any (fun x => match x with | some y => y.cause4 == 2 | none => false) then 2
  else if ls.any (fun x => match x with | some y => y.cause4 == 1 | none => false) then 1 else 2

/-- Send a LINE frame and expect its echo. -/
def Engine.sendLine (e : Engine) (f : Flight) (h D : Nat) (blank : Bool) (ls : List (Option SliceLine)) : Engine :=
  let x := e.head h
  let codes := ls.map (fun l => match l with
    | some y => if blank ∨ y.codes = [] then List.replicate 64 0 else y.codes
    | none => List.replicate 64 0)
  let fr := lineFrame (e.flag (0x3100 + h) 0x0C && e.get (0x3100 + h) 0x0E != 1) blank f.reverse (e.lineSeq h D)
    ((List.range 32).map (fun s => (e.geo f.t).tt h s % 32)) codes
  let ec : Echo := { t := some f.t, seq := e.lineSeq h D, crc := le (fr.drop 792), blank := blank, line := D, codes := codes.flatten }
  (e.setHead h { x with echoes := x.echoes ++ [ec], blankSeen := if blank then e.flt.reactions else x.blankSeen,
                        meas := false }).send (.line h fr)

/-- FRAME_SERIALIZE: the next frame line of head h. `readback`: slices whose bytes failed their check bits. -/
def Engine.serialize (e : Engine) (h : Nat) (readback : List (Fin 32)) : Engine :=
  match e.pan.flight with
  | none => e
  | some f =>
    let x := e.head h
    let D := x.frame
    if f.ret ∨ e.linesC ≤ D ∨ f.line < D ∨ !e.storeHeads.contains h then e
    else
      let ls := (List.range 32).map (fun s => e.carried f.t h s D)
      let bads := (List.range 32).filter (fun s => match ls.getD s none with
        | some y => y.readBad (readback.any (fun r => r.val == s))
        | none => readback.any (fun r => r.val == s))
      let e := if bads.isEmpty then e else e.bump 0x2700 3 bads.length
      let e := e.setHead h { x with frame := D + 1 }
      let down := e.get 0x4282 1 != 2
      let e : Engine := if down then { e with pan.flight := some { f with noFrames := true } } else e
      if !x.serving then (if down then e else e.sendLine f h D true ls)
      else
        let cause := if down ∧ !(e.blankDemand ∨ f.gated ∨ f.aborted ∨ e.svc h = 3 ∨ e.svc h = 4) then 4
          else e.frameCause f h D ls (!bads.isEmpty)
        let e := if down then e else e.sendLine f h D (cause != 0) ls
        if cause = 0 then e
        else
          let e := e.blankLine f.t h D cause (frameHow ls)
          match (List.range 32).find? (fun s => match ls.getD s none with | some y => y.twin | none => false) with
          | some s => if cause = 3 then e.raise 5 6 (detailT h s (e.lineSeq h D)) else e
          | none => e

/-- R171, R173. -/
def execFrameSerialize (h : Fin 128) (readback : List (Fin 32)) (s : State) : Host.Outcome State Fault Refusal :=
  onEngine (whenLive (fun e => e.serialize h.val readback)) s

/-- SERIALIZE_DEADLINE: the frame of the next FIRE edge is not complete; it is cut, or never started (R172). -/
def Engine.cutFrame (e : Engine) (h : Nat) : Engine :=
  match e.pan.flight with
  | none => e
  | some f =>
    let x := e.head h
    let D := f.line
    if f.ret ∨ e.linesC ≤ D ∨ x.cut = some D ∨ D + 1 < x.frame ∨ !e.storeHeads.contains h then e
    else
      let sent := x.echoes.find? (fun c => c.line == D)
      let plain : Bool := match sent with | some c => !c.blank | none => decide (x.frame ≤ D)
      let e := e.setHead h { x with cut := some D, frame := max x.frame (D + 1),
                                    echoes := x.echoes.filter (fun c => c.line != D) }
      let e := e.bump 0x2700 6 1
      if x.serving ∧ plain then e.blankLine f.t h D (if e.blankDemand ∨ f.gated then 5 else if 3 ≤ e.svc h then 2 else 4) 3 else e

/-- R172. -/
def execSerializeDeadline (h : Fin 128) (s : State) : Host.Outcome State Fault Refusal :=
  onEngine (whenLive (fun e => e.cutFrame h.val)) s

/-! Ticks and strobes (R177, R178) -/

/-- Why the pulse of line m of head h is withheld, as the cause of the loss: `none` when it is sent. -/
def Engine.withheld (e : Engine) (f : Flight) (h m : Nat) : Option Nat :=
  let x := e.head h
  if x.cut = some m ∨ x.echoes.all (fun c => c.line != m) then some 4
  else if 2 ≤ e.svc h ∨ x.wdHold then some 2
  else if x.blankSeen < e.flt.reactions ∨ e.haltDemand ∨ f.gated then some 5
  else none

/-- Raise the strobe of head h and mark the echo of line m as due (R177, R194). -/
def Engine.strobeHead (e : Engine) (h m : Nat) : Engine :=
  let x := e.head h
  let es := x.echoes.map (fun c => if c.line = m then { c with fired := true } else c)
  (e.setHead h { x with strobeHigh := true, echoes := es }).send (.strobe h true)

/-- The pulse of line m of head h is sent or withheld. A frame that is not there is cut (R172). A frame that was sent without BLANK and gets no pulse is not fired: its
line is recorded as blanked, and no echo is checked for it (R177, R194). -/
def Engine.fireHead (e : Engine) (f : Flight) (h m : Nat) : Engine :=
  let e := if (e.head h).frame ≤ m then e.cutFrame h else e
  match e.withheld f h m with
  | none =>
    let met := (e.head h).serving && (e.head h).cut != some m && (e.head h).echoes.any (fun c => c.line == m && !c.blank)
    (if met then e.deadlineMet 3 h (e.lineSeq h m) else e).strobeHead h m
  | some cause =>
    let x := e.head h
    let lost := x.serving && x.echoes.any (fun c => c.line == m && !c.blank)
    let e := e.setHead h { x with echoes := x.echoes.filter (fun c => c.line != m) }
    if lost ∧ x.cut ≠ some m then e.blankLine f.t h m cause 3 else e

/-- The rows whose passes straddle the boundary before transit t, where the interval across it or the new cadence differs from
the old one by more than 50 µs (R50): from the first row still to print after transit t − 1 to the last that it covered. -/
def Engine.cadenceBreak (e : Engine) (t : Nat) : Engine :=
  let old := e.pan.lastCadence
  let gap : Int := ((e.now - e.pan.lastStart : Nat) : Int) - 50 * old
  let step : Int := (e.get 0x2202 4 : Int) - old
  let first := if t + 1 ≤ e.pan.resP then 0 else advSum e.pan.resH e.pan.resP (t + 1 - e.pan.resP)
  let last := advSum e.pan.resH e.pan.resP t
  if t = 0 ∨ old = 0 ∨ last ≤ first ∨ (gap.natAbs ≤ 2500 ∧ step.natAbs ≤ 50) then e
  else { e with pan.breaks := e.pan.breaks ++ [(first, last)] }

/-- CADENCE_DEVIATION: the first FIRE edge against its nominal start (R37, R38). -/
def Engine.firstEdge (e : Engine) (f : Flight) : Engine :=
  let dev : Int := ((e.now : Int) - f.nominal) * 20
  let e := (e.putI 32 0x2202 7 dev).put 0x2202 8 (max (e.get 0x2202 8) dev.natAbs)
  let e := if f.index = 0 then e.cadenceBreak f.t else e
  let e : Engine := { e with pan.lastStart := e.now }
  if 50000 < dev.natAbs then e.raise 3 1 (f.t % 256 * 2 ^ 32 + unsigned 32 dev) else e

/-- MERIDIAN_TICK: the tick of the next line of the transit (R160). -/
def Engine.meridian (e : Engine) : Engine :=
  match e.pan.flight with
  | none => e
  | some f =>
    if !e.tickReady f then e
    else
      let ahead := e.subStepsTo f f.line
      let off : Int := if ahead ≤ 0 then 0 else ahead * e.path.delta * e.cpl / 64
      let gap := e.path.sinceTick + off
      let e := if f.line = 0 then e.firstEdge f else e.put 0x2700 0x0C (gap * 5 / 4).toNat
      let e : Engine := { e with path.sinceTick := -off }
      let e := e.each e.storeHeads (fun e h => e.fireHead f h f.line)
      match e.pan.flight with
      | some g => { e with pan.flight := some { g with line := f.line + 1 } }
      | none => e

/-- R160. -/
def execMeridianTick (s : State) : Host.Outcome State Fault Refusal := onEngine (whenLive Engine.meridian) s

/-- The strobe of head h falls. -/
def Engine.strobeLow (e : Engine) (h : Nat) : Engine :=
  if (e.head h).strobeHigh then (e.setHead h { e.head h with strobeHigh := false }).send (.strobe h false) else e

/-- R177: the strobes of a bank fall once its pulse width has elapsed. -/
def execFirePulseEnd (b : Fin 8) (s : State) : Host.Outcome State Fault Refusal :=
  onEngine (whenLive (fun e => e.each ((List.range 16).map (· + 16 * b.val)) Engine.strobeLow)) s

/-- STROBE_WATCHDOG_TRIP (R178): the strobe is forced low and held, the head is Lost. -/
def Engine.strobeTrip (e : Engine) (h : Nat) : Engine :=
  if !(e.head h).strobeHigh then e
  else
    let e := e.strobeLow h
    let e := (e.setHead h { e.head h with wdHold := true }).bump 0x2700 9 1
    let line := match e.pan.flight with
      | some f => e.lineSeq h (f.line - 1)
      | none => e.lineSeq h 0
    (if e.svc h = 6 ∨ e.svc h = 4 then e else e.enterLost h).raise 5 0x0A (detailH h 0 line)

/-- R178. -/
def execStrobeWatchdogTrip (h : Fin 128) (s : State) : Host.Outcome State Fault Refusal :=
  onEngine (whenLive (fun e => e.strobeTrip h.val)) s

end Sys2Proof.Machine
end

