-- ==== Sys2Proof/Machine/Link.lean ====
section
/-! DEFINITION. The head link (R182-R208): STATUS and echoes, receivers, commands and head memory; temperature limits
(R220, R221); return to service (R209-R212). -/

namespace Sys2Proof.Machine

/-- Sequence of the last line on port h. -/
def Engine.lastLine (e : Engine) (h : Nat) : Nat :=
  let n := (e.head h).portLine + (match e.pan.flight with | some f => if f.ret then 0 else f.line | none => 0)
  (n - 1) % 65536

/-- Whether a transit is between its first and last FIRE edge (R198). -/
def Engine.midTransit (e : Engine) : Bool := e.pan.flight.any (fun f => !f.ret && decide (0 < f.line))

/-! Warming outside transits (R255) -/

/-- IDLE_WARM_WRITE: the loop's output is carried into IDLE_WARM where it differs from the bit last written. -/
def Engine.idleWarm (e : Engine) (h : Nat) : Engine :=
  let x := e.head h
  let out := e.flag (0x3100 + h) 0x0C
  if e.pan.flight.isSome ∨ e.care.watch ∨ x.meas ∨ !e.rxUp h ∨ out = x.idleWarm then e else e.writeControl h false out

/-- Write WARM_PERIOD of head h (R255) once its receiver is up. -/
def Engine.warmPeriod (e : Engine) (h v : Nat) : Engine := if e.rxUp h then e.enqueue h (writeCmd 0x28 (toLe 2 v)) else e

/-- The set-point of a loop is written: its following-error timer restarts (R252), and trace units of mode 3 on it trigger
(R262). -/
def Engine.spWrite (e : Engine) (l : Nat) : Engine :=
  (e.setLoop l { e.loop l with spWritten := true }).each [0, 1, 2, 3] (fun e u =>
    if e.get (traceIdx u) 7 = 3 ∧ e.get (traceIdx u) 3 = 1 ∧ e.get (traceIdx u) 4 = l then e.traceTrig u else e)

/-! Echoes (R176, R194) -/

/-- ECHO_FAILURE: counted, a deficit of cause 3 for a frame that was not BLANK, a fault; at a limit the head is Lost. -/
def Engine.echoFailed (e : Engine) (h : Nat) (c : Echo) : Engine :=
  let e := e.bump 0x2700 8 1
  let e := match c.t with
    | some t => if c.blank then e else e.lineDeficit t h c.line c.line 3
    | none => e
  let e := (e.bump (headIdx h) 7 1).bump (headIdx h) 8 1
  let e := if (e.get 0x2703 1 ≤ e.get (headIdx h) 7 ∨ e.get 0x2703 2 ≤ e.get (headIdx h) 8) ∧ (e.svc h = 0 ∨ e.svc h = 1) then
    e.enterLost h else e
  e.raise 5 9 (detailH h 0 c.seq)

/-- The echo of a frame passes: its fires are counted (R222) and its pixels accounted for. -/
def Engine.echoPassed (e : Engine) (h : Nat) (c : Echo) : Engine :=
  let e := e.put (headIdx h) 7 0
  if c.blank then e
  else
    let e := (e.countFires h c.codes).deadlineMet 4 h c.seq
    match c.t with
    | some t => e.accountLine t h c.line none false
    | none => e

/-- The frames of head h whose FIRE edge has come are judged by the first STATUS after it. -/
def Engine.judgeEchoes (e : Engine) (h flags seq crc : Nat) : Engine :=
  let x := e.head h
  let due := x.echoes.filter (fun c => c.fired)
  let e := e.setHead h { x with echoes := x.echoes.filter (fun c => !c.fired) }
  due.foldl (fun e c =>
    if bit flags 0 ∧ seq = c.seq ∧ crc = c.crc then e.echoPassed h c else e.echoFailed h c) e

/-- ECHO_DEADLINE: at the HEAD tick of D + 2 the oldest frame still without its echo has failed. -/
def Engine.echoLate (e : Engine) (h : Nat) : Engine :=
  let x := e.head h
  match x.echoes.find? (fun c => c.fired) with
  | none => e
  | some c =>
    ((e.setHead h { x with echoes := x.echoes.filter (fun d => d.line != c.line || d.t != c.t) }).bump 0x4110 4 1).echoFailed h c

/-- R176, R194. -/
def execEchoDeadline (h : Fin 128) (s : State) : Host.Outcome State Fault Refusal :=
  onEngine (whenLive (fun e => e.echoLate h.val)) s

/-! Temperature (R193, R220, R221) -/

/-- The limits of a valid temperature: soft, cooling of an over-temperature head, hard. -/
def Engine.tempLimits (e : Engine) (h temp : Nat) : Engine :=
  let soft := e.get (bankIdx h) 1
  let hyst := e.get (bankIdx h) 3
  let cool := decide (temp + hyst < soft)
  let x := e.head h
  let x := { x with soft := if soft ≤ temp then true else x.soft && !cool,
                    coolSince := if e.svc h = 4 ∧ cool then x.coolSince.or (some e.now) else none }
  let e := e.setHead h x
  if e.get (bankIdx h) 2 ≤ temp then e.enterOverTemp h (e.lastLine h) else e

/-- STATUS_RECEIVED: bytes 0 to 11 of a STATUS frame. One with a bad CHK is discarded and counted. Counts of a transit or run
that has ended are added (R222). -/
def Engine.status (e : Engine) (h : Nat) (fr : List Byte) : Engine :=
  if fr.length ≠ 12 ∨ le (fr.take 1) ≠ 0x81 ∨ le (fr.drop 10) ≠ crc16 (fr.take 10) then e.bump (headIdx h) 4 1
  else
    let flags := le ((fr.drop 1).take 1)
    let temp := le ((fr.drop 8).take 2) % 1024
    let e := e.put (headIdx h) 5 flags
    let e := if bit flags 3 then
        (e.put (headIdx h) 6 temp).setHead h { e.head h with tempValid := true, tempAt := e.now, stale := false }
      else e
    let e := if bit flags 4 then e else e.judgeEchoes h flags (le ((fr.drop 2).take 2)) (le ((fr.drop 4).take 4))
    let e := if bit flags 3 then e.tempLimits h temp else e
    let e := if e.pan.flight.isNone ∧ !e.care.watch ∧ !e.care.fires.isEmpty then e.addFires else e
    e.reEval.idleWarm h

/-- R193. -/
def execStatusReceived (h : Fin 128) (frame : List Byte) (s : State) : Host.Outcome State Fault Refusal :=
  onEngine (whenLive (fun e => e.status h.val frame)) s

/-- TEMPERATURE_STALE: 1 ms without a valid temperature; a receiver that is down is not handled here. -/
def Engine.tempStale (e : Engine) (h : Nat) : Engine :=
  let x := e.head h
  if !e.rxUp h ∨ x.stale then e
  else ((e.setHead h { x with stale := true }).raise 6 4 (detailH h 0 (e.lastLine h))).reEval.idleWarm h

/-- TEMPERATURE_STALE_LIMIT: after 100 ms a head in state 0 or 1 is handled as at the hard limit. -/
def Engine.staleLimit (e : Engine) (h : Nat) : Engine :=
  if (e.head h).stale ∧ (e.svc h = 0 ∨ e.svc h = 1) then e.enterOverTemp h (e.lastLine h) else e

/-- R221. -/
def execTemperatureStale (h : Fin 128) (s : State) : Host.Outcome State Fault Refusal :=
  onEngine (whenLive (fun e => e.tempStale h.val)) s

/-- R221. -/
def execTemperatureStaleLimit (h : Fin 128) (s : State) : Host.Outcome State Fault Refusal :=
  onEngine (whenLive (fun e => e.staleLimit h.val)) s

/-- R212: a head in state 4 that has stayed cool for 2 s goes to state 5. -/
def execHeadCooldownExpiry (h : Fin 128) (s : State) : Host.Outcome State Fault Refusal :=
  onEngine (whenLive (fun e =>
    if e.svc h.val = 4 ∧ (e.head h.val).coolSince.isSome then (e.enterQuarantine h.val).reEval else e)) s

/-! Receivers (R184, R185, R209) -/

/-- Detection of head h: its service state changes (R209), the head's CONTROL is at reset, WARM_PERIOD is written (R255). -/
def Engine.detected (e : Engine) (h : Nat) : Engine :=
  let e := e.setHead h { e.head h with suspended := 0, tempValid := false, stale := false, meas := false, idleWarm := false }
  let e := ((e.put (headIdx h) 1 2).bump (headIdx h) 2 1).setCheck h 4 true
  let e := e.enqueue h (writeCmd 0x28 (toLe 2 (e.get (0x3100 + h) 0x12)))
  let s := e.svc h
  let e := if s = 0 ∨ s = 1 then e else e.enterQuarantine h
  e.reEval.idleWarm h

/-- RET_RECEIVER_UP: a receiver realigned after PLL-B resumes its state (R185), any other is a detection. -/
def Engine.receiverUp (e : Engine) (h : Nat) : Engine :=
  let x := e.head h
  let st := e.get (headIdx h) 1
  if st = 2 ∨ st = 3 then e
  else if x.suspended = 3 then ((e.put (headIdx h) 1 2).setHead h { x with suspended := 0 }).reEval
  else e.detected h

/-- What a receiver going down does (R184, R212, R224): write-backs and identity reads in progress are lost. -/
def Engine.receiverLost (e : Engine) (h : Nat) : Engine :=
  let x := e.head h
  let e := (e.put (headIdx h) 1 0).setCheck h 4 false
  let e := e.setHead h { x with suspended := 0, echoes := [], identLeft := 0, inSweep := false, todo := [],
                                queue := x.queue.filter (fun c => c.host || c.addr < 0x2000 && !(c.ty == 0x10 && identityAddr c.addr)) }
  let s := e.svc h
  let e := if s = 0 ∨ s = 1 then (e.enterLost h).raise 6 5 (detailH h 0 (e.lastLine h))
    else if s = 5 then e.clearChecks h else e
  e.reEval

/-- R184. -/
def execRetReceiverUp (h : Fin 128) (s : State) : Host.Outcome State Fault Refusal :=
  onEngine (whenLive (fun e => (if e.idle = 1 then e.wake 8 else e).receiverUp h.val)) s

/-- R184: `codeErrors` code and disparity errors were counted on the way. -/
def execRetReceiverDown (h : Fin 128) (codeErrors : Nat) (s : State) : Host.Outcome State Fault Refusal :=
  onEngine (whenLive (fun e =>
    let e := e.bump (headIdx h.val) 3 codeErrors
    if e.get (headIdx h.val) 1 = 2 then e.receiverLost h.val else e)) s

/-- R185: a receiver not up within 100 µs of relock goes down. -/
def execRetRealignTimeout (h : Fin 128) (s : State) : Host.Outcome State Fault Refusal :=
  onEngine (whenLive (fun e =>
    if (e.head h.val).suspended = 3 ∧ e.get (headIdx h.val) 1 ≠ 3 then e.receiverLost h.val else e)) s

/-! Return commands (R211, R212) -/

/-- Begin return. -/
def Engine.beginReturn (e : Engine) (h : Nat) : Engine :=
  if e.svc h = 2 ∨ (e.svc h = 3 ∧ e.rxUp h) then ((e.enterQuarantine h).reEval).done else e.refuse abState

/-- Whether every condition of R211 holds. -/
def Engine.mayReturn (e : Engine) (h : Nat) : Bool :=
  e.svc h == 5 && e.check h 0 && e.check h 1 && e.check h 2 && e.check h 3 && e.rxUp h

/-- Release: in Idle the head returns at once. -/
def Engine.releaseHead (e : Engine) (h : Nat) : Engine :=
  if e.svc h ≠ 5 ∨ !e.check h 0 ∨ !e.check h 1 ∨ !e.check h 2 then e.refuse abState
  else
    let e := e.setCheck h 3 true
    (if e.jobState = 0 ∧ e.mayReturn h then (e.enterService h).reEval else e).done

/-- Step 4 of a panel boundary (R46): heads that meet R211 return. -/
def Engine.returnHeads (e : Engine) : Engine :=
  (e.each ((List.range 128).filter e.mayReturn) Engine.enterService).reEval

/-- R212. -/
def execHeadBeginReturn (h : Fin 128) (s : State) : Host.Outcome State Fault Refusal :=
  onEngine (request (headIdx h.val) (fun e => e.beginReturn h.val)) s

/-- R211. -/
def execHeadRelease (h : Fin 128) (s : State) : Host.Outcome State Fault Refusal :=
  onEngine (request (headIdx h.val) (fun e => e.releaseHead h.val)) s

/-! Commands (R195-R198) -/

/-- Whether a command may be sent now: during a transit only READ, PING and writes to FIRE_COUNT (R198). -/
def Engine.mayIssue (e : Engine) (c : HeadCmd) : Bool :=
  !e.midTransit || c.ty == 0x10 || c.ty == 0x13 || (c.ty == 0x11 && 0x2000 ≤ c.addr && c.addr < 0x4000)

/-- HEAD_COMMAND_ISSUE: the first command of the queue that may be sent, with a new TAG; nothing while DATA is stopped. -/
def Engine.issue (e : Engine) (h : Nat) : Engine :=
  let x := e.head h
  match x.waiting, x.queue.find? e.mayIssue with
  | none, some c =>
    if e.get 0x4282 1 ≠ 2 then e
    else
      let tag := (x.tag + 1) % 256
      (e.setHead h { x with waiting := some (c, 0, e.now), tag := tag, queue := x.queue.erase c }).send
        (.command h (commandFrame tag c))
  | _, _ => e

/-- R197. -/
def execHeadCommandIssue (h : Fin 128) (s : State) : Host.Outcome State Fault Refusal :=
  onEngine (whenLive (fun e => e.issue h.val)) s

/-- A byte of an identity read. -/
def Head.ident (x : Head) (a : Nat) : Nat := ((cellFind a x.identData).getD 0).toNat

/-- A little-endian field of an identity read. -/
def Head.identField (x : Head) (a n : Nat) : Nat := le ((List.range n).map (fun i => (cellFind (a + i) x.identData).getD 0))

/-- The field that fails the identity read of head h (R210), by its address. -/
def Engine.identityFault (e : Engine) (h : Nat) : Option Nat :=
  let x := e.head h
  let exp := e.get (headIdx h) 0x12
  if x.ident 9 ≠ 1 then some 9
  else if x.identField 0x0A 2 ≠ 2048 then some 0x0A
  else if !bit (e.get (bankIdx h) 4) (x.ident 8) then some 8
  else if exp ≠ 0 ∧ x.identField 0x3C 2 ≠ exp then some 0x3C
  else none

/-- The identity read failed: bit 5, and a Warning that names the field. -/
def Engine.identityFailed (e : Engine) (h field : Nat) : Engine :=
  let e := e.setHead h { e.head h with identLeft := 0 }
  if e.svc h = 5 then (e.setCheck h 5 true).raise 6 2 (detailH h field (e.lastLine h)) else e

/-- Compare IDENT with what is stored; a new identity is stored and flagged (R210). -/
def Engine.takeIdent (e : Engine) (h : Nat) : Engine :=
  let id := (e.head h).identField 0 8
  if id = e.get (headIdx h) 0x0A then e else (e.put (headIdx h) 0x0A id).put (headIdx h) 0x0B 1

/-- The last READ of an identity read, of an IDENT read on exit from an idle state (R354) or of a seeding (R225) has come. -/
def Engine.identityDone (e : Engine) (h : Nat) : Engine :=
  let x := e.head h
  let has (a : Nat) : Bool := (cellFind a x.identData).isSome
  let counts := (List.range 2048).map (fun n => x.identField (0x2000 + 4 * n) 4)
  if !has 0 then e.seedFires h counts
  else
    let other := x.identField 0 8 != e.get (headIdx h) 0x0A
    let e := e.takeIdent h
    if !has 9 then (if other ∧ (e.svc h = 0 ∨ e.svc h = 1) then (e.enterQuarantine h).reEval else e)
    else
      let e := e.put (headIdx h) 0x0C (x.ident 8)
      let means := cellSetAll (fun _ => 0) ((List.range 32).map (fun s => (s, x.ident (0x500 + 8 * s)))) []
      let e := e.setHead h { x with means := means }
      let e := e.seedFires h counts
      match e.identityFault h with
      | some a => e.identityFailed h a
      | none => if e.svc h = 5 then (e.setCheck h 0 true).setCheck h 5 false else e

/-- A READ of an identity read is answered. -/
def Engine.identityPart (e : Engine) (h : Nat) (c : HeadCmd) (data : List Byte) : Engine :=
  let x := e.head h
  if x.identLeft = 0 then e
  else
    let ps := bytePairs c.addr data
    let x := { x with identLeft := x.identLeft - 1,
                      identData := ps.foldl (fun m p => cellInsert p.1 p.2 (cellErase p.1 m)) x.identData }
    let e := e.setHead h x
    if x.identLeft = 0 then e.identityDone h else e

/-- The result code of 2704h:06h for a RESULT (R196, R208). -/
def hostResult (result : Nat) : Nat := if result ≤ 5 then result + 1 else 7

/-- A command of the host window is answered. -/
def Engine.hostAnswer (e : Engine) (c : HeadCmd) (result : Nat) (data : List Byte) : Engine :=
  let e := e.put 0x2704 6 (hostResult result)
  let e := if c.ty = 0x10 ∧ result = 0 then e.setDom 0x2704 4 data else e
  e.done

/-- A RESP completes the outstanding command. A CONTROL write answered RESULT 3 stays to be resent (R255). -/
def Engine.completeCmd (e : Engine) (h : Nat) (c : HeadCmd) (result : Nat) (data : List Byte) : Engine :=
  if c.host then e.hostAnswer c result data
  else if c.ty = 0x10 ∧ identityAddr c.addr then
    (if result = 0 then e.identityPart h c data else if (e.head h).identLeft = 0 then e else e.identityFailed h c.addr)
  else if c.ty = 0x11 ∧ c.addr = 0x24 ∧ result = 3 then
    e.setHead h { e.head h with idleWarm := e.get (0x3100 + h) 0x0C == 0 }
  else if c.ty = 0x11 ∧ c.addr = 0x3F00 ∧ result = 0 then e.wrap 0x3460 3 1
  else e

/-- RESP_RECEIVED: a RESP with the outstanding TAG and a valid CHK; anything else is discarded. -/
def Engine.resp (e : Engine) (h : Nat) (fr : List Byte) : Engine :=
  let x := e.head h
  let n := le ((fr.drop 3).take 1)
  match x.waiting with
  | none => e
  | some (c, _, _) =>
    if fr.length ≠ 6 + n ∨ le (fr.take 1) ≠ 0x82 ∨ le (fr.drop (4 + n)) ≠ crc16 (fr.take (4 + n)) ∨
        le ((fr.drop 1).take 1) ≠ x.tag then e
    else (e.setHead h { x with waiting := none }).completeCmd h c (le ((fr.drop 2).take 1)) ((fr.drop 4).take n)

/-- R197. -/
def execRespReceived (h : Fin 128) (frame : List Byte) (s : State) : Host.Outcome State Fault Refusal :=
  onEngine (whenLive (fun e => e.resp h.val frame)) s

/-- HEAD_COMMAND_TIMEOUT: resent with the same TAG, or given up when the retries are exhausted. -/
def Engine.cmdTimeout (e : Engine) (h : Nat) : Engine :=
  let x := e.head h
  match x.waiting with
  | none => e
  | some (c, n, _) =>
    if n < e.get 0x2703 4 then
      (e.setHead h { x with waiting := some (c, n + 1, e.now) }).send (.command h (commandFrame x.tag c))
    else
      let e := ((e.setHead h { x with waiting := none }).bump (headIdx h) 9 1).raise 6 1 (detailH h c.addr (e.lastLine h))
      if c.host then (e.put 0x2704 6 7).refuse abTime
      else if c.ty = 0x10 ∧ identityAddr c.addr ∧ x.identLeft ≠ 0 then e.identityFailed h c.addr
      else e

/-- R197. -/
def execHeadCommandTimeout (h : Fin 128) (s : State) : Host.Outcome State Fault Refusal :=
  onEngine (whenLive (fun e => e.cmdTimeout h.val)) s

/-- R255: 1 ms after RESULT 3 the CONTROL write is sent again, unless it has become void. -/
def execIdleWarmRetry (h : Fin 128) (s : State) : Host.Outcome State Fault Refusal :=
  onEngine (whenLive (fun e => e.idleWarm h.val)) s

/-! Head memory for host software (R208) -/

/-- Whether a write of [a, a+n) touches an engine-owned field (R200). -/
def engineOwned (a n : Nat) : Bool := overlap a n 0x20 5 || overlap a n 0x26 2 || overlap a n 0x2000 0x2000

/-- A command of the window: state conditions first, then the value, then the head is asked; it is answered by its RESP. -/
def Engine.headMem (e : Engine) (ty : Nat) : Engine :=
  let h := e.get 0x2704 1
  let a := e.get 0x2704 2
  let n := e.get 0x2704 3
  let staged := (ty = 0x11 && overlap a n 0x1000 448) || ty == 0x12
  if !e.rxUp h then e.refuse abState
  else if ty = 0x11 ∧ engineOwned a n then e.refuse abReadOnly
  else if staged ∧ e.jobState ≠ 0 ∧ e.svc h ≠ 2 ∧ e.svc h ≠ 5 then e.refuse abState
  else if (ty = 0x10 ∧ 32 < n) ∨ (ty = 0x11 ∧ (e.dom 0x2704 4).length < n) then e.refuse abValue
  else
    let c : HeadCmd := { ty := ty, addr := if ty = 0x13 then 0 else a, len := if ty = 0x10 ∨ ty = 0x11 then n else 0,
                         data := if ty = 0x11 then (e.dom 0x2704 4).take n else [], host := true }
    (e.put 0x2704 6 0).enqueue h c

/-- R208. -/
def execHeadMemRead (s : State) : Host.Outcome State Fault Refusal := onEngine (request 0x2704 (fun e => e.headMem 0x10)) s

/-- R208. -/
def execHeadMemWrite (s : State) : Host.Outcome State Fault Refusal := onEngine (request 0x2704 (fun e => e.headMem 0x11)) s

/-- R208. -/
def execHeadMemCommit (s : State) : Host.Outcome State Fault Refusal := onEngine (request 0x2704 (fun e => e.headMem 0x12)) s

/-- R208. -/
def execHeadPing (s : State) : Host.Outcome State Fault Refusal := onEngine (request 0x2704 (fun e => e.headMem 0x13)) s

end Sys2Proof.Machine
end

