-- ==== Sys2Proof/Machine/Care.lean ====
section
/-! DEFINITION. Element resistance (R213-R215), drop-watch (R216-R219) and fire-count upkeep (R222-R225). -/

namespace Sys2Proof.Machine

/-! Resistance sweeps -/

/-- Whether a sweep measures head h (R215). -/
def Engine.sweepable (e : Engine) (h : Nat) : Bool :=
  e.rxUp h && (e.svc h == 0 || e.svc h == 1 || e.svc h == 2 || e.svc h == 5)

/-- Head h joins the sweep at its next element; what the sweep has passed comes after its last element. -/
def Engine.joinSweep (e : Engine) (h : Nat) : Engine :=
  let n := e.get 0x3420 7
  let todo := (List.range (2048 - n)).map (· + n) ++ List.range n
  e.setHead h { e.head h with inSweep := true, todo := todo, counted := e.check h 0 }

/-- Put head h into measurement mode (R203, R215). -/
def Engine.measOn (e : Engine) (h : Nat) : Engine := if (e.head h).meas then e else e.writeControl h true false

/-- Take head h out of measurement mode; IDLE_WARM is restored from its loop. -/
def Engine.measOff (e : Engine) (h : Nat) : Engine :=
  if (e.head h).meas then
    let e := e.setHead h { e.head h with meas := false }
    let e := e.evalLoop h
    e.writeControl h false (e.flag (0x3100 + h) 0x0C)
  else e

/-- Every eligible head takes part, in measurement mode. -/
def Engine.joinAll (e : Engine) : Engine :=
  e.each ((List.range 128).filter e.sweepable) (fun e h =>
    let e := if (e.head h).inSweep then e else e.joinSweep h
    if (e.head h).todo.isEmpty then e else e.measOn h)

/-- Begin a sweep from element 0. -/
def Engine.startSweep (e : Engine) : Engine :=
  let e := e.put 0x3420 7 0
  let e := e.each (List.range 128) (fun e h => e.setHead h { e.head h with inSweep := false, todo := [] })
  { e with care.sweep := true }

/-- Open a window: a sweep that waits goes on, otherwise one begins (R215). -/
def Engine.openMeas (e : Engine) : Engine :=
  let e := if e.care.sweep then e else e.startSweep
  (Engine.joinAll { e with care.window := true }).reEval

/-- Close the window. -/
def Engine.closeMeas (e : Engine) : Engine :=
  { (e.each (List.range 128) Engine.measOff).reEval with care.window := false }

/-- Whether the job is Idle or Held. -/
def Engine.jobRests (e : Engine) : Bool := e.jobState == 0 || e.jobState == 3

/-- MEASUREMENT_WINDOW_OPEN: 2 ms after a last FIRE edge, while turnaround sweeps are on. -/
def Engine.windowOpen (e : Engine) : Engine :=
  if e.jobState = 0 ∨ e.midTransit ∨ !e.flag 0x3420 1 ∨ e.care.window ∨ e.care.watch then e else e.openMeas

/-- MEASUREMENT_WINDOW_CLOSE: 6 ms before a first FIRE edge that is fixed. -/
def Engine.windowClose (e : Engine) : Engine := if e.care.window then e.closeMeas else e

/-- R215. -/
def execMeasurementWindowOpen (s : State) : Host.Outcome State Fault Refusal := onEngine (whenLive Engine.windowOpen) s

/-- R215. -/
def execMeasurementWindowClose (s : State) : Host.Outcome State Fault Refusal := onEngine (whenLive Engine.windowClose) s

/-- R215: in Idle and Held a sweep starts every 3420h:09h seconds. -/
def execIdleSweepTimer (s : State) : Host.Outcome State Fault Refusal :=
  onEngine (whenLive (fun e =>
    if e.jobRests ∧ !e.care.sweep ∧ !e.care.watch ∧ e.get 0x3420 9 ≠ 0 then e.openMeas else e)) s

/-- SWEEP_COMMAND: a sweep at once in Idle or Held; one that waits for its window resumes. -/
def Engine.sweepNow (e : Engine) : Engine :=
  if !e.jobRests then e.refuse abState
  else if e.care.sweep ∧ e.care.window then e.done
  else e.openMeas.done

/-- R215. -/
def execSweepCommand (s : State) : Host.Outcome State Fault Refusal := onEngine (request 0x3420 Engine.sweepNow) s

/-- The resistance code (R214): from the averaged voltage in µV, the current in mA and the lead resistance in mΩ, rounded to
0.5 Ω; 98 % of the 2.5 V full scale is an open element. -/
def resCode (uv ma lead : Nat) : Nat :=
  if 2450000 ≤ uv then 255
  else
    let i := max 1 ma
    let x : Int := ((uv : Int) - (lead * i : Nat) + (250 * i : Nat)) / (500 * i : Nat)
    min 254 x.toNat

/-- The verdict on a code (R214): 0 good, 1 weak, 2 dead. -/
def verdictOf (code mean weak dead : Nat) : Nat :=
  let dv := ((code : Int) - mean).natAbs
  if code = 0 ∨ code = 255 ∨ dead < dv then 2 else if weak < dv then 1 else 0

/-- Add a change of verdict to the list. -/
def Engine.listVerdict (e : Engine) (i v code : Nat) : Engine :=
  if e.care.verdictList.length < 4096 then
    { e with care.verdictList := e.care.verdictList ++ [i + v * 2 ^ 18 + code * 2 ^ 20] }
  else e.put 0x3420 0x0C 1

/-- Element n of head h is measured. -/
def Engine.measure (e : Engine) (h n uv : Nat) : Engine :=
  let code := resCode uv (e.get 0x3420 3) (e.get (headIdx h) 0x0F)
  let i := elemNo h n
  let e := e.stageField i (code * 65536) 0xff0000
  let x := e.head h
  let v := verdictOf code (cellGet (fun _ => 0) x.means (n / 64)) (e.get 0x3420 4) (e.get 0x3420 5)
  let e := if v = cellGet (fun _ => 0) x.verdicts n then e else e.listVerdict i v code
  e.setHead h { x with verdicts := cellSet (fun _ => 0) x.verdicts n v }

/-- The last element of head h is measured: its counts are published, and return check 1 holds where the head joined the sweep
after its identity read (R211). -/
def Engine.headSwept (e : Engine) (h : Nat) : Engine :=
  let x := e.head h
  let e := (e.put (headIdx h) 0x10 (x.verdicts.filter (fun p => p.2 == 1)).length).put (headIdx h) 0x11
    (x.verdicts.filter (fun p => p.2 == 2)).length
  if e.svc h = 5 ∧ x.counted then e.setCheck h 1 true else e

/-- The sweep is complete: outside a job's turnarounds its window ends with it. -/
def Engine.sweepDone (e : Engine) : Engine :=
  if (List.range 128).all (fun h => !(e.head h).inSweep || (e.head h).todo.isEmpty) then
    let e := e.each (List.range 128) (fun e h => e.setHead h { e.head h with inSweep := false })
    let e : Engine := { (e.wrap 0x3420 6 1) with care.sweep := false }
    e.closeMeas
  else e

/-- RESISTANCE_SLOT: head h's slot gives `uv` µV, or is missed. -/
def Engine.slot (e : Engine) (h uv : Nat) (missed : Bool) : Engine :=
  if !e.care.sweep ∨ !e.care.window ∨ !e.sweepable h then e
  else
    let e := e.joinAll
    let x := e.head h
    match x.todo with
    | [] => e
    | n :: rest =>
      if missed ∨ !x.meas then
        (e.setHead h { x with todo := rest ++ [n] }).bump 0x3420 8 1 |>.measOn h
      else
        let e := (e.setHead h { x with todo := rest }).measure h n uv
        let e := e.put 0x3420 7 ((n + 1) % 2048)
        if rest.isEmpty then (e.headSwept h).sweepDone else e

/-- R213, R214. -/
def execResistanceSlot (h : Fin 128) (uv : Nat) (missed : Bool) (s : State) : Host.Outcome State Fault Refusal :=
  onEngine (whenLive (fun e => e.slot h.val uv missed)) s

/-- R227: 3420h:0Bh. -/
def execVerdictListClear (s : State) : Host.Outcome State Fault Refusal :=
  onEngine (request 0x3420 (fun e => Engine.done { (e.put 0x3420 0x0C 0) with care.verdictList := [] })) s

/-! Drop-watch -/

/-- Whether axis a is at rest within its position window (R240). -/
def Engine.atRest (e : Engine) (a : Nat) : Bool :=
  let i := 0x3000 + 16 * a
  let x := e.axis a
  let st := e.get i 2
  (st == 1 || st == 2 || st == 6) && x.v == 0 && x.seg.isNone && x.plan.isEmpty && x.start.isNone &&
    x.restSince.any (fun t => decide (t + e.get (i + 3) 6 * refMs ≤ e.now))

/-- Whether axis 0 rests at the service position (R218). -/
def Engine.atService (e : Engine) : Bool :=
  e.atRest 0 && decide ((e.getI 32 0x3000 6 - e.getI 32 0x3440 0x0C).natAbs ≤ e.get 0x3003 5)

/-- The first line at or after i whose position has a head taking part; 32,768 past the last. -/
def Engine.nextWatchLine (e : Engine) (i : Nat) : Nat :=
  if (e.care.watchHeads.map posOf).contains (i / 2048) then i
  else ((List.range 16).find? (fun q => decide (i / 2048 < q) && (e.care.watchHeads.map posOf).contains q)).elim 32768 (2048 * ·)

/-- WATCH_ALL_HEADS and WATCH_QUARANTINED_HEADS (R216, R218). -/
def Engine.startWatch (e : Engine) (onlyQuarantined : Bool) : Engine :=
  if !e.jobRests ∨ !e.atService ∨ e.stage ≠ 0 ∨ e.care.watch then e.refuse abState
  else
    let hs := (List.range 128).filter (fun h => e.svc h == 5 || (!onlyQuarantined && (e.svc h == 0 || e.svc h == 2)))
    let e := ((e.put 0x3440 2 1).put 0x3440 8 0).put 0x3440 9 0
    let e := e.each hs (fun e h =>
      let e := (e.put (headIdx h) 7 0).put (headIdx h) 8 0
      (e.setHead h { e.head h with missing := false, early := !e.check h 0, echoes := [] }).writePeriod h
        ((10 ^ 9 + e.get 0x3440 4 / 2) / max 1 (e.get 0x3440 4)))
    let e : Engine := { e with care.watch := true, care.watchHeads := hs,
                               care.watchLine := 0, care.openWins := [], care.arrivals := [], care.watchList := [],
                               ctl.dwEn := cellSetAll (fun _ => false) (hs.map (fun h => (bankOf h, true))) [] }
    let e := { e with care.watchLine := e.nextWatchLine 0 }
    if hs.isEmpty then Engine.done { (e.put 0x3440 2 2) with care.watch := false } else e.done

/-- R218. -/
def execWatchAllHeads (s : State) : Host.Outcome State Fault Refusal :=
  onEngine (request 0x3440 (fun e => e.startWatch false)) s

/-- R218. -/
def execWatchQuarantinedHeads (s : State) : Host.Outcome State Fault Refusal :=
  onEngine (request 0x3440 (fun e => e.startWatch true)) s

/-- R219: command 3. -/
def execWatchAbandon (s : State) : Host.Outcome State Fault Refusal :=
  onEngine (request 0x3440 (fun e => if e.care.watch then (e.endWatch 3).done else e.refuse abState)) s

/-- The LINE frame and pulse of line i of the run on port h: heads that take no part get BLANK frames and no pulse (R147). -/
def Engine.watchFrame (e : Engine) (i h : Nat) : Engine :=
  let x := e.head h
  let part := e.care.watchHeads.contains h
  let blank := !part || e.blankDemand
  let codes := (List.range 2048).map (fun n =>
    if !blank ∧ posOf h = i / 2048 ∧ n = i % 2048 then e.get 0x3440 3 else 0)
  let slices := (List.range 32).map (fun s => (codes.drop (64 * s)).take 64)
  let seq := x.portLine % 65536
  let fr := lineFrame (e.flag (0x3100 + h) 0x0C && e.get (0x3100 + h) 0x0E != 1) blank false seq (List.replicate 32 0) slices
  let fire := part && !x.wdHold && !e.haltDemand
  let ec : Echo := { seq := seq, crc := le (fr.drop 792), blank := blank, fired := true, line := i, codes := codes }
  let e := (e.setHead h { x with portLine := x.portLine + 1, blankSeen := if blank then e.flt.reactions else x.blankSeen,
                                 echoes := if fire then x.echoes ++ [ec] else x.echoes, meas := false,
                                 strobeHigh := x.strobeHigh || fire }).send (.line h fr)
  let e := if fire then e.send (.strobe h true) else e
  if part ∧ blank then (e.put (0x2780 + h) 6 5).bump (0x2780 + h) 7 1 else e

/-- DROPWATCH_TICK: the next line of the run; the window of each bank whose element fired opens (R216, R217). -/
def Engine.watchTick (e : Engine) : Engine :=
  let i := e.care.watchLine
  if !e.care.watch ∨ !e.care.openWins.isEmpty ∨ 32768 ≤ i ∨ e.get 0x4282 1 ≠ 2 then e
  else
    let e := e.each ((List.range 128).filter e.populated) (fun e h => e.watchFrame i h)
    let e := e.each (e.enabledLoops 0 128) (fun e l => e.evalTimed l)
    { e with care.openWins := (e.care.watchHeads.filter (fun h => posOf h == i / 2048)).map bankOf }

/-- R216. -/
def execDropwatchTick (s : State) : Host.Outcome State Fault Refusal := onEngine (whenLive Engine.watchTick) s

/-- Insert a number into a rising list. -/
def insNat (v : Nat) : List Nat → List Nat
  | [] => [v]
  | x :: r => if v ≤ x then v :: x :: r else x :: insNat v r

/-- Twice the median of a list of numbers. -/
def median2 (vs : List Nat) : Nat :=
  let ss := vs.foldl (fun l v => insNat v l) []
  ss.getD ((ss.length - 1) / 2) 0 + ss.getD (ss.length / 2) 0

/-- Found drops of bank b that deviate from the median of the bank's found drops of the run. -/
def Engine.deviated (e : Engine) (b : Nat) : List Nat :=
  let found := e.care.arrivals.filter (fun p => p.1 / 32768 == b)
  let m := median2 (found.map (·.2))
  (found.filter (fun p => decide (2 * e.get 0x3440 6 < ((2 * p.2 : Nat) - (m : Int)).natAbs))).map (·.1)

/-- The run is complete (R217, R219): deviated elements are listed, heads without a missing drop pass, counts are added. -/
def Engine.watchDone (e : Engine) : Engine :=
  let dev := (List.range 8).flatMap e.deviated
  let e := (e.put 0x3440 9 dev.length).put 0x3440 2 2
  let e := e.each e.care.watchHeads (fun e h =>
    let x := e.head h
    if e.svc h ≠ 5 then e
    else if x.missing then e.setCheck h 6 true
    else if x.early then e
    else (e.setCheck h 2 true).setCheck h 6 false)
  let e : Engine := { e with care.watch := false, care.watchList := e.care.watchList ++ dev.map (· + 2 * 2 ^ 18), ctl.dwEn := [] }
  e.addFires

/-- DROP_WINDOW_END: the window of bank b's fired element ends; `arrival` is the first sample below the threshold, in ns. -/
def Engine.windowEnd (e : Engine) (b : Nat) (arrival : Option Nat) : Engine :=
  let i := e.care.watchLine
  let h := 16 * b + i / 2048
  if !e.care.watch ∨ !e.care.openWins.contains b then e
  else
    let el := elemNo h (i % 2048)
    let e : Engine := { e with care.openWins := e.care.openWins.filter (· != b) }
    let e :=
      if !e.care.watchHeads.contains h then e
      else match arrival with
        | some t => { e with care.arrivals := e.care.arrivals ++ [(el, t)] }
        | none =>
          let e := (e.bump 0x3440 8 1).setHead h { e.head h with missing := true }
          { e with care.watchList := e.care.watchList ++ [el + 2 ^ 18] }
    if e.care.openWins.isEmpty then
      let e := { e with care.watchLine := e.nextWatchLine (i + 1) }
      if 32768 ≤ e.care.watchLine then e.watchDone else e
    else e

/-- R217. -/
def execDropWindowEnd (b : Fin 8) (arrival : Option Nat) (s : State) : Host.Outcome State Fault Refusal :=
  onEngine (whenLive (fun e => e.windowEnd b.val arrival)) s

/-! Fire counts -/

/-- R224: write-back of every head whose receiver is up. -/
def execFireCountWritebackTimer (s : State) : Host.Outcome State Fault Refusal :=
  onEngine (whenLive (fun e => e.each (List.range 128) Engine.writeBack)) s

/-- Whether the table's region is refused (R225); in Idle the store regions are those the entries of 2430h give. -/
def Engine.tableRefused (e : Engine) (a : Nat) : Bool :=
  a % 4096 != 0 || !e.inDram a 0x100000 || clash a 0x100000 (e.formStore.regions ++ e.openRings 256 ++ [e.proofRing] ++ e.traceRings 4)

/-- Seed the table from the heads whose receiver is up: their FIRE_COUNT is read (R222, R225). -/
def Engine.readCounts (e : Engine) : Engine :=
  e.each ((List.range 128).filter e.rxUp) (fun e h =>
    let x := e.head h
    if x.identLeft ≠ 0 then e
    else e.setHead h { x with queue := x.queue ++ (List.range 256).map (fun k => readCmd (0x2000 + 32 * k) 32),
                              identLeft := 256, identData := [] })

/-- FIRE_COUNT_TABLE_SET: the table is seeded from the heads whose receiver is up; the words of the others are 0. -/
def Engine.setTable (e : Engine) (a : Nat) : Engine :=
  if e.jobState ≠ 0 then e.refuse abState
  else if a ≠ 0 ∧ e.tableRefused a then e.refuse abValue
  else
    let e := e.put 0x3460 2 a
    if a = 0 then e.done else (e.dramClear a 0x100000).readCounts.done

/-- R225. -/
def execFireCountTableSet (v : BitVec 64) (s : State) : Host.Outcome State Fault Refusal :=
  onEngine (request 0x3460 (fun e => e.setTable v.toNat)) s

end Sys2Proof.Machine
end

