-- ==== Sys2Proof/Machine/Holds.lean ====
section
/-! DEFINITION. Hold causes (R52, R42, R243), peer readiness (R391, R392), and the start of a panel boundary (R46, R53). -/

namespace Sys2Proof.Machine

/-! Peers -/

/-- The enabled profiles. -/
def Engine.profiles (e : Engine) : List Nat := ((List.range 127).map (· + 1)).filter (fun i => e.flag (0x5000 + i) 1)

/-- Whether peer i is ready (R391): in use, Operational, and its ready bit fresh and set. -/
def Engine.peerReady (e : Engine) (i : Nat) : Bool :=
  let k := 0x5000 + i
  let n := e.get k 0x0B
  e.get k 2 == 3 && (e.peer i).nmt == 5 &&
    (n == 0 || (bit (e.get k (0x1F + n)) (e.get k 0x0C) &&
      (cellFind n (e.peer i).arrived).any (fun t => decide (e.now ≤ t + e.get k 0x0A * refMs))))

/-- Publish the profiles that hold the job: 2200h:03h bit 5 and 5000h:0Eh. -/
def Engine.setPeerHold (e : Engine) (is : List Nat) : Engine :=
  ({ e with pan.peerHold := is }.setHold 5 (!is.isEmpty)).put 0x5000 0x0E (is.headD 0)

/-- Profiles whose rule gates transits and that are not ready (R32). -/
def Engine.gateFails (e : Engine) : List Nat := e.profiles.filter (fun i => e.flag (0x5000 + i) 9 && !e.peerReady i)

/-- Step 5 of a boundary (R392): peers in Standby are used; profiles that are not ready hold the job by their rule. -/
def Engine.peerRules (e : Engine) (first : Bool) : Engine :=
  let e := e.each ((List.range 127).map (· + 1)) (fun e i =>
    if e.get (0x5000 + i) 2 = 2 then e.put (0x5000 + i) 2 3 else e)
  e.setPeerHold (e.profiles.filter (fun i => !e.peerReady i &&
    (e.get (0x5000 + i) 8 == 1 || (e.get (0x5000 + i) 8 == 2 && first) || e.flag (0x5000 + i) 9)))

/-! Hold causes -/

/-- Whether the DRAM no longer provides the store, tag and count regions (R42). -/
def Engine.storeShort (e : Engine) : Bool := e.pan.regions.any (fun r => !e.inDram r.1 r.2)

/-- Whether axis 0 or 1 keeps a Held job (R243). -/
def Engine.axesHold (e : Engine) : Bool :=
  [0, 1].any (fun a => let s := e.get (0x3000 + 16 * a) 2; s == 0 || s == 3 || s == 4 || s == 5)

/-- Causes that come and go by themselves, as they stand: 2 stage, 4 store, 5 peers, 6 PLLs. -/
def Engine.autoHolds (e : Engine) : Engine :=
  let e := e.setPeerHold (e.pan.peerHold.filter (fun i => e.flag (0x5000 + i) 1 && !e.peerReady i))
  ((e.setHold 2 (decide (3 ≤ e.stage))).setHold 4 e.storeShort).setHold 6 (!e.pllsLocked)

/-- The job leaves Held for Boundary: both axes enter state 6 (R243); windows of a lost channel close (R317). -/
def Engine.toBoundary (e : Engine) : Engine :=
  let e := (e.put 0x2200 2 1).each [0, 1] (fun e a => (e.setAxis a { e.axis a with hold := false }).put (0x3000 + 16 * a) 2 6)
  e.closeWindows (fun w => w == .channel)

/-- HOLD_CAUSES_CLEAR: in Boundary a cause takes the job to Held; in Held it leaves once every cause is clear (R51, R52). -/
def Engine.evalHolds (e : Engine) : Engine :=
  if e.jobState = 1 then
    let e := e.autoHolds
    if e.get 0x2200 3 = 0 then e else e.toHeld.setHold 7 e.axesHold
  else if e.jobState = 3 then
    let e := e.autoHolds
    let e := e.setHold 7 e.axesHold
    if e.get 0x2200 3 = 0 then e.toBoundary else e
  else e

/-! The start of a boundary -/

/-- A panel boundary begins (R46): what was armed or requested before it is taken. -/
def Engine.beginBoundary (e : Engine) : Engine :=
  { e with pan.due := true, pan.armed := e.get 0x2201 6 == 1,
           pan.switchDue := [0, 1, 2, 3].find? (fun p => e.get (0x4400 + p) 5 == 1) }

end Sys2Proof.Machine
end

