-- ==== Sys2Proof/Machine/Firmware.lean ====
section
/-! DEFINITION. Firmware partitions as the engine sees them (R25-R30): switching, falling back, restarting. -/

namespace Sys2Proof.Machine

/-- Index of partition p's entries. -/
def partIdx (p : Nat) : Nat := 0x4400 + p

/-- Set whether partition p serves. -/
def Engine.setUp (e : Engine) (p : Nat) (up : Bool) : Engine := { e with dawn.partUp := setBit e.dawn.partUp p up }

/-- The start of an image that is not yet ready: 1 a switched one, 2 the previous one after a fallback, 0 a restart. -/
def Engine.starting (e : Engine) (p : Nat) : Nat := cellGet (fun _ => 0) e.dawn.partOld p

def Engine.setStarting (e : Engine) (p v : Nat) : Engine := { e with dawn.partOld := cellSet (fun _ => 0) e.dawn.partOld p v }

/-- The other slot of partition p. -/
def Engine.otherSlot (e : Engine) (p : Nat) : Nat := 1 - e.get (partIdx p) 1

/-- Step 3 of a boundary (R27, R28): partition p is stopped and its new image started from the other slot; it holds the
boundary. -/
def Engine.startSwitch (e : Engine) (p : Nat) : Engine :=
  let e := ((e.put (partIdx p) 4 2).put (partIdx p) 5 0).put (partIdx p) 1 (e.otherSlot p)
  let e := (e.setUp p false).setStarting p 1
  { e with pan.holder := some p }

/-- A partition reports ready (R27, R29): its entries are served again. -/
def Engine.reportReady (e : Engine) (p : Nat) : Engine :=
  let i := partIdx p
  let how := e.starting p
  let e := (e.setUp p true).setStarting p 0
  let e := e.endWindows (fun w => w == .partition p)
  if how = 1 then ((e.put i 2 (e.get i 3)).put i 3 0).put i 4 0
  else if how = 2 ∧ e.get i 3 = 0 then e.put i 4 4
  else e.put i 4 (if e.get i 3 = 0 then 0 else 1)

/-- A new image has not reported ready within 2 s (R29): back to the previous slot. -/
def Engine.fallBack (e : Engine) (p : Nat) : Engine :=
  let i := partIdx p
  let e := (((e.put i 1 (e.otherSlot p)).bump i 6 1).put i 3 0).put i 4 3
  (e.setStarting p 2).raise 0x0B 2 p

/-- The watchdog of partition p expires (R26): it restarts from its running image. -/
def Engine.watchdog (e : Engine) (p : Nat) : Engine :=
  if bit e.dawn.partUp p then ((e.put (partIdx p) 4 3).setUp p false).raise 0x0B 1 p else e

/-- R26. -/
def execPartitionWatchdogExpiry (p : Fin 4) (s : State) : Host.Outcome State Fault Refusal :=
  onEngine (whenLive (fun e => e.watchdog p.val)) s

/-- What the boot flash keeps of the partitions (R374): selected slot, TRIAL while a switched image has not reported ready, and
the fallback count. -/
def NonVol.saveSelectors (n : NonVol) (e : Engine) : NonVol :=
  { n with slot := cellSetAll (fun _ => 0) ([0, 1, 2, 3].map (fun p => (p, e.get (partIdx p) 1))) n.slot,
           trial := cellSetAll (fun _ => false) ([0, 1, 2, 3].map (fun p => (p, e.starting p == 1))) n.trial,
           fallbacks := cellSetAll (fun _ => 0) ([0, 1, 2, 3].map (fun p => (p, e.get (partIdx p) 6))) n.fallbacks }

/-- The state with engine `e`; from Dawn step 5 on, where the selectors have been read, those in the flash follow it. -/
def State.withSelectors (s : State) (e : Engine) : State :=
  { s with e := e, nv := if s.e.live ∧ 5 ≤ s.e.get 0x2001 1 then s.nv.saveSelectors e else s.nv }

/-- An effect on the engine that the selectors in the flash follow. -/
def onSelectors (f : Engine → Engine) (s : State) : Host.Outcome State Fault Refusal := .next (s.withSelectors (f s.e))

/-- SWITCH_REQUEST (R30): a switch needs a staged image; 0 cancels a request, if there is one. -/
def Engine.requestSwitch (e : Engine) (p v : Nat) : Engine :=
  if 1 < v then e.refuse abValue
  else if v = 1 ∧ e.get (partIdx p) 3 = 0 then e.refuse abState
  else (e.put (partIdx p) 5 v).done

/-- R30. -/
def execSwitchRequest (p : Fin 4) (v : Byte) (s : State) : Host.Outcome State Fault Refusal :=
  onEngine (request 0x4400 (fun e => e.requestSwitch p.val v.toNat)) s

end Sys2Proof.Machine
end

