-- ==== Sys2Proof/Machine/Contexts.lean ====
section
/-! DEFINITION. Stream contexts as commanded (R71, R74), the decode engines (R73, R89-R92) and the proof encoder (R104-R108). -/

namespace Sys2Proof.Machine

/-! Opening, closing, aborting, retrying (R71, R74, R113) -/

/-- Whether the settings of context c are refused at open (R71, R113, R131). -/
def Engine.openRefused (e : Engine) (c : Nat) : Bool :=
  let i := ctxIdx c
  let b := e.get i 3
  let x := e.get i 5
  let n := e.get i 6
  let (a, m) := e.ctxRing c
  decide (e.get i 9 < e.rowBytes c) || !e.inDram a m ||
    clash a m (e.openRings c ++ [e.proofRing] ++ e.fireTable ++ e.traceRings 4 ++ e.storeRegions) ||
    !bit (e.get 0x2430 4) b || decide (e.jobW < x + n) || !spansEq x n (e.get i 7) (e.frontier b) ||
    (e.heldCols b).any (fun r => overlap x n r.1 r.2) ||
    decide (512 < countSpans (e.frontier b) ((x, n) :: e.heldCols b))

/-- CONTEXT_OPEN: history, counters, resume offset and ring are cleared. -/
def Engine.openCtx (e : Engine) (c : Nat) : Engine :=
  let i := ctxIdx c
  if e.ctxState c ≠ 0 then e.refuse abState
  else if e.openRefused c then e.refuse abValue
  else
    let e := [0x0C, 0x0D, 0x0E, 0x0F, 0x10, 0x11].foldl (fun e sub => e.put i sub 0) ((e.setCtx c {}).put i 2 1)
    e.publishFrontier.done

/-- Leave for Closed: the frontier is recorded, the ring discarded. -/
def Engine.leaveCtx (e : Engine) (c : Nat) : Engine :=
  let e := e.retire c
  let e := e.setFrontier c (e.ctx c).row
  let e := (e.put (ctxIdx c) 2 0).setCtx c {}
  (e.settleChangeover (e.get (ctxIdx c) 3)).publishFrontier

/-- Drop the block of context c that an engine decodes (R92). -/
def Engine.dropEngine (e : Engine) (c : Nat) : Engine :=
  e.each (List.range 16) (fun e j => match e.decEng j with
    | some d => if d.ctx = c then e.setDecEng j none else e
    | none => e)

/-- Abort context c (R71, R92): checked bytes that screening has not taken are discarded. -/
def Engine.abortCtx (e : Engine) (c : Nat) : Engine :=
  if e.ctxState c = 0 then e else (e.dropEngine c).leaveCtx c

/-- Close context c: rows that are complete and can be screened go to the store first (log entry 22, DEDUCED). -/
def Engine.closeCtx (e : Engine) (c : Nat) : Engine :=
  let e := iter (fun e => Engine.screenRow e c false) (e.rowsWaiting c) e
  (e.dropEngine c).leaveCtx c

/-- CONTEXT_CLOSE: accepted in Ended and Fault, and in Open when the ring is empty. -/
def Engine.closeCommand (e : Engine) (c : Nat) : Engine :=
  let s := e.ctxState c
  let x := e.ctx c
  if s = 2 ∨ s = 3 ∨ (s = 1 ∧ x.wpos = x.rpos) then (e.closeCtx c).done else e.refuse abState

/-- CONTEXT_RETRY: to Open, and at once to Ended where the LAST block has passed (R74). -/
def Engine.retryCtx (e : Engine) (c : Nat) : Engine :=
  if e.ctxState c ≠ 3 then e.refuse abState
  else (((e.put (ctxIdx c) 2 1).ctxEnd c).afterEnd c).publishFrontier.done

/-- R71. -/
def execContextOpen (c : Fin 256) (s : State) : Host.Outcome State Fault Refusal :=
  onEngine (request 0x2300 (fun e => e.openCtx c.val)) s

/-- R71. -/
def execContextClose (c : Fin 256) (s : State) : Host.Outcome State Fault Refusal :=
  onEngine (request 0x2300 (fun e => e.closeCommand c.val)) s

/-- R71. -/
def execContextAbort (c : Fin 256) (s : State) : Host.Outcome State Fault Refusal :=
  onEngine (request 0x2300 (fun e => if e.ctxState c.val = 0 then e.refuse abState else (e.abortCtx c.val).done)) s

/-- R74. -/
def execContextRetry (c : Fin 256) (s : State) : Host.Outcome State Fault Refusal :=
  onEngine (request 0x2300 (fun e => e.retryCtx c.val)) s

/-! Decode engines -/

/-- Whether context c can give a block to an engine (R73). -/
def Engine.eligible (e : Engine) (c : Nat) : Bool :=
  e.ctxState c != 0 && !(e.ctx c).blocks.isEmpty &&
    (List.range 16).all (fun j => match e.decEng j with | some d => d.ctx != c | none => true)

/-- Checked bytes that lane j has not screened: what fills the output buffer of engine j (R91). -/
def Engine.buffered (e : Engine) (j : Nat) : Nat :=
  (e.sup.ctxs.map (fun p => if p.2.lane = j then p.2.checked.length else 0)).foldl (· + ·) 0

/-- RAWLEN of the block at stream offset `o`. -/
def Engine.rawLenAt (e : Engine) (c o : Nat) : Nat := (parseHeader (e.ringBytes c o 16)).raw

/-- DECODE_BLOCK_TAKE: the lowest free engine takes the oldest block of the next eligible context (R73, R112). A block whose
output does not fit behind the unscreened bytes stalls its engine (R91). -/
def Engine.blockTake (e : Engine) : Engine :=
  if !e.supplyRuns then e
  else
    match firstIdx (fun j => (e.decEng j).isNone) (List.range 16),
          firstIdx e.eligible ((List.range 256).map (fun k => (e.sup.served + 1 + k) % 256)) with
    | some j, some c =>
      let x := e.ctx c
      let blk := x.blocks.headD {}
      let full := decide (98304 < e.buffered j + e.rawLenAt c blk.off)
      let e : Engine := { e with sup.served := c }
      (e.setDecEng j (some { ctx := c, block := blk, stalled := if full then some e.now else none })).setCtx c { x with lane := j }
    | _, _ => e

/-- R73. -/
def execDecodeBlockTake (s : State) : Host.Outcome State Fault Refusal := onEngine (whenLive Engine.blockTake) s

/-- A CRC failure, or a history, output or ring byte that cannot be read (R87, R301): cause 1. -/
def Engine.crcFault (e : Engine) (c off : Nat) : Engine := (e.bump 0x2472 5 1).ctxFault c 1 0 off

/-- A format fault (R87). -/
def Engine.formatFault (e : Engine) (c sub pos off : Nat) : Engine :=
  ((((e.put 0x2472 1 c).put 0x2472 2 sub).put 0x2472 3 pos).bump 0x2472 4 1).ctxFault c 2 sub off

/-- Partial rows at LAST (R110). -/
def Engine.partialRow (e : Engine) (c : Nat) : Engine :=
  let x := e.ctx c
  let used := e.rowsWaiting c * e.get (ctxIdx c) 9
  if used < x.checked.length then
    let e := e.setCtx c { x with checked := x.checked.take used }
    (e.bump 0x2400 4 1).raise 1 2 (detailCX c 0 0 (e.get (ctxIdx c) 0x0E))
  else e

/-- A block has passed its check: its bytes are committed, its ring space freed (R80, R81, R89). -/
def Engine.commitBlock (e : Engine) (c : Nat) (blk : RingBlock) (h : BlockHeader) (hist : List Byte) (produced : Nat) : Engine :=
  let x := e.ctx c
  let out := (hist.take h.raw).reverse
  let flush := bit h.flags 0
  let last := bit h.flags 1
  let x := { x with rpos := blk.off + blk.len, blocks := x.blocks.tail, hist := if flush then [] else hist.take 16384,
                    produced := if flush then 0 else produced, checked := x.checked ++ out.drop x.skipPad,
                    skipPad := x.skipPad - out.length, lastPassed := x.lastPassed || last }
  let e := (e.setCtx c x).wrap (ctxIdx c) 0x0C 1
  let e := if bit h.flags 2 then (e.contextRecord c (e.ctxState c) 0 (blk.off + blk.len)).wrap 0x2472 7 1 else e
  if last then (((e.partialRow c).ctxEnd c).afterEnd c) else e

/-- DECODE_BLOCK_COMPLETE: engine j ends its block (R87-R90, R301). -/
def Engine.blockComplete (e : Engine) (j : Nat) (poisoned : Bool) : Engine :=
  match e.decEng j with
  | none => e
  | some d =>
    if d.stalled.isSome then e
    else
      let c := d.ctx
      let o := d.block.off
      let e := e.setDecEng j none
      let e := if poisoned then e.bump 0x4030 3 1 else e
      let h := parseHeader (e.ringBytes c o 16)
      let lost := (List.range d.block.len).any (fun i => !e.lineOk (e.ringAddr c (o + i) / 64))
      if lost ∨ poisoned then e.crcFault c o
      else
        match decodeBlock (e.get (ctxIdx c) 9) h (e.ringBytes c (o + 16) h.coded) (e.ctx c).hist (e.ctx c).produced with
        | .bad sub pos => e.formatFault c sub pos o
        | .ok hist produced =>
          if crc32c ((hist.take h.raw).reverse) ≠ h.crc then e.crcFault c o else e.commitBlock c d.block h hist produced

/-- R89. -/
def execDecodeBlockComplete (j : Fin 16) (poisoned : Bool) (s : State) : Host.Outcome State Fault Refusal :=
  onEngine (whenLive (fun e => e.blockComplete j.val poisoned)) s

/-- DECODE_RESUME: the stalled cycles are counted, and the engine goes on once the block's output fits (R91). -/
def Engine.decodeResume (e : Engine) (j : Nat) : Engine :=
  match e.decEng j with
  | some d =>
    match d.stalled with
    | some t =>
      let e := e.bump 0x2472 6 (32 * (e.now - t))
      let full := decide (98304 < e.buffered j + e.rawLenAt d.ctx d.block.off)
      e.setDecEng j (some { d with stalled := if full then some e.now else none })
    | none => e
  | none => e

/-- R91. -/
def execDecodeResume (j : Fin 16) (s : State) : Host.Outcome State Fault Refusal :=
  onEngine (whenLive (fun e => e.decodeResume j.val)) s

/-! The proof encoder -/

/-- Columns of the proof (R104). -/
def Engine.proofCols (e : Engine) : Nat := ceilDiv e.jobW (max 1 (e.get 0x2471 0x0B))

/-- The highest bank of a mask, plus one. -/
def topBank (mask : Nat) : Nat := ((List.range 8).filter (fun b => bit mask b)).foldl (fun m b => max m (b + 1)) 0

/-- Whether an arm is refused with 0609 0030h (R104, R106, R109). -/
def Engine.proofRefused (e : Engine) : Bool :=
  let (a, n) := e.proofRing
  decide (n < 2 * (16 + e.get 0x2471 8)) || !e.inDram a n ||
    clash a n (e.openRings 256 ++ e.fireTable ++ e.traceRings 4 ++ e.storeRegions) ||
    decide (256 < topBank (e.get 0x2471 3) * e.proofCols)

/-- PROOF_ARM (R104, R109). The offsets are kept, taken modulo the ring as it now stands (log entry 23, DEDUCED). -/
def Engine.proofArm (e : Engine) : Engine :=
  let st := e.get 0x2471 2
  if 1 ≤ st ∧ st ≤ 3 then e.refuse abState
  else if e.proofRefused then e.refuse abValue
  else
    let n := e.get 0x2471 5
    let e : Engine := { e with sup.proof := {} }
    (((e.put 0x2471 2 1).put 0x2471 6 (e.get 0x2471 6 % n)).put 0x2471 7 (e.get 0x2471 7 % n)).done

/-- PROOF_END_BLOCK and PROOF_END_BLOCK_FLUSH (R107): latched for the block in progress. -/
def Engine.proofEnd (e : Engine) (flush : Bool) : Engine :=
  let st := e.get 0x2471 2
  if (st = 2 ∨ st = 3) ∧ !e.sup.proof.units.isEmpty then
    Engine.done { e with sup.proof.ended := some (flush || e.sup.proof.ended == some true) }
  else e.done

/-- PROOF_CANCEL (R107). -/
def Engine.proofCancel (e : Engine) : Engine := Engine.done { (e.put 0x2471 2 0) with sup.proof := {} }

/-- R104. -/
def execProofArm (s : State) : Host.Outcome State Fault Refusal := onEngine (request 0x2471 Engine.proofArm) s

/-- R107. -/
def execProofEndBlock (s : State) : Host.Outcome State Fault Refusal :=
  onEngine (request 0x2471 (fun e => e.proofEnd false)) s

/-- R107. -/
def execProofEndBlockFlush (s : State) : Host.Outcome State Fault Refusal :=
  onEngine (request 0x2471 (fun e => e.proofEnd true)) s

/-- R107. -/
def execProofCancel (s : State) : Host.Outcome State Fault Refusal := onEngine (request 0x2471 Engine.proofCancel) s

/-- The levels of a store block as screened, or `none` where tag, payload or check fail (R99, R103). -/
def Engine.blockLevels (e : Engine) (b bx by_ : Nat) : Option (List Nat) :=
  let slot := e.pan.slot b bx by_
  match e.tagOf slot with
  | none => none
  | some t =>
    if tagLen t < 2 ∨ tagGen t ≠ e.pan.gen by_ then none
    else (e.dramRead (e.pan.slotAddr slot) (8 * min 128 (tagLen t))).bind (acceptBlock t)

/-- Levels of the pixels [x, x+n) of row y: those of a block that cannot be read are free (log entry 24, DESIGN CHOICE). -/
def Engine.rowLevels (e : Engine) (b x n y : Nat) : List Nat :=
  let blocks := ((List.range ((x + n - 1) / 64 + 1 - x / 64)).map (fun i => e.blockLevels b (x / 64 + i) (y / 64)))
  (List.range n).map (fun i =>
    match blocks.getD ((x + i) / 64 - x / 64) none with
    | some l => l.getD (y % 64 * 64 + (x + i) % 64) 0
    | none => (Config.freeValue (e.freeIdx + i)).toNat % 4)

/-- The raw bytes of a unit: its rows, four pixels a byte, padded to whole bytes (R104). -/
def Engine.unitBytes (e : Engine) (u : ProofUnit) : List Byte :=
  (List.range u.rows).flatMap (fun r =>
    packLsb ((u.width + 3) / 4) ((e.rowLevels u.bank u.col u.width (u.row + r)).flatMap (natBits 2)))

/-- Store bytes in the proof ring from its write offset on. -/
def Engine.proofStore (e : Engine) : Nat → List Byte → Engine
  | _, [] => e
  | o, b :: r => Engine.proofStore (e.dramStore (e.get 0x2471 4 + o % e.get 0x2471 5) [b]) (o + 1) r

/-- Free bytes of the proof ring; one byte stays free, so that a full ring is told from an empty one (log entry 23, DEDUCED). -/
def Engine.proofRoom (e : Engine) : Nat :=
  let n := e.get 0x2471 5
  n - 1 - (e.get 0x2471 6 + n - e.get 0x2471 7) % n

/-- A unit is finished: the next one, or the end of the proof (state 5) once the panel has given its last. -/
def Engine.proofUnitDone (e : Engine) : Engine :=
  let p := e.sup.proof
  let rest := p.units.tail
  if rest.isEmpty ∧ p.panelLast then { (e.put 0x2471 2 5) with sup.proof := {} }
  else { e with sup.proof := { p with units := rest, off := 0, start := 0, ended := none } }

/-- PROOF_BLOCK_WRITTEN (R104-R106): the next block of the unit at the front. A latched end command cuts it after a token
whose place is a matter of timing: the cut is free (log entry 24, DESIGN CHOICE). Without room the encoder is held in state 3. -/
def Engine.proofBlockWrite (e : Engine) : Engine :=
  let st := e.get 0x2471 2
  match e.sup.proof.units with
  | [] => e
  | u :: _ =>
    if st ≠ 2 ∧ st ≠ 3 then e
    else
      let p := e.sup.proof
      let bs := e.unitBytes u
      let e := { e with freeIdx := e.freeIdx + u.width * u.rows }
      let most := min bs.length (p.off + e.get 0x2471 8)
      let fin := match p.ended with
        | none => most
        | some _ => p.off + e.freeVal.toNat % (most - p.off + 1)
      let e := if p.ended.isSome then e.useFree else e
      let cut := p.ended == some true
      if fin = p.off ∧ !cut then { e with sup.proof := { p with ended := none } }
      else
        let whole := decide (fin = bs.length)
        let flags := ofBool (whole || cut) + 2 * ofBool (whole && u.last)
        let blk := proofBlock u.stream flags bs ((u.width + 3) / 4) p.off fin p.start
        if e.proofRoom < blk.length then e.put 0x2471 2 3
        else
          let o := e.get 0x2471 6
          let e := (e.proofStore (o + 16) (blk.drop 16)).proofStore o (blk.take 16)
          let e := ((e.put 0x2471 6 ((o + blk.length) % e.get 0x2471 5)).wrap 0x2471 9 1).put 0x2471 2 2
          if whole then e.proofUnitDone
          else { e with sup.proof := { p with off := fin, start := if cut then fin else p.start, ended := none } }

/-- R106. -/
def execProofBlockWritten (s : State) : Host.Outcome State Fault Refusal := onEngine (whenLive Engine.proofBlockWrite) s

/-- PROOF_READ_OFFSET_WRITE (R106, R109): between the last read offset and the write offset. -/
def Engine.proofReadOffset (e : Engine) (v : Nat) : Engine :=
  let n := e.get 0x2471 5
  let r := e.get 0x2471 7
  if n ≤ v ∨ (e.get 0x2471 6 + n - r) % n < (v + n - r) % n then e.refuse abValue
  else
    let e := e.put 0x2471 7 v
    (if e.get 0x2471 2 = 3 then e.put 0x2471 2 2 else e).done

/-- R106. -/
def execProofReadOffsetWrite (v : BitVec 32) (s : State) : Host.Outcome State Fault Refusal :=
  onEngine (request 0x2471 (fun e => e.proofReadOffset v.toNat)) s

end Sys2Proof.Machine
end

