-- ==== Sys2Proof/Machine/Motion.lean ====
section
/-! DEFINITION. Axes: planning, the servo period, the axis link, supervision, axis commands (R228-R232, R236-R246). -/

namespace Sys2Proof.Machine

/-- The indices of axis a (R247). -/
def axisIdx (a : Nat) : Nat := 0x3000 + 16 * a

/-! Planning (R236-R238) -/

/-- A quotient in whole counts; how one that is not whole is rounded is open (log entry 10, DESIGN CHOICE). -/
def counts (n : Int) (d : Nat) : Int :=
  if n % (max 1 d : Nat) = 0 then n / (max 1 d : Nat) else n / (max 1 d : Nat) + (if Config.roundsUp n d then 1 else 0)

/-- Distance of a ramp between speeds u and w ≥ u, with rate a and jerk j. -/
def rampSpan (u w a j : Nat) : Nat :=
  (counts ((w * w - u * u : Nat) : Int) (2 * a)).toNat + (if j = 0 then 0 else (counts ((u + w) * a : Nat) (2 * j)).toNat)

/-- Servo periods of a ramp over a change of speed dv: dv ÷ a, and a ÷ j for an S-curve. -/
def rampLen (dv a j : Nat) : Nat := ceilDiv (dv * 16000) (max 1 a) + (if j = 0 then 0 else ceilDiv (a * 16000) j)

/-- The largest number below 2^n added to `acc` that has a property which larger ones do not regain. -/
def largest (p : Nat → Bool) : Nat → Nat → Nat
  | 0, acc => acc
  | n + 1, acc => largest p n (if p (acc + 2 ^ n) then acc + 2 ^ n else acc)

/-- Speed, acceleration, deceleration and jerk of a segment that starts now: axis 0 in a job uses 3005h (R244). -/
def Engine.profile (e : Engine) (a : Nat) : Nat × Nat × Nat × Nat :=
  let i := axisIdx a
  if a = 0 ∧ e.get i 2 = 6 then (max 1 (e.get 0x3005 3), max 1 (e.get 0x3005 2), max 1 (e.get 0x3005 2), e.get 0x3005 4)
  else (max 1 (e.get (i + 1) 1), max 1 (e.get (i + 1) 2), max 1 (e.get (i + 1) 3), e.get (i + 1) 4)

/-- The segment that an axis at position p with speed v takes on its way to x: none at the target. At constant speed it goes on
until the ramp down is due; a replan may also change the speed. -/
def Engine.nextSeg (e : Engine) (a : Nat) (p v x : Int) (replan : Bool) : Option Seg :=
  let (vm, acc, dec, j) := e.profile a
  let d := x - p
  if v = 0 then
    if d = 0 then none
    else
      let fits (u : Nat) : Bool := decide (u ≤ vm) && decide (rampSpan 0 u acc j + rampSpan 0 u dec j ≤ d.natAbs)
      let u := largest fits 24 0
      if u = 0 then some { kind := .position, x0 := p, x1 := x, a := acc, j := j, len := rampLen 1 acc j }
      else some { kind := .up, x0 := p, x1 := p + d.sign * rampSpan 0 u acc j, v1 := d.sign * u, a := acc, j := j,
                  len := rampLen u acc j }
  else
    let s := v.sign
    let u := v.natAbs
    let ahead := d * s
    let need := rampSpan 0 u dec j
    let down (x1 : Int) : Seg := { kind := .down, x0 := p, x1 := x1, v0 := v, a := dec, j := j, len := rampLen u dec j }
    if ahead < need then some (down (p + s * need))
    else if ahead * 16000 < need * 16000 + u then some (down x)
    else if replan ∧ u < vm ∧ (rampSpan u vm acc j + rampSpan 0 vm dec j : Nat) ≤ ahead then
      some { kind := .up, x0 := p, x1 := p + s * rampSpan u vm acc j, v0 := v, v1 := s * vm, a := acc, j := j,
             len := rampLen (vm - u) acc j }
    else if replan ∧ vm < u ∧ (rampSpan vm u dec j + rampSpan 0 vm dec j : Nat) ≤ ahead then
      some { kind := .down, x0 := p, x1 := p + s * rampSpan vm u dec j, v0 := v, v1 := s * vm, a := dec, j := j,
             len := rampLen (u - vm) dec j }
    else some { kind := .cruise, x0 := p, v0 := v, v1 := v }

/-- The stop ramp from where axis a is (R238). -/
def Engine.stopSeg (e : Engine) (a : Nat) (p v : Int) : Seg :=
  let i := axisIdx a + 1
  let dec := max 1 (e.get i 5)
  { kind := .stop, x0 := p, x1 := p + v.sign * rampSpan 0 v.natAbs dec (e.get i 4), v0 := v, a := dec, j := e.get i 4,
    len := rampLen v.natAbs dec (e.get i 4) }

/-- The planned position of axis a: its set-point. -/
def Engine.setPoint (e : Engine) (a : Nat) : Int := e.getI 32 (axisIdx a) 5

/-- A stop ramp has ended (R238, R239): to Fault where a fault caused it, to Disabled where a Halt clears ENABLE. -/
def Engine.stopEnded (e : Engine) (a : Nat) : Engine :=
  let x := e.axis a
  let e := e.setAxis a { x with stopping := false, stopFault := false, clearEnable := false, enable := x.enable && !x.clearEnable }
  let st := e.get (axisIdx a) 2
  e.put (axisIdx a) 2 (if x.stopFault ∨ st = 5 then 5 else if x.clearEnable then 0 else 1)

/-- One servo period of segment g. -/
def Engine.segStep (e : Engine) (a : Nat) (g : Seg) : Engine :=
  let x := e.axis a
  let k := g.k + 1
  match g.kind with
  | .cruise =>
    (e.setAxis a { x with seg := some { g with k := k } }).putI 32 (axisIdx a) 5 (g.x0 + counts (g.v0 * k) 16000)
  | _ =>
    if g.len ≤ k then
      let e := (e.setAxis a { x with seg := none, v := g.v1 }).putI 32 (axisIdx a) 5 g.x1
      if g.kind = .stop then e.stopEnded a else e
    else
      (e.setAxis a { x with seg := some { g with k := k }, v := Config.segmentSpeed g.x0 g.x1 g.v0 g.v1 g.a g.j k }).putI 32
        (axisIdx a) 5 (Config.segmentPosition g.x0 g.x1 g.v0 g.v1 g.a g.j k)

/-- Go towards the target from the present set-point and speed; at the target the move ends. -/
def Engine.pursue (e : Engine) (a : Nat) (replan : Bool) : Engine :=
  let x := e.axis a
  match x.target with
  | none => e
  | some t =>
    match e.nextSeg a (e.setPoint a) x.v t replan with
    | some g => e.segStep a g
    | none =>
      let e := e.setAxis a { x with target := none }
      if e.get (axisIdx a) 2 = 3 then e.put (axisIdx a) 2 1 else e

/-- A following axis at standstill (R237): own base plus G ÷ 65,536 of what axis 1 has moved. -/
def Engine.follow (e : Engine) (a : Nat) : Engine :=
  let i := axisIdx a
  let g := e.getI 32 i 8
  let x := e.axis a
  if g = 0 ∨ !(e.get i 1 = 3 ∨ e.get i 1 = 4) ∨ !(e.get i 2 = 1 ∨ e.get i 2 = 2) then e
  else
    let p := x.ownBase + counts (g * (e.setPoint 1 - x.leadBase)) 65536
    if p = e.setPoint a then e
    else if x.hold then (e.setAxis a { x with hold := false }).put i 2 1
    else e.putI 32 i 5 p

/-- The move of axis a within one servo period. -/
def Engine.runAxis (e : Engine) (a : Nat) : Engine :=
  let x := e.axis a
  if x.stopNext then
    (e.setAxis a { x with stopNext := false, stopping := true }).segStep a (e.stopSeg a (e.setPoint a) x.v)
  else
    match x.seg, x.start with
    | some g, start =>
      if g.kind = .cruise then
        match start, x.target with
        | some t, _ => (e.setAxis a { x with start := none, target := some t }).pursue a true
        | none, some t =>
          (match e.nextSeg a (e.setPoint a) x.v t false with
            | some g' => e.segStep a (if g'.kind = .cruise then g else g')
            | none => e.segStep a g)
        | none, none => e.segStep a g
      else e.segStep a g
    | none, some t =>
      if x.hold then (e.setAxis a { x with hold := false }).put (axisIdx a) 2 1
      else
        let e := e.setAxis a { x with start := none, target := some t }
        let e := if e.get (axisIdx a) 2 = 1 ∨ e.get (axisIdx a) 2 = 2 then e.put (axisIdx a) 2 3 else e
        e.pursue a true
    | none, none =>
      match x.plan with
      | g :: rest => (e.setAxis a { x with plan := rest }).segStep a g
      | [] => if x.target.isSome then e.pursue a false else e.follow a

/-! Faults (R242) -/

/-- A motion fault on axis a: kept if it is the first since command 6, the reaction of R242, and the message. -/
def Engine.motionFault (e : Engine) (a cause : Nat) : Engine :=
  let i := axisIdx a
  let runsOn := cause == 6 || cause == 7 || cause == 9 || cause == 10 || (e.inTransit a && (cause == 1 || cause == 8))
  let e := if e.get i 9 = 0 then e.put i 9 cause else e
  let d := detailA a (e.getI 32 i 6)
  let cls := e.classOf 7 cause d
  let e := if runsOn then e else e.stopAxis a true (cls == 4)
  e.raise 7 cause d

/-- The direction in which axis a moves: 1, −1, or 0 at rest. -/
def Axis.dir (x : Axis) : Int :=
  if x.v ≠ 0 then x.v.sign else match x.seg with | some g => (g.x1 - g.x0).sign | none => 0

/-- Whether the limit input in direction s of axis a is active (R241). -/
def Engine.limitActive (e : Engine) (a : Nat) (s : Int) : Bool :=
  (decide (0 < s) && (e.inp (2 + a)).active) || (decide (s < 0) && (e.inp (10 + a)).active)

/-- A limit in the direction of motion (R241). -/
def Engine.limitCheck (e : Engine) (a : Nat) : Engine :=
  let x := e.axis a
  if x.stopping ∨ x.stopNext ∨ e.get (axisIdx a) 2 = 0 then e
  else if e.limitActive a x.dir then e.motionFault a 5 else e

/-- Following-error supervision of one servo period (R240), and the time at rest within the position window. -/
def Engine.superviseAxis (e : Engine) (a : Nat) : Engine :=
  let i := axisIdx a
  let st := e.get i 2
  let x := e.axis a
  if st = 0 then e.setAxis a { x with feRun := 0, feHard := false, restSince := none }
  else
    let fe := (e.setPoint a - e.getI 32 i 6).natAbs
    let e := e.put (i + 3) 4 (max (e.get (i + 3) 4) fe)
    let beyond := decide (e.get (i + 3) 1 < fe)
    let hard := decide (e.get (i + 3) 3 < fe)
    let still := (st == 1 || st == 2 || st == 6) && x.v == 0 && x.seg.isNone
    let run := if beyond then x.feRun + 1 else 0
    let e := e.setAxis a { x with
      feRun := run, feHard := hard,
      restSince := if still && decide (fe ≤ e.get (i + 3) 5) then x.restSince.or (some e.now) else none }
    let e := if beyond ∧ run = e.get (i + 3) 2 then e.motionFault a 1 else e
    if hard ∧ !x.feHard then e.motionFault a 2 else e

/-! The axis link (R229-R232) -/

/-- VEL for a speed. -/
def velWord (v : Int) : Nat :=
  if v % 16 = 0 ∧ -32768 ≤ v / 16 ∧ v / 16 ≤ 32767 then unsigned 16 (v / 16) else (Config.velocityUnits v).toNat

/-- The set-point frame (R229). -/
def axisFrame (a seq flags : Nat) (pos v : Int) : List Byte :=
  let bs := toLe 1 0xA5 ++ toLe 1 a ++ toLe 1 seq ++ toLe 1 flags ++ toLe 4 (unsigned 32 pos) ++ toLe 2 (velWord v) ++ [0, 0]
  bs ++ toLe 2 (crc16 bs)

/-- Send the frame of the period and await its reply. FAULT_RESET goes out with ENABLE clear (R231). -/
def Engine.sendAxis (e : Engine) (a : Nat) : Engine :=
  let x := e.axis a
  let en := x.enable && !x.faultReset
  let flags := ofBool en + 2 * ofBool x.hold + 4 * ofBool x.stopping + 8 * ofBool x.faultReset
  let seq := (x.seq + 1) % 256
  (e.setAxis a { x with seq := seq, awaiting := true, discarded := false, faultReset := false, sendPos := none }).send
    (.axisFrame a (axisFrame a seq flags (x.sendPos.getD (e.setPoint a)) x.v))

/-- Axis a leaves state 6 at rest once the job is Idle or Held (R239, R243). -/
def Engine.leaveJob (e : Engine) (a : Nat) : Engine :=
  let x := e.axis a
  if e.get (axisIdx a) 2 = 6 ∧ (e.jobState = 0 ∨ e.jobState = 3) ∧ x.v = 0 ∧ x.seg.isNone ∧ x.plan.isEmpty ∧ x.start.isNone ∧
      x.target.isNone then e.put (axisIdx a) 2 1 else e

/-- One servo period of axis a; an axis with role 0 has none. -/
def Engine.servoAxis (e : Engine) (a : Nat) : Engine :=
  if e.get (axisIdx a) 1 = 0 then e
  else
    let e := ((e.superviseAxis a).runAxis a).limitCheck a
    let e := (e.leaveJob a).sendAxis a
    if a = 0 ∧ (e.axis 0).v = 0 ∧ (e.axis 0).seg.isNone then { e with mot.tail := false } else e

/-- SERVO_PERIOD: each axis, the trace units, then the hold causes that axes 0 and 1 give. -/
def Engine.servo (e : Engine) : Engine :=
  let e := e.each (List.range 8) Engine.servoAxis
  let e := e.each (List.range 8) (fun e a => e.traceEvent 2 a 0 (fun _ => true))
  Engine.evalHolds { e with mot.period := e.mot.period + 1 }

/-- R230. -/
def execServoPeriod (s : State) : Host.Outcome State Fault Refusal := onEngine (whenLive Engine.servo) s

/-- Discard a reply: counted once a period as missed. -/
def Engine.discardReply (e : Engine) (a : Nat) (crc : Bool) : Engine :=
  let x := e.axis a
  let e := if crc then e.bump (axisIdx a + 2) 3 1 else e
  if x.discarded then e else (e.setAxis a { x with discarded := true }).bump (axisIdx a + 2) 2 1

/-- An accepted reply: actual position, status, fault code, current; the link is up; DRIVE_FAULT is cause 4. -/
def Engine.acceptReply (e : Engine) (a : Nat) (fr : List Byte) : Engine :=
  let i := axisIdx a
  let x := e.axis a
  let st := le ((fr.drop 3).take 1)
  let e := e.setAxis a { x with awaiting := false, missedRun := 0, driveFault := bit st 2 }
  let e := (((e.put (i + 2) 1 1).put (i + 2) 5 st).put (i + 2) 6 (le ((fr.drop 10).take 2))).put (i + 2) 7 (le ((fr.drop 8).take 2))
  let e := if e.get i 7 = 0 then e.put i 6 (le ((fr.drop 4).take 4)) else e
  if bit st 2 ∧ !x.driveFault then e.motionFault a 4 else e

/-- AXIS_REPLY: complete, with a valid CRC, a matching axis and a matching SEQ. -/
def Engine.reply (e : Engine) (a : Nat) (fr : List Byte) : Engine :=
  let x := e.axis a
  if !x.awaiting then e
  else if fr.length ≠ 14 ∨ le (fr.take 1) ≠ 0x5A then e.discardReply a false
  else if le (fr.drop 12) ≠ crc16 (fr.take 12) then e.discardReply a true
  else if le ((fr.drop 1).take 1) ≠ a ∨ le ((fr.drop 2).take 1) ≠ x.seq then e.discardReply a false
  else e.acceptReply a fr

/-- R230. -/
def execAxisReply (a : Fin 8) (frame : List Byte) (s : State) : Host.Outcome State Fault Refusal :=
  onEngine (whenLive (fun e => e.reply a.val frame)) s

/-- AXIS_REPLY_DEADLINE: no reply was accepted by 40 µs; at the limit the link is lost (R232). -/
def Engine.replyDeadline (e : Engine) (a : Nat) : Engine :=
  let i := axisIdx a
  let x := e.axis a
  if !x.awaiting then e
  else
    let e := if x.discarded then e else e.bump (i + 2) 2 1
    let e := e.setAxis a { x with awaiting := false, missedRun := x.missedRun + 1 }
    if e.get (i + 2) 1 = 1 ∧ e.get (i + 2) 4 ≤ x.missedRun + 1 then (e.put (i + 2) 1 2).motionFault a 3 else e

/-- R232. -/
def execAxisReplyDeadline (a : Fin 8) (s : State) : Host.Outcome State Fault Refusal :=
  onEngine (whenLive (fun e => e.replyDeadline a.val)) s

/-! Axis commands (R237-R239, R243) -/

/-- Whether transit control holds axis a against commands 3, 4 and 5 (R243). -/
def Engine.jobControls (e : Engine) (a : Nat) : Bool := decide (a < 2) && (e.jobState == 1 || e.jobState == 2)

/-- A command refused because transit control holds the axis: cause 6. -/
def Engine.refuseJob (e : Engine) (a : Nat) : Engine := (e.motionFault a 6).refuse abState

/-- AXIS_ENABLE: the set-point begins at the actual position (log entry 30, DEDUCED). -/
def Engine.enableAxis (e : Engine) (a : Nat) : Engine :=
  let i := axisIdx a
  if e.get i 2 ≠ 0 ∨ e.get (i + 2) 1 ≠ 1 then e.refuse abState
  else
    let e := ((e.put i 2 1).put i 5 (e.get i 6)).setAxis a { e.axis a with enable := true, hold := false, v := 0 }
    e.evalHolds.done

/-- R239. -/
def execAxisEnable (a : Fin 8) (s : State) : Host.Outcome State Fault Refusal :=
  onEngine (request 0x3000 (fun e => e.enableAxis a.val)) s

/-- AXIS_DISABLE: at standstill. -/
def Engine.disableAxis (e : Engine) (a : Nat) : Engine :=
  let i := axisIdx a
  if e.get i 2 ≠ 1 ∧ e.get i 2 ≠ 2 then e.refuse abState
  else ((e.put i 2 0).setAxis a { e.axis a with enable := false, hold := false, start := none }).evalHolds.done

/-- R239. -/
def execAxisDisable (a : Fin 8) (s : State) : Host.Outcome State Fault Refusal :=
  onEngine (request 0x3000 (fun e => e.disableAxis a.val)) s

/-- Whether the demand of R20 keeps the axes on the stop ramp, then at hold. -/
def Engine.axesStopped (e : Engine) : Bool := e.haltDemand || decide (4 ≤ e.stage)

/-- AXIS_MOVE. -/
def Engine.moveAxis (e : Engine) (a : Nat) : Engine :=
  let i := axisIdx a
  let st := e.get i 2
  let x := e.axis a
  let t := e.getI 32 i 4
  let following := (e.get i 1 == 3 || e.get i 1 == 4) && e.get i 8 != 0
  if e.jobControls a then e.refuseJob a
  else if !(st = 1 ∨ st = 2 ∨ st = 3) ∨ following ∨ x.stopNext ∨ x.stopping ∨ e.axesStopped ∨
      e.limitActive a (t - e.setPoint a) then e.refuse abState
  else (e.setAxis a { x with start := some t }).done

/-- R237. -/
def execAxisMove (a : Fin 8) (s : State) : Host.Outcome State Fault Refusal :=
  onEngine (request 0x3000 (fun e => e.moveAxis a.val)) s

/-- AXIS_STOP: a move that the next servo period would take is discarded (R246). -/
def Engine.stopCommand (e : Engine) (a : Nat) : Engine :=
  let st := e.get (axisIdx a) 2
  if e.jobControls a then e.refuseJob a
  else if !(st = 1 ∨ st = 2 ∨ st = 3) then e.refuse abState
  else (e.stopAxis a false false).done

/-- R238. -/
def execAxisStop (a : Fin 8) (s : State) : Host.Outcome State Fault Refusal :=
  onEngine (request 0x3000 (fun e => e.stopCommand a.val)) s

/-- AXIS_SET_POSITION: sent to the drive in POS, or set in the encoder input (log entry 30, DEDUCED). -/
def Engine.setPosition (e : Engine) (a : Nat) : Engine :=
  let i := axisIdx a
  let st := e.get i 2
  let t := e.getI 32 i 4
  if e.jobControls a then e.refuseJob a
  else if !(st = 1 ∨ st = 2) then e.refuse abState
  else
    let e := (e.putI 32 i 5 t).putI 32 i 6 t
    let src := e.get i 7
    if src = 0 then (e.setAxis a { e.axis a with sendPos := some t }).done
    else
      let k := 0x300F + 16 * (src - 1)
      let e := ((e.putI 32 k 1 t).putI 32 k 2 t).setEnc (src - 1) { e.enc (src - 1) with m := t }
      let e := e.each (List.range 8) (fun e b => if e.get (axisIdx b) 7 = src then e.putI 32 (axisIdx b) 6 t else e)
      (if src = 1 then { e with path.pos := t } else e).done

/-- R239. -/
def execAxisSetPosition (a : Fin 8) (s : State) : Host.Outcome State Fault Refusal :=
  onEngine (request 0x3000 (fun e => e.setPosition a.val)) s

/-- Whether the cause of a fault still holds: following error over the limit, link not up, an unstable encoder. A drive fault
is cleared by the FAULT_RESET that the command sends. -/
def Engine.causeHolds (e : Engine) (a : Nat) : Bool :=
  let i := axisIdx a
  let src := e.get i 7
  decide (e.get (i + 3) 1 < (e.setPoint a - e.getI 32 i 6).natAbs) || e.get (i + 2) 1 != 1 ||
    (src != 0 && ((e.inp (25 + src)).unstable || (e.inp (29 + src)).unstable || (e.inp (33 + src)).unstable))

/-- AXIS_FAULT_RESET: from Fault at standstill, once the cause has cleared. -/
def Engine.resetAxis (e : Engine) (a : Nat) : Engine :=
  let i := axisIdx a
  let x := e.axis a
  if e.get i 2 ≠ 5 ∨ x.v ≠ 0 ∨ x.seg.isSome ∨ x.stopNext ∨ e.causeHolds a then e.refuse abState
  else
    let e := ((e.put i 2 1).put i 9 0).put (i + 3) 4 0
    let e := e.setAxis a { x with enable := true, hold := false, faultReset := true, driveFault := false, feRun := 0 }
    let src := e.get i 7
    let e := if src = 0 then e else e.put (0x300F + 16 * (src - 1)) 0x0B 0
    (e.release).evalHolds.done

/-- R239. -/
def execAxisFaultReset (a : Fin 8) (s : State) : Host.Outcome State Fault Refusal :=
  onEngine (request 0x3000 (fun e => e.resetAxis a.val)) s

/-- FOLLOW_RATIO_WRITE: both bases are taken; roles 3 and 4 only. -/
def Engine.setFollow (e : Engine) (a g : Nat) : Engine :=
  let i := axisIdx a
  if g ≠ 0 ∧ e.get i 1 ≠ 3 ∧ e.get i 1 ≠ 4 then e.refuse abValue
  else ((e.put i 8 g).setAxis a { e.axis a with ownBase := e.setPoint a, leadBase := e.setPoint 1 }).done

/-- R237. -/
def execFollowRatioWrite (a : Fin 8) (g : BitVec 32) (s : State) : Host.Outcome State Fault Refusal :=
  onEngine (request 0x3000 (fun e => e.setFollow a.val g.toNat)) s

/-- HOLD_DELAY_EXPIRY: at standstill; a move that starts in the period wins (R246). -/
def Engine.holdExpiry (e : Engine) (a : Nat) : Engine :=
  let x := e.axis a
  if e.get (axisIdx a) 2 = 1 ∧ x.v = 0 ∧ x.seg.isNone ∧ x.start.isNone ∧ x.target.isNone then
    (e.setAxis a { x with hold := true }).put (axisIdx a) 2 2
  else e

/-- R239. -/
def execHoldDelayExpiry (a : Fin 8) (s : State) : Host.Outcome State Fault Refusal :=
  onEngine (whenLive (fun e => e.holdExpiry a.val)) s

end Sys2Proof.Machine
end

