-- ==== Sys2Proof/Machine/Staging.lean ====
section
/-! DEFINITION. Staged writes (R47, R48): the checks of an arm, and their application at a boundary. -/

namespace Sys2Proof.Machine

/-! Speeds, times and distances of a job (R39, R244, R245) -/

/-- Meridian frequency of a speed step (R39). -/
def stepHz (s : Nat) : Nat := [48000, 42000, 36000, 30000, 24000, 18000, 12000].getD s 12000

/-- REF cycles of a ramp over a change of speed v. -/
def rampRef (v a j : Nat) : Nat := ceilDiv (v * 50000000) (max 1 a) + (if j = 0 then 0 else ceilDiv (a * 50000000) j)

/-- Servo periods of a whole move over n counts. -/
def moveLen (n v acc dec j : Nat) : Nat :=
  if n = 0 then 0
  else
    let fits (u : Nat) : Bool := decide (u ≤ v) && decide (rampSpan 0 u acc j + rampSpan 0 u dec j ≤ n)
    let u := largest fits 24 0
    if u = 0 then rampLen 1 acc j
    else rampLen u acc j + rampLen u dec j + ceilDiv ((n - rampSpan 0 u acc j - rampSpan 0 u dec j) * 16000) u

/-- Counts per inch of axis a's position source; that of a drive is open (log entry 11, DESIGN CHOICE). -/
def Engine.axisInch (e : Engine) (a : Nat) : Nat :=
  match e.get (axisIdx a) 7 with
  | 0 => Config.driveCountsPerInch
  | s + 1 => e.get (0x300F + 16 * s) 3

/-- N(v) of R245. -/
def feedCounts (v cy : Nat) : Nat := (v * cy + 600) / 1200

/-- The geometry of the job, or in Idle the one that command 1 would fix. -/
def Engine.jobGeometry (e : Engine) : Panels := if e.jobState = 0 then e.formStore else e.pan

/-! The checks of an arm (R47, R56, R138, R159, R167, R244, R245) -/

/-- The value of entry idx:sub as it will be once the staged writes are applied. -/
def Engine.staged (e : Engine) (idx sub : Nat) : Nat := e.shown (ekey idx sub)

/-- Every peff lies in 0 … 32,767 (R159). -/
def Engine.armPeff (e : Engine) : Bool :=
  ((List.range 128).filter e.populated).all (fun h => [0, 1].all (fun r => [false, true].all (fun rev =>
    let p := peffOf (e.staged (0x2780 + h) (r + 1)) (signed 16 (e.staged 0x2702 (bankOf h + 1))) rev
    decide (0 ≤ p) && decide (p ≤ 32767))))

/-- The band thresholds of every bank ascend (R167). -/
def Engine.armBands (e : Engine) : Bool :=
  (List.range 8).all (fun b => decide (e.staged (0x2440 + b) 2 ≤ e.staged (0x2440 + b) 3) &&
    decide (e.staged (0x2440 + b) 3 ≤ e.staged (0x2440 + b) 4))

/-- No staged selection names a mask with a cell of P or more (R138). -/
def Engine.armMasks (e : Engine) : Bool :=
  (List.range 8).all (fun b => match e.stagedVal (ekey (0x2530 + b) 1) with
    | some m => decide (e.get (0x2510 + m) 5 < e.passes)
    | none => true)

/-- Deceleration, positioning, acceleration and run-in fit the turnaround at the fastest permitted step (R244). -/
def Engine.armTurn (e : Engine) : Bool :=
  let f := stepHz (e.staged 0x2201 2)
  let cpl := e.get 0x300F 3 / max 1 e.jobGeometry.resDpi
  let a := max 1 (e.staged 0x3005 2)
  let j := e.staged 0x3005 4
  let run := e.staged 0x2201 5
  let back := moveLen ((run - 64 + (64 - run)) * cpl) (max 1 (e.staged 0x3005 3)) a a j
  decide (2 * rampRef (f * cpl) a j + 3125 * back + ceilDiv (run * 50000000) f ≤ e.staged 0x2201 3 * refMs)

/-- The largest advance of axis 1 ends by the axis-1 gate (R245); in unidirectional mode it has the return sweep as well. -/
def Engine.armFeed (e : Engine) : Bool :=
  let g := e.jobGeometry
  let f := stepHz (e.staged 0x2201 2)
  let n := ceilDiv (g.resB * e.axisInch 1) 1200
  let len := moveLen n (max 1 (e.staged 0x3011 1)) (max 1 (e.staged 0x3011 2)) (max 1 (e.staged 0x3011 3)) (e.staged 0x3011 4)
  let turn := e.staged 0x2201 3 * refMs
  let span := if g.bidir then 0 else (g.resW + e.pmax + 64) * 50000000 / f + turn
  decide (3125 * len + 10 * refMs ≤ turn + span)

/-- An arm is refused with 0609 0030h, and nothing is applied. -/
def Engine.armRefused (e : Engine) : Bool := !(e.armPeff && e.armBands && e.armMasks && e.armTurn && e.armFeed)

/-! Applying (R47) -/

/-- The staged drive map of bank b, in both copies (R165). -/
def Engine.applyMap (e : Engine) (b : Nat) : Engine :=
  match cellGet (fun _ => none) e.d.stagedDom (ekey (0x2440 + b) 1) with
  | none => e
  | some bs =>
    let cs := (List.range 256).map (fun i => (b * 256 + i, (bs.getD i 0).toNat))
    let e : Engine := { e with path.maps := cellSetAll mapDefault cs e.path.maps, path.twins := cellSetAll mapDefault cs e.path.twins,
                               img.poisonD := cellEraseRange (b * 256) 256 e.img.poisonD }
    e.put (0x2440 + b) 6 (crc32c bs)

/-- The mask selection of bank b comes into force for the rows from A(t_f) on (R138). -/
def Engine.applyMask (e : Engine) (b : Nat) : Engine :=
  let i := 0x2530 + b
  (e.put i 4 (e.get i 1)).put i 5 (if e.jobState = 0 then 0 else advSum e.pan.resH e.pan.resP e.pan.nextT)

/-- What applying a warming loop's staged entries starts: a set-point write (R252, R262), and WARM_PERIOD (R255). -/
def Engine.applyWarm (e : Engine) (l : Nat) : Engine :=
  let e := if (e.stagedVal (ekey (0x3100 + l) 2)).isSome then e.spWrite l else e
  match e.stagedVal (ekey (0x3100 + l) 0x12) with
  | some v => if v = e.get (0x3100 + l) 0x12 then e else e.warmPeriod l v
  | none => e

/-- The engine applies all staged writes together; the consequences are fixed from the state at this boundary. -/
def Engine.applyStagedWrites (e : Engine) : Engine :=
  let hasMask (b : Nat) : Bool := [1, 2, 3].any (fun s => (e.stagedVal (ekey (0x2530 + b) s)).isSome)
  let banks := (List.range 8).filter hasMask
  let e := e.each (List.range 8) Engine.applyScreening
  let e := e.each (List.range 8) Engine.applyMap
  let e := e.each (List.range 128) Engine.applyWarm
  let e := e.d.staged.foldl (fun e p => match p.2 with | some v => e.setEnt p.1 v | none => e) e
  let e := e.d.stagedDom.foldl (fun e p => match p.2 with | some bs => e.setDom (p.1 / 256) (p.1 % 256) bs | none => e) e
  let e := e.each banks Engine.applyMask
  { e.put 0x2201 6 0 with d.staged := [], d.stagedDom := [] }

/-- APPLY_STAGED (R47): armed for the next boundary that begins, or in Idle applied at once. -/
def Engine.armStaged (e : Engine) : Engine :=
  if e.armRefused then e.refuse abValue
  else if e.jobState = 0 then e.applyStagedWrites.done
  else (e.put 0x2201 6 1).done

/-- R47. -/
def execApplyStaged (s : State) : Host.Outcome State Fault Refusal := onEngine (request 0x2201 Engine.armStaged) s

end Sys2Proof.Machine
end

