-- ==== Sys2Proof/Machine/Reports.lean ====
section
/-! DEFINITION. Panel reports and panel fault records (R54, R55, R324), and the pacing forecast (R39-R41). -/

namespace Sys2Proof.Machine

/-! Row records (R55, R156) -/

/-- Order of row records for joining: by cause, head and first row. -/
def RowRecord.joinKey (r : RowRecord) : Nat := (r.cause * 256 + r.head) * 2 ^ 32 + r.first

/-- Insert by a key. -/
def insertBy (key : RowRecord → Nat) (r : RowRecord) : List RowRecord → List RowRecord
  | [] => [r]
  | q :: rest => if key r < key q then r :: q :: rest else q :: insertBy key r rest

/-- Sort by a key. -/
def sortBy (key : RowRecord → Nat) (rs : List RowRecord) : List RowRecord := rs.foldl (fun acc r => insertBy key r acc) []

/-- Join neighbours of one cause and head up to 65,535 rows. -/
def joinRows : List RowRecord → List RowRecord
  | [] => []
  | r :: rest =>
    match joinRows rest with
    | [] => [r]
    | q :: more =>
      if r.cause = q.cause ∧ r.head = q.head ∧ r.first + r.rows = q.first ∧ r.rows + q.rows ≤ 65535 then
        { r with rows := r.rows + q.rows } :: more
      else r :: q :: more

/-- The records of `n` rows from `y` on with cause 7. -/
def breakRecords (y n : Nat) : List RowRecord :=
  (List.range (ceilDiv n 65535)).map (fun k => { first := y + 65535 * k, rows := min 65535 (n - 65535 * k), cause := 7 })

/-- The row records of the open panel, in ascending order of first row. -/
def Panels.rowRecords (p : Panels) : List RowRecord :=
  let lost : List RowRecord := p.lostRows.map (fun r => { first := r.y, rows := 1, cause := r.cause, head := r.h })
  let weak : List RowRecord := p.degradedRows.map (fun r => { first := r.1 / 8, rows := 1, cause := 6, head := r.2 })
  let breaks := p.breaks.flatMap (fun b => breakRecords b.1 (b.2 - b.1))
  sortBy (·.first) (joinRows (sortBy RowRecord.joinKey (lost ++ weak)) ++ breaks)

/-- The 8 bytes of a row record. -/
def RowRecord.bytes (r : RowRecord) : List Byte := toLe 4 r.first ++ toLe 2 r.rows ++ toLe 1 r.cause ++ toLe 1 r.head

/-- Number of different values in a list. -/
def distinct : List Nat → Nat
  | [] => 0
  | x :: r => (if r.contains x then 0 else 1) + distinct r

/-! The reports (R54, R324) -/

/-- PANEL_REPORT: the report of the panel to 2210h + (panel number mod 8), with its event record. -/
def Engine.writeReport (e : Engine) (cause : Nat) : Engine :=
  let p := e.pan
  let n := e.get 0x2202 1
  let i := 0x2210 + n % 8
  let rs := p.rowRecords
  let e := [(1, n), (2, e.get 0x2200 4), (3, cause), (4, (p.nextT - p.firstT) % 65536), (5, p.firstRow),
    (6, p.linesBlanked), (7, p.dotsBlanked), (8, distinct (p.lostRows.map (·.y))),
    (9, distinct (p.degradedRows.map (fun r => r.1 / 8))), (0x0A, (p.breaks.map (fun b => b.2 - b.1)).foldl (· + ·) 0),
    (0x0B, p.deadlines), (0x0C, e.get 0x2202 8), (0x0E, ofBool (decide (4096 < rs.length)))].foldl
      (fun e (x : Nat × Nat) => e.put i x.1 x.2) e
  let e := e.setDom i 0x0D ((rs.take 4096).flatMap RowRecord.bytes)
  e.record 2 (toLe 4 n ++ toLe 1 (n % 8) ++ toLe 1 cause)

/-- The panel's fault record to 4120h + (panel number mod 8). -/
def Engine.writeFaultRecord (e : Engine) : Engine :=
  let c := e.flt
  let i := 0x4120 + e.get 0x2202 1 % 8
  let cls (k : Nat) : Nat := cellGet (fun _ => 0) c.panelCls k
  let summary := (List.range 12).flatMap (fun k => toLe 4 (e.get 0x4110 (k + 1)))
  let e := [(1, e.get 0x2202 1), (2, cls 0), (3, cls 1), (4, cls 2), (5, cls 3), (6, cls 4), (7, c.panelEsc), (8, c.panelShadow),
    (9, c.panelMsg), (0x0A, c.panelMsgSeq), (0x0B, c.panelLast * 2 ^ 32 + c.panelFirst)].foldl
      (fun e (x : Nat × Nat) => e.put i x.1 x.2) e
  e.setDom i 0x0C summary

/-- Close the report of the panel, once a panel has been committed. A panel that is closed already is written again where an
abort makes pending deficits final (R154). -/
def Engine.closeReport (e : Engine) (cause : Nat) : Engine :=
  if e.pan.panels = 0 then e
  else
    let e := e.writeReport cause
    let e := if e.flt.counting then e.writeFaultRecord else e
    { e with pan.panelOpen := false, flt.counting := false }

/-- A panel begins: its report and fault record start empty; rows reported so far are not counted again (R156, R324). -/
def Engine.openReport (e : Engine) : Engine :=
  let p := e.pan
  let rep := p.lostRows.foldl (fun m r => cellSet (fun _ => false) m (planKey r.b r.y) true) p.reported
  { e with pan.reported := rep, pan.lostRows := [], pan.degradedRows := [], pan.breaks := [], pan.linesBlanked := 0,
           pan.dotsBlanked := 0, pan.deadlines := 0, pan.panelOpen := true, pan.cut := false, pan.firstRow := advSum p.resH p.resP p.nextT,
           flt.panelCls := [], flt.panelEsc := 0, flt.panelShadow := 0, flt.panelMsg := 0, flt.panelMsgSeq := 0,
           flt.panelFirst := 0, flt.panelLast := 0, mem.lateSeen := false }

/-! The forecast (R40, R41) -/

/-- The frontier of bank b with the progress of the contexts that have not left (R113). -/
def Engine.coverage (e : Engine) (b : Nat) : List Span :=
  (List.range 256).foldl (fun fr c =>
    let i := ctxIdx c
    if e.ctxState c ≠ 0 ∧ e.get i 3 = b then setSpan (e.get i 5) (e.get i 6) (e.get i 7 + (e.ctx c).row) fr else fr) (e.frontier b)

/-- Q: pixels screened from media row `y` on, all banks. -/
def Engine.lead (e : Engine) (y : Nat) : Nat :=
  (e.pan.bankList.map (fun b => ((e.coverage b).map (fun s => s.n * (s.row - y))).foldl (· + ·) 0)).foldl (· + ·) 0

/-- Whether the band of transit t is complete in the store (R43). -/
def Engine.bandReady (e : Engine) (t : Nat) : Bool :=
  let y := (e.pan.entering t).2
  e.pan.bankList.all (fun b =>
    decide (e.pan.resW ≤ (((e.coverage b).filter (fun s => decide (y ≤ s.row))).map (·.n)).foldl (· + ·) 0))

/-- C_s (R121): half while an Open context has 10-bit pixels. -/
def Engine.screenRate (e : Engine) : Nat :=
  if (List.range 256).any (fun c => e.ctxState c == 1 && e.get (ctxIdx c) 8 == 10 && !e.isLevel c) then 12800000000 else 25600000000

/-- Usable bandwidth with every fitted channel in service and no migration (R289). -/
def Engine.fullBandwidth (e : Engine) : Nat := popcount 4 e.mem.fitted * 40960

/-- Pixels per second screened over the supply window, as a fraction. -/
def Engine.measuredRate (e : Engine) : Nat × Nat :=
  let win := e.get 0x2201 8
  let px := ((e.pan.screenedAt.filter (fun p => decide (e.now ≤ p.1 + win * refMs))).map (·.2)).foldl (· + ·) 0
  (px * 1000, max 1 win)

/-- R_s as a fraction: declared or measured, capped at C_s × U ÷ U_full. -/
def Engine.supplyRate (e : Engine) : Nat × Nat :=
  let (n, d) := if e.get 0x2201 7 = 0 then e.measuredRate else (e.get 0x2201 7 * 1000000, 1)
  let cn := e.screenRate * e.get 0x4001 6
  let cd := max 1 e.fullBandwidth
  if cn * d < n * cd then (cn, cd) else (n, d)

/-- The cadence in µs at frequency f for C columns (R39). -/
def Engine.cadence (e : Engine) (c f : Nat) : Nat :=
  let turn := e.get 0x2201 3 * 1000
  if e.pan.bidir then ceilDiv (c * 1000000) f + turn else ceilDiv (2 * c * 1000000) f + 2 * turn

/-- The largest C of the job as it stands: W and the coarse Parallax span. -/
def Engine.columnsC (e : Engine) : Nat := e.pan.resW + e.pmax + 64

/-- What a forecast works with: P × P_t, Q, R_s and the cadences. -/
structure Forecast where
  need : Nat
  p : Nat
  q : Nat
  num : Nat
  den : Nat
  reserve : Nat
  steps : List Nat
  most : Nat
  first : Nat
  deriving DecidableEq, Repr

/-- The quantities of R40 as they stand. -/
def Engine.forecastInputs (e : Engine) : Forecast :=
  let c := e.columnsC
  let (n, d) := e.supplyRate
  let left := e.get 0x2200 9 - e.get 0x2200 0x0A
  let cfg := e.get 0x2201 1
  { need := e.pan.resH * c * e.pan.bankList.length, p := e.pan.resP, q := e.lead (advSum e.pan.resH e.pan.resP e.pan.nextT),
    num := n, den := d, reserve := e.get 0x2201 4, steps := (List.range 7).map (fun s => e.cadence c (stepHz s)),
    most := if e.get 0x2200 9 = 0 then cfg else max 1 (min cfg left), first := e.get 0x2201 2 }

/-- R41: Q ≥ P_t and Q + R_f × (n − 1) × T_c(s) ≥ n × P_t. -/
def Forecast.fits (f : Forecast) (s n : Nat) : Bool :=
  decide (f.need ≤ f.q * f.p) &&
    decide (n * f.need * (100000000 * f.den) ≤
      (f.q * (100000000 * f.den) + f.num * (100 - f.reserve) * (n - 1) * f.steps.getD s 0) * f.p)

/-- The first permitted step at which `n` transits fit. -/
def Forecast.stepFor (f : Forecast) (n : Nat) : Option Nat :=
  firstIdx (fun s => f.fits s n) ((List.range (7 - f.first)).map (· + f.first))

/-- The longest panel of at most `n` transits that fits, with its step. -/
def Forecast.longest (f : Forecast) : Nat → Option (Nat × Nat)
  | 0 => none
  | n + 1 => match f.stepFor (n + 1) with
    | some s => some (s, n + 1)
    | none => f.longest n

/-- The choice of R41: step and length. -/
def Forecast.choose (f : Forecast) : Option (Nat × Nat) := f.longest f.most

/-- 2203h:05h. -/
def Forecast.result (f : Forecast) : Nat :=
  match f.choose with
  | none => 3
  | some (s, n) => if n < f.most then 2 else if s = f.first then 0 else 1

/-- Millions, as 2203h gives them. -/
def mega (n d : Nat) : Nat := min (2 ^ 32 - 1) (n / (d * 1000000))

/-- Publish what the forecast worked with in 2203h:01h–04h. -/
def Engine.publishForecast (e : Engine) (f : Forecast) : Engine :=
  let (m, w) := e.measuredRate
  (((e.put 0x2203 1 (mega m w)).put 0x2203 2 (mega (f.num * (100 - f.reserve)) (f.den * 100))).put 0x2203 3 (mega f.q 1)).put
    0x2203 4 (mega f.need (max 1 f.p))

/-- RUNNING_FORECAST (R44): for information; the step is kept where nothing fits. -/
def Engine.runningForecast (e : Engine) : Engine :=
  let f := e.forecastInputs
  let e := e.publishForecast f
  match f.choose with
  | some (s, _) => e.put 0x2203 6 s
  | none => e

end Sys2Proof.Machine
end

