-- ==== Sys2Proof/Machine/Panels.lean ====
section
/-! DEFINITION. Jobs, panel boundaries and commits (R31, R41-R53). -/

namespace Sys2Proof.Machine

/-! Positions of a transit (R244, R245) -/

/-- Whether job transit t prints in reverse (R134, R36). -/
def Engine.reverseAt (e : Engine) (t : Nat) : Bool := e.pan.bidir && t % 2 == 1

/-- The committed carriage speed in counts/s. -/
def Engine.sweepSpeed (e : Engine) : Nat := e.get 0x2202 3 * e.cpl

/-- Ramp distance d. -/
def Engine.rampDistance (e : Engine) : Nat := rampSpan 0 e.sweepSpeed (max 1 (e.get 0x3005 2)) (e.get 0x3005 4)

/-- p0: where line 0 begins. -/
def Engine.lineZero (e : Engine) (rev : Bool) : Int :=
  e.getI 32 0x3005 1 + (if rev then (((e.pan.resW - 1 + (e.get 0x2700 0x0A - 64)) * e.cpl : Nat) : Int) else 0)

/-- 1 forward, −1 reverse. -/
def dirOf (rev : Bool) : Int := if rev then -1 else 1

/-- The launch position. -/
def Engine.launchPos (e : Engine) (rev : Bool) : Int :=
  e.lineZero rev - dirOf rev * ((e.rampDistance + e.get 0x2201 5 * e.cpl : Nat) : Int)

/-- The position of the last FIRE edge. -/
def Engine.lastEdge (e : Engine) (rev : Bool) : Int := e.lineZero rev + dirOf rev * (((e.linesC - 1) * e.cpl : Nat) : Int)

/-- Axis 1's position for transit t. -/
def Engine.feedPos (e : Engine) (t : Nat) : Int :=
  let c := e.axisInch 1
  let a (m : Nat) : Int := (feedCounts (advSum e.pan.resH e.pan.resP m) c : Int)
  e.pan.y0Axis1 + a (t + 1) - a 1

/-- Transit control gives axis a a goal, as long as it is in state 6 and on no stop ramp. -/
def Engine.goTo (e : Engine) (a : Nat) (x : Int) : Engine :=
  let y := e.axis a
  if e.get (axisIdx a) 2 = 6 ∧ !y.stopNext ∧ !y.stopping then e.setAxis a { y with start := some x } else e

/-! Commit (R37, R46, R159) -/

/-- REF cycles of acceleration and run-in at frequency f. -/
def Engine.startTime (e : Engine) (f : Nat) : Nat :=
  rampRef (f * e.cpl) (e.get 0x3005 2) (e.get 0x3005 4) + ceilDiv (e.get 0x2201 5 * 50000000) f

/-- A panel commits at step s with n transits. -/
def Engine.commit (e : Engine) (s n : Nat) : Engine :=
  let f := stepHz s
  let c := e.columnsC
  let ready := e.now + e.startTime f + refMs
  let t0 := match e.pan.lastEnd with
    | some t => max (t + e.get 0x2201 3 * refMs) ready
    | none => ready
  let e := (e.put 0x2700 0x0A (e.pmax + 64)).put 0x2700 0x0B c
  let e := [(1, e.pan.panels % 2 ^ 32), (2, s), (3, f), (4, e.cadence c f), (5, n), (6, 0), (8, 0)].foldl
    (fun e (x : Nat × Nat) => e.put 0x2202 x.1 x.2) e
  let e := [1, 2, 3, 4, 9, 10, 11, 12].foldl (fun e k => e.put 0x4110 k 0) e
  let e := [5, 6, 7, 8].foldl (fun e k => e.put 0x4110 k 0xffffffff) e
  let e := e.openReport
  let e : Engine := { e with pan.panels := e.pan.panels + 1, pan.t0 := t0, pan.firstT := e.pan.nextT, pan.launched := 0,
                             pan.returning := false }
  let e := (e.goTo 0 (e.launchPos (e.reverseAt e.pan.nextT))).goTo 1 (e.feedPos e.pan.nextT)
  let e := if e.get 0x2471 2 = 1 then (e.put 0x2471 2 2).put 0x2471 0x0A (e.get 0x2202 1) else e
  e.put 0x2200 2 2

/-- PACING_FORECAST (R41): commit, or hold for STARVED. While the store is being cleared Q is 0 and nothing commits (R125). -/
def Engine.forecastCommit (e : Engine) : Engine :=
  if e.flag 0x2430 9 then e
  else
    let f := e.forecastInputs
    let e := (e.publishForecast f).put 0x2203 5 f.result
    match f.choose with
    | some (s, n) => (e.put 0x2203 6 s).commit s n
    | none => e.toHeld.setHold 3 true

/-! The end of a job (R53, R154) -/

/-- Whether the panel in progress is the job's last (R45). -/
def Engine.jobOver (e : Engine) : Bool :=
  e.pan.endAfter || (e.get 0x2200 9 != 0 && decide (e.get 0x2200 9 ≤ e.get 0x2200 0x0A))

/-- The job goes to Idle: holds and deficits are dropped, armed staged writes apply at once (R400); an abort releases the contexts. -/
def Engine.finishJob (e : Engine) (abort : Bool) : Engine :=
  let e := if abort then e.each (List.range 256) Engine.abortCtx else e
  let e := ((e.put 0x2200 2 0).put 0x2200 3 0).put 0x2430 9 0
  let e : Engine := { e with pan.flight := none, pan.endAfter := false, pan.due := false, pan.returning := false,
                             pan.holder := none, sup.encodeQ := [], sup.bad := [], sup.frontier := [], sup.firstBoundary := false,
                             img.plans := [], img.deficits := [], img.geos := [], img.deadBank := [], path.fetch := [],
                             path.lines := [], path.started := none, flt.stopHold := false, flt.blankTransit := false }
  let e := e.each (List.range 8) (fun e b => e.setBankScr b { e.bankScr b with top := 0 })
  let e := e.publishDeficits.publishFrontier
  let e := if e.get 0x2201 6 = 1 then e.applyStagedWrites else e
  let e := (e.setPeerHold []).closeWindows (fun w => w == .channel)
  let e := e.returnHeads
  e.reEval

/-- Command 5 outside a launched transit: pending deficits are final (R154), the report ends with cause 3. -/
def Engine.abortNow (e : Engine) : Engine := ((e.finalDeficits).closeReport 3).finishJob true

/-! The boundary (R46) -/

/-- Steps 1 to 3: the report, the staged writes, one partition switch. -/
def Engine.boundaryWork (e : Engine) : Engine :=
  let beyond := e.jobOver
  let e := if e.pan.panelOpen then
      (if beyond then e.finalDeficits else e).closeReport (if beyond then 2 else if e.pan.cut then 1 else 0)
    else e
  let e := if e.pan.armed then e.applyStagedWrites else e
  let e : Engine := { e with sup.firstBoundary := true, pan.due := false }
  match e.pan.switchDue with
  | some p => if e.get (partIdx p) 5 = 1 then e.startSwitch p else e
  | none => e

/-- Steps 4 to 7: heads, peers, hold causes, forecast. -/
def Engine.boundaryRest (e : Engine) : Engine :=
  if e.jobOver then
    (if e.img.deficits.isEmpty then e else e.finalDeficits.closeReport 2).finishJob false
  else
    let e := (e.returnHeads).peerRules (e.pan.panels == 0)
    let e := e.evalHolds
    if e.jobState = 1 then e.forecastCommit else e

/-- PANEL_BOUNDARY: a partition that is switching holds it between steps 3 and 4 (R27). -/
def Engine.boundary (e : Engine) : Engine :=
  if (e.jobState ≠ 1 ∧ e.jobState ≠ 3) ∨ e.pan.holder.isSome then e
  else
    let e := if e.pan.due then e.boundaryWork else e
    if e.pan.holder.isSome then e else e.boundaryRest

/-- R46. -/
def execPanelBoundary (s : State) : Host.Outcome State Fault Refusal := onSelectors (whenLive Engine.boundary) s

/-- FORECAST_RETRY (R41): in Held for STARVED; the hold clears with a forecast that commits. -/
def Engine.retryForecast (e : Engine) : Engine :=
  if e.jobState ≠ 3 ∨ !e.hold 3 ∨ e.flag 0x2430 9 then e
  else
    let f := e.forecastInputs
    let e := (e.publishForecast f).put 0x2203 5 f.result
    match f.choose with
    | none => e
    | some (s, n) =>
      let e := (e.setHold 3 false).evalHolds
      if e.jobState = 1 then (e.put 0x2203 6 s).commit s n else e.setHold 3 true

/-- R41. -/
def execForecastRetry (s : State) : Host.Outcome State Fault Refusal := onEngine (whenLive Engine.retryForecast) s

/-! Job commands (R51-R53) -/

/-- Whether job command 1 is refused with 0609 0030h (R71, R113, R122, R124, R138, R160, R225). -/
def Engine.startRefused (e : Engine) : Bool :=
  let g := e.formStore
  let rs := g.regions
  let others := e.openRings 256 ++ [e.proofRing] ++ e.fireTable ++ e.traceRings 4
  let inch := e.get 0x300F 3
  inch % e.get 0x2200 5 != 0 || !([1, 2, 4, 8, 16, 32, 64].contains (inch / e.get 0x2200 5)) || e.get 0x3460 2 == 0 ||
    rs.any (fun r => r.1 % 4096 != 0 || !e.inDram r.1 r.2 || clash r.1 r.2 others) ||
    (match rs with
      | [a, b, c] => overlap a.1 a.2 b.1 b.2 || overlap a.1 a.2 c.1 c.2 || overlap b.1 b.2 c.1 c.2
      | _ => false) ||
    (List.range 8).any (fun b => bit g.banks b && decide (g.resP ≤ e.get (0x2510 + e.get (0x2530 + b) 4) 5)) ||
    (List.range 256).any (fun c => e.ctxState c == 1 && decide (g.resW < e.get (ctxIdx c) 5 + e.get (ctxIdx c) 6))

/-- JOB_START: the geometry is fixed, clearing begins, the job goes to Boundary. -/
def Engine.startJob (e : Engine) : Engine :=
  if e.jobState ≠ 0 then e.refuse abState
  else if e.startRefused then e.refuse abValue
  else
    let g := Engine.formStore { e with pan := {} }
    let e : Engine := { e with pan := { g with y0Axis1 := e.setPoint 1 }, sup.encodeQ := [], sup.bad := [], sup.firstBoundary := false,
                               img.plans := [], img.deficits := [], img.geos := [], img.deadBank := [] }
    let e := ((e.put 0x2430 5 (ceilDiv g.resW 64)).put 0x2430 6 g.resNbr).put 0x2430 7 g.slots
    let e := (e.put 0x2430 8 0).put 0x2430 9 1
    let e := e.each (List.range 8) (fun e j => e.put 0x2500 (3 + j) (if j < g.resP then advance g.resH g.resP j else 0))
    let e := ((e.put 0x2200 0x0A 0).put 0x2200 0x0B 0).put 0x2202 1 0
    let e := e.each (List.range 128) (fun e h => e.put (0x2780 + h) 7 0)
    let e := (e.put 0x2200 3 0).toBoundary
    e.beginBoundary.done

/-- R51. -/
def execJobStart (s : State) : Host.Outcome State Fault Refusal := onEngine (request 0x2200 Engine.startJob) s

/-- JOB_PAUSE: the job holds at the next boundary. -/
def Engine.pauseJob (e : Engine) : Engine :=
  if e.jobState = 0 then e.refuse abState else ((e.setHold 0 true).evalHolds).done

/-- R51. -/
def execJobPause (s : State) : Host.Outcome State Fault Refusal := onEngine (request 0x2200 Engine.pauseJob) s

/-- JOB_RESUME: clears hold causes 0 and 1, refused where neither is set; cause 1 stays as long as a Stop or Halt demand does
(R52). -/
def Engine.resumeJob (e : Engine) : Engine :=
  if e.jobState = 0 ∨ !(e.hold 0 ∨ e.hold 1) ∨ (e.hold 1 ∧ e.stopDemand) then e.refuse abState
  else (((e.setHold 0 false).setHold 1 false).evalHolds).done

/-- R52. -/
def execJobResume (s : State) : Host.Outcome State Fault Refusal := onEngine (request 0x2200 Engine.resumeJob) s

/-- JOB_END_AFTER_PANEL. -/
def Engine.endAfterPanel (e : Engine) : Engine :=
  if e.jobState = 0 then e.refuse abState else Engine.done { e with pan.endAfter := true }

/-- R51. -/
def execJobEndAfterPanel (s : State) : Host.Outcome State Fault Refusal := onEngine (request 0x2200 Engine.endAfterPanel) s

/-- JOB_ABORT: every head BLANK at once; a launched transit completes, then the job goes to Idle (R33, R51, R53). -/
def Engine.abortJob (e : Engine) : Engine :=
  if e.jobState = 0 then e.done
  else
    match e.pan.flight with
    | some f =>
      Engine.done { e with pan.flight := some { f with aborted := true },
                           flt.reactions := if f.aborted then e.flt.reactions else e.flt.reactions + 1 }
    | none => e.abortNow.done

/-- R51. -/
def execJobAbort (s : State) : Host.Outcome State Fault Refusal := onEngine (request 0x2200 Engine.abortJob) s

/-- R45. -/
def execJobLengthWrite (v : BitVec 32) (s : State) : Host.Outcome State Fault Refusal :=
  onEngine (request 0x2200 (fun e => (e.put 0x2200 9 v.toNat).done)) s

end Sys2Proof.Machine
end

