-- ==== Sys2Proof/Machine/Transits.lean ====
section
/-! DEFINITION. Transits (R32-R38, R43, R49): the launch check, the axis-1 gate, the end of a transit. -/

namespace Sys2Proof.Machine

/-! Launch conditions (R32) -/

/-- Servo periods until axis a has finished what it does and all that is planned for it. -/
def Engine.axisEta (e : Engine) (a : Nat) : Nat :=
  let x := e.axis a
  let (v, acc, dec, j) := e.profile a
  let p := e.setPoint a
  let further (q : Int) : Nat := match x.start.or x.target with
    | some t => moveLen (t - q).natAbs v acc dec j
    | none => 0
  match x.seg with
  | none => further p
  | some g =>
    match g.kind with
    | .up | .cruise =>
      let u := max 1 g.v1.natAbs
      let q := if g.kind = .up then g.x1 else p
      let left := if g.kind = .up then g.len - g.k else 0
      (match x.target with
        | some t => left + ceilDiv (((t - q).natAbs - rampSpan 0 u dec j) * 16000) u + rampLen u dec j
        | none => left)
    | .down | .stop | .position => g.len - g.k + (match x.start with | some t => moveLen (t - g.x1).natAbs v acc dec j | none => 0)

/-- The nominal start of the next printing transit, in REF cycles (R37). -/
def Engine.nextStart (e : Engine) : Nat := e.pan.t0 + e.pan.launched * e.get 0x2202 4 * refUs

/-- Axis 1 is on its advance profile, without a following-error fault, and is planned to end by the axis-1 gate. -/
def Engine.feedOk (e : Engine) : Bool :=
  let x := e.axis 1
  let goal := (x.start.or x.target).getD (e.setPoint 1)
  e.get 0x3010 2 == 6 && e.get 0x3010 9 != 1 && e.get 0x3010 9 != 2 && goal == e.feedPos e.pan.nextT &&
    (e.pan.returning || decide (e.now + e.axisEta 1 * 3125 + 10 * refMs ≤ e.nextStart))

/-- A failed axis condition raises a Stop-class fault that names the axis. -/
def Engine.axisFailed (e : Engine) (a : Nat) (ok : Bool) : Engine :=
  if ok then e else e.raise 3 3 (detailA a (e.getI 32 (axisIdx a) 6))

/-- PANEL_CUT (R49): the panel ends after its last launched transit; the job goes to Held. -/
def Engine.cutPanel (e : Engine) : Engine :=
  let e : Engine := { e with pan.cut := true, pan.lastCadence := e.get 0x2202 4 }
  let stop := e.stopDemand || e.flt.stopHold
  let e := (e.setPeerHold (e.pan.peerHold ++ e.gateFails.filter (fun i => !e.pan.peerHold.contains i))).toHeld
  let e := if stop then e.setHold 1 true else e
  Engine.beginBoundary (Engine.evalHolds { e with flt.stopHold := false })

/-! The launch -/

/-- Heads that begin to drain, or return from draining, at the launch check of transit t (R148). -/
def Engine.takeDrains (e : Engine) (t : Nat) : Engine :=
  e.each (List.range 128) (fun e h =>
    let x := e.head h
    let e := e.setHead h { x with drainReq := false, drainCancel := false }
    if x.drainReq ∧ e.svc h = 0 then
      let e := e.put 0x2522 (h + 1) (t + e.pan.resP - 2)
      if e.pan.resP = 1 then e.enterEclipsed h else e.setSvc h 1
    else if x.drainCancel ∧ e.svc h = 1 then e.setSvc h 0 else e)

/-- Values written for the next launch check come into force (R207). -/
def Engine.takeLaunchValues (e : Engine) : Engine :=
  let e := e.d.atLaunch.foldl (fun e p => match p.2 with | some v => e.setEnt p.1 v | none => e) e
  { e with d.atLaunch := [] }

/-- The heads at the launch of a transit: whether they serve it, their counts of echo failures, and LINE_PERIOD (R191, R194). -/
def Engine.readyHeads (e : Engine) : Engine :=
  let f := max 1 (e.get 0x2202 3)
  e.each e.storeHeads (fun e h =>
    let e := (e.put (headIdx h) 7 0).put (headIdx h) 8 0
    let e := e.setHead h { e.head h with frame := 0, cut := none, serving := decide (e.svc h ≤ 1) }
    if e.svc h ≤ 1 then e.writePeriod h ((1000000000 + f / 2) / f) else e)

/-- Axis 0 accelerates toward the print zone (R244), and encoder input 0 is filtered from here on (R235). -/
def Engine.launchAxis (e : Engine) (rev : Bool) : Engine :=
  let v := e.sweepSpeed
  let a := max 1 (e.get 0x3005 2)
  let j := e.get 0x3005 4
  let p := e.setPoint 0
  let q := p + dirOf rev * (e.rampDistance : Int)
  let w : Int := dirOf rev * (v : Int)
  let up : Seg := { kind := .up, x0 := p, x1 := q, v1 := w, a := a, j := j, len := rampLen v a j }
  let e := e.setAxis 0 { e.axis 0 with hold := false, start := none, target := none,
                                       plan := [up, { kind := .cruise, x0 := q, v0 := w, v1 := w }] }
  e.setEnc 0 { e.enc 0 with active := true, reverse := rev, m := e.getI 32 0x300F 1, fallen := false }

/-- Launch a return sweep (R36): it fires nothing. -/
def Engine.launchReturn (e : Engine) : Engine :=
  let e := e.launchAxis true
  { e with pan.flight := some { t := e.pan.nextT, ret := true, reverse := true }, pan.returning := false }

/-- Launch printing transit `index` of the panel. -/
def Engine.launchTransit (e : Engine) : Engine :=
  let t := e.pan.nextT
  let rev := e.reverseAt t
  let e := ((e.takeDrains t).catalogueCopy).takeLaunchValues
  let e := (e.formPlans t).launchDeficits t
  let e := if e.bandReady t then e else e.raise 3 2 t
  let e := (e.runningForecast.formGeo t rev).readyHeads
  let f : Flight := { t := t, index := e.pan.launched, reverse := rev, origin := e.lineZero rev * (64 / max 1 e.cpl : Nat),
                      nominal := e.nextStart }
  let e := (e.put 0x2202 6 e.pan.launched).launchAxis rev
  let e : Engine := { e with
    path.fetch := [], path.lines := [], path.started := none, path.cutFor := none, path.fails := [], path.sinceTick := 0,
    path.pos := e.getI 32 0x300F 1, path.delta := 800000000 / max 1 (e.sweepSpeed), pan.flight := some f,
    pan.launched := e.pan.launched + 1, mem.turnaroundRetrained := false }
  e.each (List.range 65) (fun e m => e.requestBlocks f m)

/-- LAUNCH_CHECK (R32): of the next sweep of the committed panel. -/
def Engine.launchCheck (e : Engine) : Engine :=
  if e.jobState ≠ 2 ∨ e.pan.flight.isSome ∨ (e.get 0x2202 5 ≤ e.pan.launched ∧ !e.pan.returning) then e
  else
    let e : Engine := { e with flt.counting := true }
    let ok0 := e.atRest 0
    let ok1 := e.feedOk
    let ok := ok0 && ok1 && !e.stopDemand && decide (e.stage < 3) && e.pllsLocked && e.gateFails.isEmpty
    let e := (e.axisFailed 0 ok0).axisFailed 1 ok1
    if !ok then e.cutPanel
    else if e.pan.returning then e.launchReturn
    else e.launchTransit

/-- R32. -/
def execLaunchCheck (s : State) : Host.Outcome State Fault Refusal := onEngine (whenLive Engine.launchCheck) s

/-- AXIS1_GATE (R34): a transit whose axis 1 is not in its window prints BLANK. -/
def Engine.feedGate (e : Engine) : Engine :=
  match e.pan.flight with
  | none => e
  | some f =>
    if f.ret ∨ f.gatePassed then e
    else
      let late := !e.atRest 1
      let e : Engine := { e with pan.flight := some { f with gatePassed := true, gated := late } }
      if late then e.raise 3 4 (detailA 1 (e.getI 32 0x3010 6)) else e

/-- R34. -/
def execAxis1Gate (s : State) : Host.Outcome State Fault Refusal := onEngine (whenLive Engine.feedGate) s

/-! The end of a transit (R33, R129, R150) -/

/-- Lines of head h that a stopped transit never fired give deficits of cause 5; those blanked before are recorded already. -/
def Engine.unfired (e : Engine) (f : Flight) (h : Nat) : Engine :=
  let x := e.head h
  let c := e.linesC
  let sent := ((List.range (x.frame - f.line)).map (· + f.line)).filter (fun m => x.echoes.any (fun y => y.line == m && !y.blank))
  let e := e.setHead h { x with echoes := x.echoes.filter (fun y => decide (y.line < f.line)) }
  let e := e.each sent (fun e m => e.lineDeficit f.t h m m 5)
  let from_ := max f.line x.frame
  if from_ < c then e.lineDeficit f.t h from_ (c - 1) 5 else e

/-- Rows of the swath whose last pass transit t printed become one unit per stream of the proof (R104). -/
def Engine.queueProof (e : Engine) (t : Nat) (last : Bool) : Engine :=
  let st := e.get 0x2471 2
  if st ≠ 2 ∧ st ≠ 3 then e
  else
    let (y0, y1) := e.pan.leaving t
    let wid := max 1 (e.get 0x2471 0x0B)
    let n := e.proofCols
    let banks := (List.range 8).filter (fun b => bit (e.get 0x2471 3) b && bit e.pan.banks b)
    let us : List ProofUnit := banks.flatMap (fun b => (List.range n).map (fun c =>
      { stream := b * n + c, bank := b, col := c * wid, width := min wid (e.pan.resW - c * wid), row := y0, rows := y1 - y0, last := last }))
    let us := if y0 < y1 then us else []
    let p := e.sup.proof
    let p := { p with units := p.units ++ us, panelLast := p.panelLast || last }
    if p.units.isEmpty ∧ last then Engine.put { e with sup.proof := {} } 0x2471 2 5 else { e with sup.proof := p }

/-- Axis 0 decelerates from the last FIRE edge and then takes its next launch position, if there is one (R244). -/
def Engine.landAxis (e : Engine) (rev : Bool) (next : Option Int) : Engine :=
  let x := e.axis 0
  if e.get 0x3000 2 ≠ 6 ∨ x.stopNext ∨ x.stopping then e
  else
    let a := max 1 (e.get 0x3005 2)
    let j := e.get 0x3005 4
    let g : Seg := { kind := .down, x0 := e.setPoint 0, x1 := e.lastEdge rev + dirOf rev * (e.rampDistance : Int), v0 := x.v, a := a,
                     j := j, len := rampLen x.v.natAbs a j }
    e.setAxis 0 { x with plan := [], target := none, start := next, seg := some g }

/-- The sweep is over: the filter of encoder input 0 rests (R235), the Stop windows end (R317), blanking for the transit ends. -/
def Engine.clearFlight (e : Engine) : Engine :=
  let e := e.setEnc 0 { e.enc 0 with active := false, m := e.getI 32 0x300F 1 }
  let e := e.putI 32 0x300F 2 (e.getI 32 0x300F 1)
  let e := (e.endWindows (fun w => w == .stop)).closeWindows (fun w => w == .pll && e.pllsLocked)
  { e with pan.flight := none, flt.blankTransit := false, mot.tail := true }

/-- A return sweep ends: a stopped one cuts the panel. -/
def Engine.returnEnd (e : Engine) (f : Flight) : Engine :=
  let e := e.clearFlight
  if f.aborted then (e.landAxis true none).abortNow
  else if f.stopped then e.cutPanel
  else e.landAxis true (some (e.launchPos false))

/-- A panel's last transit has ended: the boundary begins (R46), with hold cause 1 where a reaction met the panel (R312). -/
def Engine.panelEnds (e : Engine) (stopped : Bool) : Engine :=
  if stopped then e.cutPanel
  else
    let held := e.flt.stopHold
    let e : Engine := { e.put 0x2200 2 1 with pan.lastCadence := e.get 0x2202 4, flt.stopHold := false }
    (if held then e.setHold 1 true else e).beginBoundary

/-- TRANSIT_END: the last FIRE edge of a transit, or the stop of one (R33). -/
def Engine.printingEnd (e : Engine) (f : Flight) : Engine :=
  let t := f.t
  let beyond := f.stopped || f.aborted || decide (e.get 0x2202 5 ≤ e.pan.launched)
  let e := if f.stopped then e.each (e.storeHeads.filter (fun h => (e.head h).serving)) (fun e h => e.unfired f h) else e
  let e := e.each e.storeHeads (fun e h =>
    let x := e.head h
    e.setHead h { x with portLine := (x.portLine + (if f.stopped then max f.line x.frame else e.linesC)) % 65536 })
  let e := (e.put 0x2430 8 (max (e.get 0x2430 8) (e.pan.releasedAfter t))).freeDeficits t
  let e := e.each (List.range 128) (fun e h => if e.svc h = 1 ∧ e.get 0x2522 (h + 1) = t then e.enterEclipsed h else e)
  let e := (e.addFires.queueProof t beyond).clearFlight
  let e : Engine := { e with pan.nextT := t + 1, pan.lastEnd := some e.now, pan.returning := !e.pan.bidir && !beyond }
  let e := (e.put 0x2200 0x0A ((t + 1) % 2 ^ 32)).put 0x2200 0x0B (advSum e.pan.resH e.pan.resP (t + 1) % 2 ^ 32)
  if f.aborted then (e.landAxis f.reverse none).abortNow
  else
    let e := if f.stopped then e
      else (e.landAxis f.reverse (some (e.launchPos (e.pan.returning || e.reverseAt (t + 1))))).goTo 1 (e.feedPos (t + 1))
    if beyond then e.panelEnds f.stopped else e

/-- TRANSIT_END. -/
def Engine.transitEnd (e : Engine) : Engine :=
  match e.pan.flight with
  | none => e
  | some f =>
    if f.ret then e.returnEnd f
    else if f.line < e.linesC ∧ !f.stopped then e
    else e.printingEnd f

/-- R129. -/
def execTransitEnd (s : State) : Host.Outcome State Fault Refusal := onEngine (whenLive Engine.transitEnd) s

end Sys2Proof.Machine
end

