-- ==== Sys2Proof/Machine/Restart.lean ====
section
/-! DEFINITION. The resets of the whole engine (R78, R328, R342, R349, R377): what they clear and what outlives them. -/

namespace Sys2Proof.Machine

/-- The causes of 4320h:03h. -/
inductive ResetCause where
  | powerOn | refLoss | conventional | lifecycle
  deriving DecidableEq, Repr

/-- The code of a reset cause. -/
def ResetCause.code : ResetCause → Nat
  | .powerOn => 1 | .refLoss => 2 | .conventional => 3 | .lifecycle => 4

/-- Whether a cause resets through power-on reset, which clears the HV trip latches (R258) and the REF cycle count. -/
def ResetCause.power : ResetCause → Bool
  | .powerOn => true | .refLoss => true | .conventional => false | .lifecycle => false

/-- A digital input after a reset: its level is the pin's, everything else is at reset. -/
def InputState.reset (x : InputState) : InputState := { active := x.active }

/-- The lines of an encoder input after a reset. -/
def Encoder.reset (x : Encoder) : Encoder := { a := x.a, b := x.b }

/-- Map the entries of a store of units. -/
def cellMap {α : Type} [DecidableEq α] (d : α) (f : α → α) (m : List (Nat × α)) : List (Nat × α) :=
  (m.map (fun p => (p.1, f p.2))).filter (fun p => decide (p.2 ≠ d))

/-- The engine at its reset values. What was sent and the free values taken stay on record; pin levels are outside; latched HV
trips outlive what is not a power-on reset (R258). FAULT_L is low from here to Dawn step 4 (R377). -/
def Engine.fresh (old : Engine) (c : ResetCause) (mode : EngineMode) : Engine :=
  { out := old.out, freeIdx := old.freeIdx, now := if c.power then 0 else old.now, mode := mode,
    flt := { faultLPin := false },
    mot := { inputs := cellMap {} InputState.reset old.mot.inputs, encs := cellMap {} Encoder.reset old.mot.encs },
    ctl := { tripped := if c.power then [] else old.ctl.tripped },
    dawn := { stepStart := if c.power then 0 else old.now } }

/-- Step n of Dawn is complete (R377): DAWN_STEP, and its duration in µs. -/
def Engine.endStep (e : Engine) (n : Nat) : Engine :=
  let ts := e.dom 0x4320 2
  let t := toLe 4 ((e.now - e.dawn.stepStart) / refUs)
  let e := (e.put 0x2001 1 n).setDom 0x4320 2 (ts.take (4 * (n - 1)) ++ t ++ ts.drop (4 * n))
  { e with dawn.stepStart := e.now }

/-- DAWN_STEP. -/
def Engine.dawnStep (e : Engine) : Nat := e.get 0x2001 1

/-- Whether step n of Dawn may run: it is the next one. -/
def Engine.atStep (e : Engine) (n : Nat) : Bool := e.mode == .dawn && e.dawnStep + 1 == n

/-- Step 4 is complete once every PLL has locked (R377): FAULT_L is released; a BLANK engine waits on the debug port (R371). -/
def Engine.clocksUp (e : Engine) : Engine :=
  if e.atStep 4 ∧ e.pllsLocked then
    let e := e.endStep 4
    if e.get 0x4300 1 = 0 then { e with mode := .debugWait }
    else { e with flt.faultLPin := !e.flag 0x4100 9 && !e.flt.minimumOn }
  else e

/-- Step 10 (R377): heads are discovered and marking is complete; READY is set and the mailbox accepts requests. -/
def Engine.dawnEnds (e : Engine) : Engine :=
  if e.atStep 10 ∧ e.get 0x4001 5 = 100 then { (e.endStep 10).put 0x2001 2 1 with mode := .running } else e

/-- What non-volatile and AON counters read after a reset (R328, R342, R379), and the state of HV channels whose trip is
latched. -/
def Engine.showCounters (e : Engine) (n : NonVol) : Engine :=
  let e := ((e.put 0x4320 1 n.dawns).put 0x4280 9 n.refLosses).put 0x4202 0x0A n.railResets
  e.each [0, 1, 2, 3] (fun e c => if e.hvTripped c then e.put (0x3200 + c) 6 2 else e)

/-- Dawn begins (R377): the engine is at its reset values; queued commands stay queued. -/
def restart (s : State) (c : ResetCause) : State :=
  let n : NonVol := { s.nv with dawns := satAdd 32 s.nv.dawns 1 }
  { s with nv := n, e := (((s.e.fresh c .dawn).showCounters n).put 0x4320 3 c.code).put 0x2001 1 1 }

/-- Power-on reset is asserted and held (R328, R349): for VIN, for REF, or for both. -/
def holdReset (s : State) (vinLow refHold : Bool) : State :=
  { s with e := { s.e.fresh .powerOn .powerOnReset with pwr.vinLow := vinLow, pwr.refHold := refHold } }

/-- R78: a conventional reset resets the whole engine and begins Dawn. -/
def execConventionalReset (s : State) : Host.Outcome State Fault Refusal :=
  .next (if s.e.live then restart s .conventional else s)

end Sys2Proof.Machine
end

