-- ==== Sys2Proof/Machine/Clocks.lean ====
section
/-! DEFINITION. Clocks and PLLs (R327-R338). -/

namespace Sys2Proof.Machine

/-! Loss, bypass and relock -/

/-- PLL-B leaves state 2: every RET receiver is suspended and remembers its state (R185). -/
def Engine.suspendReceivers (e : Engine) : Engine :=
  e.each (List.range 128) (fun e h =>
    let x := e.head h
    let st := e.get (headIdx h) 1
    (e.setHead h { x with suspended := if x.suspended = 0 then st + 1 else x.suspended }).put (headIdx h) 1 3)

/-- After relock the receivers that were up realign, the others are as they were (R185). -/
def Engine.realignReceivers (e : Engine) : Engine :=
  e.each (List.range 128) (fun e h =>
    let x := e.head h
    if x.suspended = 0 then e
    else if x.suspended = 3 then e.put (headIdx h) 1 1
    else (e.setHead h { x with suspended := 0 }).put (headIdx h) 1 (x.suspended - 1))

/-- A reset of the output dividers that is armed on PLL x is abandoned (R338). -/
def Engine.syncAbandon (e : Engine) (x : Nat) : Engine :=
  if e.get 0x4280 7 = 1 ∧ bit (e.get 0x4280 8) x then e.put 0x4280 7 0 else e

/-- The outputs of PLL x switch to REF (R334): MEM self-refreshes, HEAD stops and its receivers are suspended, and a transit in
flight gets no more frames (R179). -/
def Engine.toRef (e : Engine) (x : Nat) : Engine :=
  let e := ((e.setBypass x true).bump 0x4280 3 1).syncAbandon x
  if x = 0 then e.refreshSr
  else if x = 1 then
    let e := e.suspendReceivers
    match e.pan.flight with
    | some f => if f.ret then e else { e with pan.flight := some { f with noFrames := true } }
    | none => e
  else e

/-- A PLL is lost: state, count, bypass and message (R334). Cause 1 is lock, 2 the reference. -/
def Engine.pllLost (e : Engine) (x cause : Nat) : Engine :=
  let e := ((e.put (pllIdx x) 1 (2 + cause)).bump (pllIdx x) (5 + cause) 1).setPll x
    { e.pll x with searching := false, declared := false }
  (e.toRef x).raise 0x0C 1 (4 * cause + x)

/-- PLL_LOSS_OF_LOCK. -/
def Engine.lossOfLock (e : Engine) (x : Nat) : Engine := if e.get (pllIdx x) 1 = 2 then e.pllLost x 1 else e

/-- R334. -/
def execPllLossOfLock (x : Fin 3) (s : State) : Host.Outcome State Fault Refusal :=
  onEngine (whenLive (fun e => e.lossOfLock x.val)) s

/-- PLL_LOSS_OF_REFERENCE: of a PLL that takes CLK_IN. One that is searching passes to state 4 as well (R338). -/
def Engine.lossOfReference (e : Engine) (x : Nat) : Engine :=
  let st := e.get (pllIdx x) 1
  if (e.pll x).clkIn ∧ 1 ≤ st ∧ st ≤ 3 then (e.put 0x4280 5 2).pllLost x 2 else e

/-- R334. -/
def execPllLossOfReference (x : Fin 3) (s : State) : Host.Outcome State Fault Refusal :=
  onEngine (whenLive (fun e => e.lossOfReference x.val)) s

/-- R335: 1 µs after a loss of lock the PLL begins a new lock. -/
def execPllRelockStart (x : Fin 3) (s : State) : Host.Outcome State Fault Refusal :=
  onEngine (whenLive (fun e => if e.get (pllIdx x.val) 1 = 3 then e.pllSearch x.val else e)) s

/-- CLK_IN_GOOD: CLK_IN has stayed within tolerance for 1 ms. -/
def Engine.clkInBack (e : Engine) (x : Nat) : Engine :=
  if e.get 0x4280 4 = 0 then e
  else
    let e := e.put 0x4280 5 1
    if e.get (pllIdx x) 1 = 4 then e.pllSearch x else e

/-- R335. -/
def execClkInGood (x : Fin 3) (s : State) : Host.Outcome State Fault Refusal :=
  onEngine (whenLive (fun e => e.clkInBack x.val)) s

/-! Locking (R331) -/

/-- PLL_LOCK_DECLARED: 1,024 cycles within the lock window, in `band`, `us` after the start of the search. -/
def Engine.lockDeclared (e : Engine) (x band us : Nat) : Engine :=
  let p := e.pll x
  if e.get (pllIdx x) 1 = 1 ∧ p.searching then
    ((e.setPll x { p with searching := false, declared := true }).put (pllIdx x) 5 band).put (pllIdx x) 0x13 us
  else e

/-- R331. -/
def execPllLockDeclared (x : Fin 3) (band : Fin 64) (us : BitVec 16) (s : State) : Host.Outcome State Fault Refusal :=
  onEngine (whenLive (fun e => e.lockDeclared x.val band.val us.toNat)) s

/-- PLL_LOCK_CONFIRMED: the outputs switch back together; MEM leaves self-refresh, receivers realign, hold cause 6 follows, and
with the last PLL the shadow window of the loss ends, no transit being in flight (R317). -/
def Engine.lockConfirmed (e : Engine) (x : Nat) : Engine :=
  let p := e.pll x
  if e.get (pllIdx x) 1 = 1 ∧ p.declared then
    let e := ((e.setPll x { p with declared := false }).put (pllIdx x) 1 2).setBypass x false
    let e := if x = 0 then e.refreshSr else if x = 1 then e.realignReceivers else e
    let e := if e.pllsLocked ∧ e.pan.flight.isNone then e.closeWindows (fun w => w == .pll) else e
    e.evalHolds.clocksUp
  else e

/-- R335. -/
def execPllLockConfirmed (x : Fin 3) (s : State) : Host.Outcome State Fault Refusal :=
  onEngine (whenLive (fun e => e.lockConfirmed x.val)) s

/-- PLL_ATTEMPT_FAILED: 500 µs without lock; counted. -/
def Engine.attemptFailed (e : Engine) (x : Nat) : Engine :=
  let p := e.pll x
  if e.get (pllIdx x) 1 = 1 ∧ p.searching then
    (e.setPll x { p with searching := false }).bump (pllIdx x) 8 1
  else e

/-- R331. -/
def execPllAttemptFailed (x : Fin 3) (s : State) : Host.Outcome State Fault Refusal :=
  onEngine (whenLive (fun e => e.attemptFailed x.val)) s

/-- PLL_RETRY_TIMER: a new attempt, 10 ms after one has failed. -/
def Engine.retryLock (e : Engine) (x : Nat) : Engine :=
  let p := e.pll x
  if e.get (pllIdx x) 1 = 1 ∧ !p.searching ∧ !p.declared then e.setPll x { p with searching := true } else e

/-- R331. -/
def execPllRetryTimer (x : Fin 3) (s : State) : Host.Outcome State Fault Refusal :=
  onEngine (whenLive (fun e => e.retryLock x.val)) s

/-! Commands (R330, R332, R333, R337) -/

/-- Twice f_PFD in kHz for the source and scaling written to PLL x. -/
def Engine.twicePfd (e : Engine) (x : Nat) : Nat :=
  let r := if e.get (pllIdx x) 2 = 0 then 50000 else e.get 0x4280 4
  r * (match e.get (pllIdx x) 3 with | 0 => 2 | 1 => 4 | _ => 1)

/-- R330: f_PFD within 20–100 MHz and N a whole number. -/
def Engine.pfdValid (e : Engine) (x : Nat) : Bool :=
  let f := e.twicePfd x
  decide (40000 ≤ f ∧ f ≤ 200000) && 9600000 % f == 0

/-- PLL_RELOCK: job Idle and engine Awake, a valid setting, CLK_IN only where a frequency is declared. It raises no fault. -/
def Engine.relock (e : Engine) (x : Nat) : Engine :=
  if e.jobState ≠ 0 ∨ e.idle ≠ 0 then e.refuse abState
  else if !e.pfdValid x then e.refuse abValue
  else
    let n := 9600000 / e.twicePfd x
    let clk := e.get (pllIdx x) 2 == 1
    let e := (e.put (pllIdx x) 4 n).setPll x { e.pll x with clkIn := clk }
    ((e.toRef x).pllSearch x).done

/-- R337. -/
def execPllRelock (x : Fin 3) (s : State) : Host.Outcome State Fault Refusal :=
  onEngine (request 0x4281 (fun e => e.relock x.val)) s

/-- PLL_DELAY_WRITE: 0–63 steps, in Idle only. -/
def Engine.delayWrite (e : Engine) (x o v : Nat) : Engine :=
  if e.jobState ≠ 0 then e.refuse abState
  else if 63 < v then e.refuse abValue
  else (e.put (pllIdx x) (0x0D + o) v).done

/-- R332. -/
def execPllDelayWrite (x : Fin 3) (o : Fin 3) (v : Byte) (s : State) : Host.Outcome State Fault Refusal :=
  onEngine (request 0x4281 (fun e => e.delayWrite x.val o.val v.toNat)) s

/-- SYNC_ARM: job Idle and every selected PLL in state 2. -/
def Engine.armSync (e : Engine) : Engine :=
  if e.jobState = 0 ∧ [0, 1, 2].all (fun x => !bit (e.get 0x4280 8) x || e.get (pllIdx x) 1 == 2) then (e.put 0x4280 7 1).done
  else e.refuse abState

/-- R333. -/
def execSyncArm (s : State) : Host.Outcome State Fault Refusal := onEngine (request 0x4280 Engine.armSync) s

/-- R333: the first rising edge of SYNC_IN after the arm restarts the dividers of the selected PLLs. -/
def execSyncInEdge (s : State) : Host.Outcome State Fault Refusal :=
  onEngine (whenLive (fun e => if e.get 0x4280 7 = 1 then e.put 0x4280 7 2 else e)) s

/-! The REF monitor (R328) -/

/-- REF cycles of a window of 32 AON cycles that are in range. -/
def refInRange (count : Nat) : Bool := decide (45000 ≤ count ∧ count ≤ 52500)

/-- REF_MONITOR_WINDOW: a window count. Two in a row out of range are a loss of REF, which holds power-on reset until a count is in
range again; Dawn follows. In thermal shutdown and where Dawn has failed, only VIN below 6.5 V acts (R358, R377). -/
def refWindow (count : Nat) (s : State) : State :=
  let e := s.e
  match e.mode with
  | .powerOnReset =>
    if e.pwr.refHold ∧ refInRange count then
      if e.pwr.vinLow then { s with e := { e with pwr.refHold := false } } else restart s .refLoss
    else s
  | .held _ => s
  | .shutdown => s
  | _ =>
    let e := e.put 0x4280 1 (count % 2 ^ 32)
    if refInRange count then { s with e := { e with pwr.refBad := 0 } }
    else if e.pwr.refBad = 0 then { s with e := { e with pwr.refBad := 1 } }
    else holdReset { s with nv := { s.nv with refLosses := satAdd 16 s.nv.refLosses 1 }, e := e } false true

/-- R328. -/
def execRefMonitorWindow (count : Nat) (s : State) : Host.Outcome State Fault Refusal := .next (refWindow count s)

end Sys2Proof.Machine
end

