-- ==== Sys2Proof/Machine/Memory.lean ====
section
/-! DEFINITION. The DRAM controller (R266-R291): the address map, reads that fail, retraining, sparing, loss of a channel, marking,
refresh, the bandwidth monitor and the patrol (R304). -/

namespace Sys2Proof.Machine

/-- Index of channel ch's entries. -/
def chanIdx (ch : Nat) : Nat := 0x4010 + ch

/-! The address map (R272, R273) -/

/-- The hash of a group number: its base-4 digits under exclusive or. -/
def foldHash : Nat → Nat → Nat
  | 0, _ => 0
  | n + 1, x => (x % 4) ^^^ foldHash n (x / 4)

/-- Which of n channels chunk i of group q falls on. -/
def Dram.lane (m : Dram) (n q i : Nat) : Nat :=
  let h := foldHash 32 (q &&& m.seed)
  if n = 3 then (i + h) % 3 else i ^^^ (h &&& (n - 1))

/-- Channel and channel-local address of an engine address. -/
def Dram.place (m : Dram) (a : Nat) : Nat × Nat :=
  let n := max 1 m.active.length
  let c := a / 2 ^ m.grain
  (m.active.getD (m.lane n (c / n) (c % n)) 0, c / n * 2 ^ m.grain + a % 2 ^ m.grain)

/-- The engine address at a channel-local address of a channel in service: the chunk of its group that falls there. -/
def Dram.unplace (m : Dram) (ch a : Nat) : Option Nat :=
  let n := max 1 m.active.length
  let q := a / 2 ^ m.grain
  (firstIdx (fun i => m.active.getD (m.lane n q i) 4 == ch) (List.range n)).map (fun i => (q * n + i) * 2 ^ m.grain + a % 2 ^ m.grain)

/-- Column bits. -/
def Dram.colBits (m : Dram) : Nat := if m.width = 4 then 7 else 6

/-- The physical rank of a channel-local address. -/
def Engine.rankAt (e : Engine) (ch a : Nat) : Nat := (e.chan ch).lrank.getD (a / e.mem.rsize) 0

/-- Bank (group × 4 + bank) and row within a rank. -/
def Dram.bankRow (m : Dram) (a : Nat) : Nat × Nat :=
  let o := a % m.rsize
  let row := o / 2 ^ (12 + m.colBits)
  ((((o / 2 ^ (7 + m.colBits)) % 8) ^^^ (row % 8)) * 4 + (((o / 2 ^ (10 + m.colBits)) % 4) ^^^ (row / 8 % 4)), row)

/-! What the controller publishes -/

/-- Whether channel ch migrates a rank. -/
def Engine.migrating (e : Engine) (ch : Nat) : Bool := e.get (chanIdx ch) 0x0C == 1 || e.get (chanIdx ch) 0x0C == 2

/-- Capacities, channels in service and usable bandwidth (R267, R289). -/
def Engine.publishDram (e : Engine) : Engine :=
  let m := e.mem
  let e := (e.put 0x4001 2 (popcount 4 m.fitted * m.ranks * m.rsize)).put 0x4001 3 m.usable
  let e := e.put 0x4001 4 ((m.active.map (fun c => 2 ^ c)).foldl (· + ·) 0)
  e.put 0x4001 6 (m.active.length * 40960 - (if [0, 1, 2, 3].any e.migrating then e.get 0x4002 7 else 0))

/-- Set or clear a bit of 4001h:09h. -/
def Engine.setCondition (e : Engine) (i : Nat) (on : Bool) : Engine := e.put 0x4001 9 (setBit (e.get 0x4001 9) i on)

/-! Loss of a channel (R283) -/

/-- Steps 2 to 5: every line is marked UNWRITTEN, contexts, proof and traces end, the store is cleared and the fire-count table
rebuilt, the frontier of every bank becomes y_res. -/
def Engine.reformMap (e : Engine) : Engine :=
  let e := (((e.dramMark.put 0x4001 1 4).put 0x4001 5 0)).publishDram
  let open_ := (List.range 256).filter (fun c => e.ctxState c != 0)
  let e := e.each open_ (fun e c =>
    let r := e.get (ctxIdx c) 0x0E
    (e.abortCtx c).contextRecord c 0 0 r)
  let st := e.get 0x2471 2
  let e := if 1 ≤ st ∧ st ≤ 3 then Engine.put { e with sup.proof := {} } 0x2471 2 6 else e
  let e := e.each [0, 1, 2, 3] (fun e u => e.traceEnd u 4)
  let e : Engine := { e with sup.encodeQ := [], sup.bad := [] }
  let e := if e.jobState = 0 then e else
    let row := 64 * e.get 0x2430 8
    let fr : List Span := if row = 0 then [] else [{ x := 0, n := e.pan.resW, row := row }]
    let e := e.put 0x2430 9 1
    { e with sup.frontier := e.pan.bankList.foldl (fun m b => cellSet (fun _ => []) m b fr) [] }
  let e := if e.get 0x3460 2 = 0 ∨ !e.inDram (e.get 0x3460 2) 0x100000 then e else e.readCounts
  e.publishFrontier

/-- CHANNEL_OUT_OF_SERVICE: the last channel raises a Halt, another one a Stop; the job's hold causes follow. -/
def Engine.channelOut (e : Engine) (ch : Nat) : Engine :=
  let i := chanIdx ch
  if e.get i 1 = 0 ∨ e.get i 1 = 4 then e
  else
    let e := (e.put i 1 4).put i 0x0C 0
    let e := (e.setChan ch { e.chan ch with up := false, migrating := none }).setCondition 0
      ([0, 1, 2, 3].any (fun c => c != ch && e.get (chanIdx c) 1 == 2))
    let e := e.raise 9 (if e.mem.active = [] then 0x0B else 1) (detailM ch 0 0)
    (e.reformMap).evalHolds

/-! Rank sparing (R284-R286) -/

/-- RANK_MIGRATION_START: a trigger on a rank; without a spare, or with a migration running, the channel goes out of service. -/
def Engine.migrate (e : Engine) (ch rank cause addr : Nat) : Engine :=
  let i := chanIdx ch
  if !(e.chan ch).up then e
  else if e.migrating ch ∨ e.get i 0x0A = 0xff then e.channelOut ch
  else
    let st := if e.get 0x4001 1 = 2 ∨ e.get 0x4001 1 = 3 then 2 else 1
    let e := [(0x0C, st), (0x0D, 0), (0x0E, cause), (0x0F, addr), (1, 3)].foldl (fun e (x : Nat × Nat) => e.put i x.1 x.2) e
    (e.setChan ch { e.chan ch with migrating := some rank }).publishDram.raise 9 5 (detailM ch rank addr)

/-- An uncorrectable line (R268): counted, and unreadable from here on; it triggers a migration unless its rank already migrates. -/
def Engine.uncorrectable (e : Engine) (ch rank addr : Nat) : Engine :=
  let e := (e.bump (chanIdx ch) 5 1).put (chanIdx ch) 0x0F addr
  let e : Engine := { e with mem.bad := cellSet (fun _ => false) e.mem.bad (addr / 64) true }
  if e.migrating ch ∧ (e.chan ch).migrating = some rank then e else e.migrate ch rank 1 addr

/-- A corrected line counts toward the threshold of its rank within one hour (R284). -/
def Engine.correctedLine (e : Engine) (ch rank addr : Nat) : Engine :=
  let x := e.chan ch
  let hour := e.now / 180000000000
  let corr := if x.hour = hour then x.corr else []
  let n := cellGet (fun _ => 0) corr rank + 1
  let e := e.setChan ch { x with hour := hour, corr := cellSet (fun _ => 0) corr rank n }
  if e.get 0x4002 8 ≠ 0 ∧ n = e.get 0x4002 8 ∧ !e.migrating ch then e.migrate ch rank 3 addr else e

/-- The bank of a line keeps its row open after the access, unless the idle time is 0 (R279). -/
def Engine.touchRow (e : Engine) (ch rank a : Nat) : Engine :=
  let x := e.chan ch
  let (bank, row) := e.mem.bankRow a
  let k := rank * 32 + bank
  e.setChan ch { x with openRows := if e.get 0x4002 1 = 0 then cellErase k x.openRows
                                    else cellSet (fun _ => 0) x.openRows k (row + 1) }

/-- DRAM_READ_COMPLETE: one line. `lat`: ns of a class-0 read, or 0. -/
def Engine.readDone (e : Engine) (addr : Nat) (o : ReadOutcome) (lat : Nat) : Engine :=
  if !e.dramServing ∨ !e.inDram (addr / 64 * 64) 64 then e
  else
    let (ch, a) := e.mem.place addr
    let rank := e.rankAt ch a
    let e := e.touchRow ch rank a
    let e := if 0 < lat then e.put 0x4001 7 (max (e.get 0x4001 7) (lat % 2 ^ 32)) else e
    let e := if 1500 < lat then
        let e := e.bump 0x4001 8 1
        if e.mem.lateSeen then e else Engine.raise { e with mem.lateSeen := true } 9 7 (addr % 2 ^ 38)
      else e
    match o with
    | .clean => e
    | .corrected => (e.bump (chanIdx ch) 4 1).correctedLine ch rank addr
    | .marker => e.bump 0x4001 0x0C 1
    | .uncorrectable => e.uncorrectable ch rank addr

/-- R268. -/
def execDramReadComplete (addr : Nat) (outcome : ReadOutcome) (class0ns : Nat) (s : State) : Host.Outcome State Fault Refusal :=
  onEngine (whenLive (fun e => e.readDone addr outcome class0ns)) s

/-- DRAM_ALERT: the commands are retried; a rank that alerts again is migrated. -/
def Engine.alert (e : Engine) (ch rank : Nat) (again : Bool) : Engine :=
  if !(e.chan ch).up then e
  else
    let e := e.bump (chanIdx ch) 6 1
    if again ∧ !(e.migrating ch ∧ (e.chan ch).migrating = some rank) then e.migrate ch rank 2 0 else e

/-- R284. -/
def execDramAlert (ch : Fin 4) (rank : Fin 4) (again : Bool) (s : State) : Host.Outcome State Fault Refusal :=
  onEngine (whenLive (fun e => e.alert ch.val rank.val again)) s

/-- MIGRATE_COMMAND: the rank of 401ch:11h, which has to be in service. -/
def Engine.migrateNow (e : Engine) (ch : Nat) : Engine :=
  let i := chanIdx ch
  let r := e.get i 0x11
  if !(e.chan ch).up ∨ e.migrating ch ∨ e.get i 0x0A = 0xff then e.refuse abState
  else if !(e.chan ch).lrank.contains r then e.refuse abValue
  else (e.migrate ch r 4 0).done

/-- R284. -/
def execMigrateCommand (ch : Fin 4) (s : State) : Host.Outcome State Fault Refusal :=
  onEngine (request 0x4010 (fun e => e.migrateNow ch.val)) s

/-- MIGRATION_SWITCH_OVER (R286). -/
def Engine.switchOver (e : Engine) (ch rank : Nat) : Engine :=
  let i := chanIdx ch
  let x := e.chan ch
  let spare := e.get i 0x0A
  let e := e.setChan ch { x with lrank := x.lrank.map (fun k => if k = rank then spare else k), migrating := none }
  let e := [(0x0B, rank), (0x0A, 0xff), (0x0C, 3), (1, 1)].foldl (fun e (y : Nat × Nat) => e.put i y.1 y.2) e
  e.publishDram.raise 9 6 (detailM ch rank 0)

/-- MIGRATION_LINE_COPY (R285): the line at P goes to the spare; an unreadable one becomes BAD there. -/
def Engine.copyLine (e : Engine) (ch : Nat) (o : ReadOutcome) : Engine :=
  let i := chanIdx ch
  match (e.chan ch).migrating with
  | none => e
  | some rank =>
    if e.get i 0x0C ≠ 1 ∨ !(e.get 0x4001 1 = 1) then e
    else
      let p := e.get i 0x0D
      let k := ((firstIdx (fun k => (e.chan ch).lrank.getD k 9 == rank) [0, 1, 2, 3]).getD 0) * e.mem.rsize + p
      let e := match o with
        | .corrected => e.bump i 4 1
        | .uncorrectable =>
          let e := (e.bump i 5 1)
          (match e.mem.unplace ch k with
            | some a => { e with mem.bad := cellSet (fun _ => false) e.mem.bad (a / 64) true }
            | none => e)
        | .marker => e
        | .clean => e
      let e := e.put i 0x0D (p + 64)
      if e.mem.rsize ≤ p + 64 then e.switchOver ch rank else e

/-- R285. -/
def execMigrationLineCopy (ch : Fin 4) (outcome : ReadOutcome) (s : State) : Host.Outcome State Fault Refusal :=
  onEngine (whenLive (fun e => e.copyLine ch.val outcome)) s

/-! Retraining (R281, R282) -/

/-- A channel begins to retrain. -/
def Engine.beginRetrain (e : Engine) (ch : Nat) : Engine := (e.put (chanIdx ch) 1 2).setCondition 0 true

/-- Whether a retrain may begin: no other channel retrains, this one is active and does not migrate. -/
def Engine.mayRetrain (e : Engine) (ch : Nat) : Bool :=
  e.get (chanIdx ch) 1 == 1 && [0, 1, 2, 3].all (fun c => e.get (chanIdx c) 1 != 2) && e.get 0x4001 1 == 1

/-- RETRAIN: in Idle or Held, or once in a turnaround. -/
def Engine.retrainDue (e : Engine) (ch : Nat) : Engine :=
  let rests := e.jobState == 0 || e.jobState == 3
  if !e.mayRetrain ch ∨ (!rests ∧ (e.pan.flight.isSome ∨ e.mem.turnaroundRetrained)) then e
  else
    let e := e.beginRetrain ch
    if rests then e else { e with mem.turnaroundRetrained := true }

/-- R281. -/
def execRetrain (ch : Fin 4) (s : State) : Host.Outcome State Fault Refusal :=
  onEngine (whenLive (fun e => e.retrainDue ch.val)) s

/-- RETRAIN_COMMAND: in Idle or Held only. -/
def Engine.retrainNow (e : Engine) (ch : Nat) : Engine :=
  if !(e.jobState = 0 ∨ e.jobState = 3) ∨ !e.mayRetrain ch then e.refuse abState else (e.beginRetrain ch).done

/-- R291. -/
def execRetrainCommand (ch : Fin 4) (s : State) : Host.Outcome State Fault Refusal :=
  onEngine (request 0x4010 (fun e => e.retrainNow ch.val)) s

/-- RETRAIN_COMPLETE. -/
def Engine.retrainDone (e : Engine) (ch : Nat) (o : RetrainOutcome) : Engine :=
  let i := chanIdx ch
  if e.get i 1 ≠ 2 then e
  else
    match o with
    | .failed => e.channelOut ch
    | .newSetting =>
      let e := (((e.put i 1 1).setCondition 0 false).wrap i 7 1).put i 9 e.now
      e.setChan ch { e.chan ch with retryDue := false, trainedTemp := e.getI 16 0x4211 1 }
    | .fallback =>
      let e := (((e.put i 1 1).setCondition 0 false).wrap i 7 1).bump i 8 1
      (e.setChan ch { e.chan ch with retryDue := true }).raise 9 2 (detailM ch 0 0)

/-- R282. -/
def execRetrainComplete (ch : Fin 4) (outcome : RetrainOutcome) (s : State) : Host.Outcome State Fault Refusal :=
  onEngine (whenLive (fun e => e.retrainDone ch.val outcome)) s

/-! Marking, refresh, pages (R278, R279, R287) -/

/-- MARKING_COMPLETE: requests are served from here on, unless self-refresh is demanded. -/
def Engine.marked (e : Engine) : Engine :=
  let st := e.get 0x4001 1
  if (st = 0 ∧ e.mem.trained) ∨ st = 4 then ((((e.put 0x4001 1 1).put 0x4001 5 100).refreshSr).evalHolds).dawnEnds else e

/-- R287. -/
def execMarkingComplete (s : State) : Host.Outcome State Fault Refusal := onEngine (whenLive Engine.marked) s

/-- The rows of a bank index in all bank groups of a rank are closed. -/
def Channel.closeIndex (x : Channel) (rank bank : Nat) : Channel :=
  { x with openRows := x.openRows.filter (fun p => !(p.1 / 32 == rank && p.1 % 4 == bank)) }

/-- What the devices' temperature status asks for (R278): over double rate sets bit 2 of 4001h:09h and raises a Warning. -/
def Engine.refreshRate (e : Engine) (ch rate : Nat) : Engine :=
  let was := e.get (chanIdx ch) 0x12
  let e := e.put (chanIdx ch) 0x12 rate
  let e := e.setCondition 2 ([0, 1, 2, 3].any (fun c => e.get (chanIdx c) 0x12 == 4))
  if rate = 4 ∧ was ≠ 4 then e.raise 9 8 (detailM ch 0 0) else e

/-- REFRESH_DUE: issued when the bank index is idle, postponed by at most 4 intervals, then issued with its rows closed. -/
def Engine.refresh (e : Engine) (ch rank bank : Nat) (idle : Bool) (rate : Nat) : Engine :=
  if !(e.chan ch).up ∨ !(e.get 0x4001 1 = 1) then e
  else
    let e := e.refreshRate ch rate
    let x := e.chan ch
    let k := rank * 4 + bank
    let n := cellGet (fun _ => 0) x.postponed k
    if !idle ∧ n < 4 then e.setChan ch { x with postponed := cellSet (fun _ => 0) x.postponed k (n + 1) }
    else e.setChan ch { x.closeIndex rank bank with postponed := cellSet (fun _ => 0) x.postponed k 0 }

/-- R278. -/
def execRefreshDue (ch : Fin 4) (rank : Fin 4) (bank : Fin 4) (idle : Bool) (rate : Fin 3) (s : State) :
    Host.Outcome State Fault Refusal :=
  onEngine (whenLive (fun e => e.refresh ch.val rank.val bank.val idle (2 ^ rate.val))) s

/-- PAGE_IDLE_TIMEOUT (R279). -/
def Engine.pageIdle (e : Engine) (ch rank bank : Nat) : Engine :=
  let x := e.chan ch
  e.setChan ch { x with openRows := cellErase (rank * 32 + bank) x.openRows }

/-- R279. -/
def execPageIdleTimeout (ch : Fin 4) (rank : Fin 4) (bank : Fin 32) (s : State) : Host.Outcome State Fault Refusal :=
  onEngine (whenLive (fun e => e.pageIdle ch.val rank.val bank.val)) s

/-! The bandwidth monitor (R276, R289) -/

/-- Imbalance in ‰: the largest channel's share over the mean share. -/
def imbalanceOf (shares : List Nat) : Nat := shares.foldl max 0 * 1000 * shares.length / max 1 (shares.foldl (· + ·) 0)

/-- BANDWIDTH_WINDOW: the bytes of the last millisecond by channel. Without traffic the imbalance is open (log entry 2, DESIGN CHOICE). -/
def Engine.bandwidth (e : Engine) (rd wr class0 : List Nat) : Engine :=
  let e := e.each [0, 1, 2, 3] (fun e c => (e.wrap (chanIdx c) 2 (rd.getD c 0)).wrap (chanIdx c) 3 (wr.getD c 0))
  let shares := e.mem.active.map (fun c => rd.getD c 0 + wr.getD c 0)
  let none_ := shares.foldl (· + ·) 0 == 0
  let imb := if none_ then e.freeVal.toNat % 65536 else min 65535 (imbalanceOf shares)
  let e := if none_ then e.useFree else e
  let e := (e.put 0x4001 0x0A imb).publishDram
  let e := e.setCondition 1 (e.mem.active.any (fun c => decide (20480000 < class0.getD c 0)))
  let beyond := decide (e.get 0x4002 9 < imb)
  let ms := if beyond then e.mem.imbalanceMs + 1 else 0
  let due := beyond && !e.mem.imbalanceRaised && decide (1000 * e.get 0x4002 0x0A ≤ ms)
  let e : Engine := { e with mem.imbalanceMs := ms, mem.imbalanceRaised := beyond && (e.mem.imbalanceRaised || due) }
  if due then e.raise 9 9 imb else e

/-- R289. -/
def execBandwidthWindow (rd wr class0 : List Nat) (s : State) : Host.Outcome State Fault Refusal :=
  onEngine (whenLive (fun e => e.bandwidth rd wr class0)) s

/-! The patrol (R304) -/

/-- PATROL_LINE: paused in self-refresh and on a channel that retrains. -/
def Engine.patrol (e : Engine) (addr : Nat) (o : ReadOutcome) : Engine :=
  let (ch, a) := e.mem.place addr
  if e.get 0x4020 2 = 0 ∨ !e.dramServing ∨ !e.inDram (addr / 64 * 64) 64 ∨ e.get (chanIdx ch) 1 = 2 then e
  else
    let rank := e.rankAt ch a
    let e := e.put 0x4020 3 addr
    match o with
    | .clean => e
    | .marker => e
    | .corrected => (e.bump 0x4020 4 1).correctedLine ch rank addr
    | .uncorrectable => e.uncorrectable ch rank addr

/-- R304. -/
def execPatrolLine (addr : Nat) (outcome : ReadOutcome) (s : State) : Host.Outcome State Fault Refusal :=
  onEngine (whenLive (fun e => e.patrol addr outcome)) s

end Sys2Proof.Machine
end

