-- ==== Sys2Proof/Machine/Integrity.lean ====
section
/-! DEFINITION. On-chip integrity (R292-R303): the scrubber, hard words, remap records. -/

namespace Sys2Proof.Machine

/-- Poison in a word takes effect where the word is consumed (R155, R175, R300, R301). -/
def Engine.poison (e : Engine) (x : Holding) : Engine :=
  let on (m : List (Nat × Bool)) (k : Nat) : List (Nat × Bool) := cellSet (fun _ => false) m k true
  match x with
  | .other => e
  | .working i => { e with img.poisonW := on e.img.poisonW i }
  | .staging i => { e with img.poisonS := on e.img.poisonS i }
  | .plan b y =>
    { e with img.plans := cellSet (fun _ => {}) e.img.plans (planKey b y) { e.plan b y with poisoned := true } }
  | .deficits b => { e with img.poisonB := on e.img.poisonB b }
  | .mask m c => { e with img.poisonM := on e.img.poisonM (m * 65536 + c) }
  | .driveMap b i => { e with img.poisonD := on e.img.poisonD (b * 256 + i) }
  | .fireCount i => { e with care.poisonF := on e.care.poisonF i }
  | .logEntry i =>
    match e.flt.log[i]? with
    | some y => e.onEntry y.seq (fun z => { z with lost := true })
    | none => e

/-- Remap entries of group g. -/
def Engine.remapped (e : Engine) (g : Nat) : List (Nat × Nat) := e.integ.remap.filter (fun p => p.1 / 16 == g)

/-- Publish 4030h + g:05h and :06h. -/
def Engine.publishRemap (e : Engine) (g : Nat) : Engine :=
  (e.put (0x4030 + g) 5 (e.remapped g).length).setDom (0x4030 + g) 6
    ((List.range 16).flatMap (fun i => toLe 4 (cellGet (fun _ => 0) e.integ.remap (16 * g + i))))

/-- HARD_WORD_REMAP (R298): the lowest free entry takes the word; without one a Warning names it, once per word. -/
def Engine.remap (e : Engine) (g word : Nat) : Engine :=
  let free := firstIdx (fun i => (cellFind (16 * g + i) e.integ.remap).isNone) (List.range 16)
  let there := (e.remapped g).any (fun p => p.2 == 2 ^ 31 + word)
  match free, there with
  | some i, false =>
    let e : Engine := { e with integ.remap := cellSet (fun _ => 0) e.integ.remap (16 * g + i) (2 ^ 31 + word),
                               integ.flashDue := e.integ.flashDue ++ [16 * g + i] }
    (e.publishRemap g).raise 0x0A 1 (detailG g word)
  | _, _ =>
    let k := g * 2 ^ 31 + word
    if cellGet (fun _ => false) e.integ.warned k then e
    else Engine.raise { e with integ.warned := cellSet (fun _ => false) e.integ.warned k true } 0x0A 2 (detailG g word)

/-- Enter a finding in the suspect list of group g: the first finding makes the word a suspect, a later one is an error after
rewrite; a full list drops its oldest. -/
def suspectAdd (word : Nat) (bad : Bool) (ss : List Suspect) : List Suspect × Suspect :=
  match ss.find? (fun s => s.word == word) with
  | some s =>
    let s := { s with errors := s.errors + 1, uncorr := s.uncorr + ofBool bad }
    (ss.map (fun t => if t.word = word then s else t), s)
  | none =>
    let s : Suspect := { word := word, uncorr := ofBool bad }
    ((if 32 ≤ ss.length then ss.tail else ss) ++ [s], s)

/-- A finding of the scrubber: the word becomes hard at the threshold or at its second uncorrectable error (R298). -/
def Engine.suspect (e : Engine) (g word : Nat) (bad : Bool) : Engine :=
  let (ss, s) := suspectAdd word bad (cellGet (fun _ => []) e.integ.suspects g)
  let e : Engine := { e with integ.suspects := cellSet (fun _ => []) e.integ.suspects g ss }
  if e.get 0x4020 7 ≤ s.errors ∨ 2 ≤ s.uncorr then
    let e : Engine := { e with integ.suspects := cellSet (fun _ => []) e.integ.suspects g (ss.filter (fun t => t.word != word)) }
    e.remap g word
  else e

/-- SCRUB_WORD (R303). A word that holds the poison pattern already (`marker`) is left; a pass is complete when the scrubber
comes back to a word no higher than the one before. -/
def Engine.scrub (e : Engine) (g word : Nat) (o : ReadOutcome) : Engine :=
  let i := 0x4030 + g
  let e := match cellFind g e.integ.scrubbed with
    | some w => if word ≤ w then e.wrap i 7 1 else e
    | none => e
  let e : Engine := { e with integ.scrubbed := cellInsert g word (cellErase g e.integ.scrubbed) }
  match o with
  | .clean => e
  | .marker => e
  | .corrected => (e.bump i 1 1).suspect g word false
  | .uncorrectable =>
    let e := ((e.bump i 2 1).put i 8 word).poison (Config.holding g word)
    (e.raise 0x0A 3 (detailG g word)).suspect g word true

/-- R303. -/
def execScrubWord (g : Fin 8) (word : BitVec 31) (finding : ReadOutcome) (s : State) : Host.Outcome State Fault Refusal :=
  onEngine (whenLive (fun e => e.scrub g.val word.toNat finding)) s

/-- A remap record (R299). -/
def remapRecord (g slot entry : Nat) : List Byte :=
  let bs := toLe 4 entry ++ toLe 1 g ++ toLe 1 slot
  bs ++ toLe 2 (crc16 bs)

/-- REMAP_RECORD_WRITE (R299): a failed write is counted and stays due. -/
def Engine.recordWritten (e : Engine) (k : Nat) (ok : Bool) : Engine :=
  if ok then { e with integ.flashDue := e.integ.flashDue.filter (· != k) } else e.bump 0x4020 6 1

/-- R299: partition 3 writes the record that is due. -/
def execRemapRecordWrite (g : Fin 8) (slot : Fin 16) (ok : Bool) (s : State) : Host.Outcome State Fault Refusal :=
  let k := 16 * g.val + slot.val
  if s.e.live ∧ s.e.serving 3 ∧ s.e.integ.flashDue.contains k then
    let nv : NonVol := if ok then
        { s.nv with records := cellSet (fun _ => []) s.nv.records k (remapRecord g.val slot.val (cellGet (fun _ => 0) s.e.integ.remap k)) }
      else s.nv
    .next { s with e := s.e.recordWritten k ok, nv := nv }
  else .next s

end Sys2Proof.Machine
end

