-- ==== Sys2Proof/Machine/Faults.lean ====
section
/-! DEFINITION. What is commanded of the fault collector (R313-R321): messages, ends of windows, acknowledgements, FAULT_L. -/

namespace Sys2Proof.Machine

/-- R313. -/
def execFaultMessage (src : Byte) (kind : Byte) (detail : BitVec 40) (s : State) : Host.Outcome State Fault Refusal :=
  onEngine (whenLive (fun e => e.raise src.toNat kind.toNat detail.toNat)) s

/-- R314: the incident that the entry of sequence `seq` opened takes in no more messages. -/
def execIncidentWindowEnd (seq : Nat) (s : State) : Host.Outcome State Fault Refusal :=
  onEngine (whenLive (fun e => { e with flt.incidents := e.flt.incidents.filter (fun i => i.seq != seq) })) s

/-- SHADOW_WINDOW_END: the extension of a window whose end condition has come has elapsed (R317). -/
def Engine.windowElapsed (e : Engine) (w : Nat) : Engine :=
  { e with flt.windows := e.flt.windows.filter (fun x => !(x.id == w && x.ended)) }

/-- R317. -/
def execShadowWindowEnd (w : Nat) (s : State) : Host.Outcome State Fault Refusal :=
  onEngine (whenLive (fun e => e.windowElapsed w)) s

/-- REPEAT_RECORD_TIMER: a further record where the entry has repeats that no record carries yet (R321). -/
def Engine.repeatRecord (e : Engine) (seq : Nat) : Engine :=
  match e.flt.log.find? (fun x => x.seq == seq) with
  | some x => if x.repeats = x.recorded then e else e.logRecord x
  | none => e

/-- R321. -/
def execRepeatRecordTimer (seq : Nat) (s : State) : Host.Outcome State Fault Refusal :=
  onEngine (whenLive (fun e => e.repeatRecord seq)) s

/-- ACKNOWLEDGE_ENTRY: the entry and every entry of its incident. -/
def Engine.ackSeq (e : Engine) (seq : Nat) : Engine :=
  match e.flt.log.find? (fun x => x.seq == seq) with
  | none => e.refuse abValue
  | some x => (e.acknowledge (fun y => y.incident == x.incident)).done

/-- R318. -/
def execAcknowledgeEntry (seq : BitVec 32) (s : State) : Host.Outcome State Fault Refusal :=
  onEngine (request 0x4100 (fun e => e.ackSeq seq.toNat)) s

/-- ACKNOWLEDGE_CLASS: every entry of class c or lower. -/
def Engine.ackClass (e : Engine) (c : Nat) : Engine :=
  if 4 < c then e.refuse abValue else (e.acknowledge (fun y => decide (y.cls ≤ c))).done

/-- R318. -/
def execAcknowledgeClass (c : Byte) (s : State) : Host.Outcome State Fault Refusal :=
  onEngine (request 0x4100 (fun e => e.ackClass c.toNat)) s

/-- Whether FAULT_L follows the hold bit: not while it carries a pattern up to Dawn step 2 (R319). -/
def Engine.faultLFree (e : Engine) : Bool := e.mode != .dawn || decide (4 ≤ e.get 0x2001 1)

/-- The hold bit is cleared: FAULT_L is released. -/
def Engine.faultLClear (e : Engine) : Engine :=
  { e.put 0x4100 9 0 with flt.clearPending := false, flt.faultLPin := e.flt.faultLPin || e.faultLFree }

/-- FAULT_L_HOLD_WRITE: 1 drives the pin low; 0 releases it, at the end of the minimum where that runs. -/
def Engine.faultLWrite (e : Engine) (v : Bool) : Engine :=
  if v then Engine.done { e.put 0x4100 9 1 with flt.clearPending := false, flt.faultLPin := false }
  else if e.flt.minimumOn then Engine.done { e with flt.clearPending := true }
  else e.faultLClear.done

/-- R319. -/
def execFaultLHoldWrite (v : Bool) (s : State) : Host.Outcome State Fault Refusal :=
  onEngine (request 0x4100 (fun e => e.faultLWrite v)) s

/-- FAULT_L_MINIMUM_EXPIRY. -/
def Engine.faultLExpiry (e : Engine) : Engine :=
  if !e.flt.minimumOn then e
  else
    let e : Engine := { e with flt.minimumOn := false }
    if e.flt.clearPending then e.faultLClear else e

/-- R319. -/
def execFaultLMinimumExpiry (s : State) : Host.Outcome State Fault Refusal := onEngine (whenLive Engine.faultLExpiry) s

end Sys2Proof.Machine
end

