-- ==== Sys2Proof/Machine/Loops.lean ====
section
/-! DEFINITION. Loops, heater and high-voltage outputs, general analog inputs and trace commands (R248-R265). -/

namespace Sys2Proof.Machine

/-! General analog inputs (R259, R260) -/

/-- A quotient by 64: how a negative one is rounded is open (log entry 28, DESIGN CHOICE). -/
def quot64 (i : Int) : Int := if i < 0 ∧ !Config.negativeFloors then -((-i) / 64) else i / 64

/-- Point k of linearisation table t. -/
def Engine.tablePoint (e : Engine) (t k : Nat) : Int :=
  let bs := e.dom 0x3409 (t + 1)
  signed 16 (le [bs.getD (2 * k) 0, bs.getD (2 * k + 1) 0])

/-- The value that mean code m of input i has, before the clamp (R260). -/
def Engine.scaled (e : Engine) (i m : Nat) : Int :=
  let kind := e.get 0x3401 (i + 1)
  if kind = 1 then e.getI 16 0x3403 (i + 1) + (m : Int) * e.getI 16 0x3402 (i + 1) / 4096
  else
    let a := e.tablePoint (kind - 2) (m / 64)
    a + quot64 ((e.tablePoint (kind - 2) (m / 64 + 1) - a) * (m % 64 : Nat))

/-- The mean, the value and the status of input i at a zone evaluation. Fewer conversions than 50 give the mean of those there
were; none leave the mean (log entry 29, DEDUCED). -/
def Engine.inputValue (e : Engine) (i : Nat) : Engine :=
  let n := cellGet (fun _ => 0) e.ctl.counts i
  let sum := cellGet (fun _ => 0) e.ctl.sums i
  let e := if n = 0 then e else e.put 0x3407 (i + 1) ((sum + n / 2) / n)
  let m := e.get 0x3407 (i + 1)
  let st := setBit (e.get 0x3408 (i + 1)) 0 (decide (m < e.get 0x3404 (i + 1)) || decide (e.get 0x3405 (i + 1) < m))
  let e := e.put 0x3408 (i + 1) st
  if e.get 0x3401 (i + 1) = 0 then e
  else
    let v := e.scaled i m
    let e := e.stick 0x3408 (i + 1) 1 (e.get 0x3401 (i + 1) == 1 && v != sat16 v)
    e.putI 16 0x3406 (i + 1) (sat16 v)

/-- ANALOG_CONVERSION: the conversion joins the running millisecond; the sequencers are gated in Dusk and deeper. -/
def Engine.conversion (e : Engine) (i code : Nat) : Engine :=
  if 1 ≤ e.idle then e
  else
    let e : Engine := { e with ctl.sums := cellSet (fun _ => 0) e.ctl.sums i (cellGet (fun _ => 0) e.ctl.sums i + code),
                               ctl.counts := cellSet (fun _ => 0) e.ctl.counts i (cellGet (fun _ => 0) e.ctl.counts i + 1) }
    e.traceEvent 3 i code (fun n => n == 0)

/-- R259. -/
def execAnalogConversion (i : Fin 64) (code : BitVec 12) (s : State) : Host.Outcome State Fault Refusal :=
  onEngine (whenLive (fun e => e.conversion i.val code.toNat)) s

/-! Zone loops and HV channels (R256-R258) -/

/-- The validity of a zone loop's input (R256): a Degrade when it turns invalid, released after 1,000 valid evaluations. -/
def Engine.zoneInput (e : Engine) (l : Nat) : Engine :=
  let i := e.get (0x3100 + l) 8
  let x := e.loop l
  if bit (e.get 0x3408 (i + 1)) 0 ∨ e.get 0x3401 (i + 1) = 0 then
    let e := e.setLoop l { x with invalid := true, validRun := 0 }
    if x.invalid then e else e.raise 8 2 (detailP l (e.getI 16 0x3406 (i + 1)))
  else if x.invalid then
    e.setLoop l { x with invalid := decide (x.validRun + 1 < 1000), validRun := if x.validRun + 1 < 1000 then x.validRun + 1 else 0 }
  else e

/-- HV_TRIP: PV above the trip limit latches channel c off (R258). -/
def Engine.hvTrip (e : Engine) (c : Nat) : Engine :=
  let l := 188 + c
  let pv := e.pvOf l
  if e.hvOn c ∧ !e.hvTripped c ∧ e.getI 16 (0x3200 + c) 5 < pv then
    let e : Engine := { e with ctl.tripped := cellSet (fun _ => false) e.ctl.tripped c true }
    (e.driveLoop l).raise 8 3 (detailP l pv)
  else e

/-- ZONE_EVALUATION: the inputs of the millisecond, trips, then every enabled zone loop. A disabled channel loop only follows
its trip. -/
def Engine.zoneEval (e : Engine) : Engine :=
  let e := e.each (List.range 64) Engine.inputValue
  let e : Engine := { e with ctl.sums := [], ctl.counts := [] }
  let e := e.each (List.range 64) (fun e i => e.traceEvent 3 i 0 (fun n => n == 1))
  let e := e.each [0, 1, 2, 3] Engine.hvTrip
  e.each (e.enabledLoops 128 64) (fun e l => (e.zoneInput l).evalTimed l)

/-- R249. -/
def execZoneEvaluation (s : State) : Host.Outcome State Fault Refusal := onEngine (whenLive Engine.zoneEval) s

/-- HV_CLEAR_TRIP (R258). -/
def Engine.clearTrip (e : Engine) (c : Nat) : Engine :=
  if e.hvTripped c ∧ e.getI 16 (0x3200 + c) 5 < e.pvOf (188 + c) then e.refuse abState
  else if e.hvTripped c then
    let e : Engine := { e with ctl.tripped := cellErase c e.ctl.tripped }
    ((e.put (0x3200 + c) 6 0).release).done
  else e.done

/-- R258. -/
def execHvClearTrip (c : Fin 4) (s : State) : Host.Outcome State Fault Refusal :=
  onEngine (request 0x3200 (fun e => e.clearTrip c.val)) s

/-! Warming loops (R254, R255) -/

/-- WARMING_TIMER: with no tick for 100 µs; IDLE_WARM follows the outputs outside transits. -/
def Engine.warmTimer (e : Engine) : Engine :=
  let e := e.each (e.enabledLoops 0 128) Engine.evalTimed
  e.each (List.range 128) Engine.idleWarm

/-- R254. -/
def execWarmingTimer (s : State) : Host.Outcome State Fault Refusal := onEngine (whenLive Engine.warmTimer) s

/-! Sticky flags (R251, R260) -/

/-- STICKY_FLAG_CLEAR: bits written as 1 are cleared; bit 0 of an input's status is read only. -/
def Engine.clearSticky (e : Engine) (idx sub v : Nat) : Engine :=
  if 0x3100 ≤ idx ∧ idx < 0x31C0 ∧ sub = 0x11 then (e.put idx sub (e.get idx sub &&& (255 ^^^ v))).done
  else if idx = 0x3408 ∧ 1 ≤ sub ∧ sub ≤ 64 then (e.put idx sub (e.get idx sub &&& (255 ^^^ (v &&& 2)))).done
  else e.refuse 0x06020000

/-- R251. -/
def execStickyFlagClear (idx : BitVec 16) (sub : Byte) (v : Byte) (s : State) : Host.Outcome State Fault Refusal :=
  onEngine (request idx.toNat (fun e => e.clearSticky idx.toNat sub.toNat v.toNat)) s

/-! Trace commands (R262, R263) -/

/-- Whether the source of unit u exists (R261). -/
def Engine.traceSource (e : Engine) (u : Nat) : Bool :=
  let i := e.get (traceIdx u) 4
  let n := e.get (traceIdx u) 5
  match e.get (traceIdx u) 3 with
  | 1 => decide (i < 192) && decide (n < 4)
  | 2 => decide (i < 8) && decide (n < 5)
  | 3 => decide (i < 64) && decide (n < 2)
  | _ => false

/-- TRACE_ARM: recording starts at once, with its counts cleared; mode 0 triggers at arm. -/
def Engine.traceArm (e : Engine) (u : Nat) : Engine :=
  let i := traceIdx u
  let a := e.get i 0x0A
  let n := e.get i 0x0B
  if e.tracing u ∨ 1 ≤ e.stage then e.refuse abState
  else if !e.traceSource u ∨ (e.get i 7 = 3 ∧ e.get i 3 ≠ 1) ∨ !e.inDram a n ∨
      clash a n (e.traceRings u ++ e.openRings 256 ++ [e.proofRing] ++ e.fireTable ++ e.storeRegions) then e.refuse abValue
  else
    let e := [0x0C, 0x0D, 0x0E, 0x0F, 0x10].foldl (fun e sub => e.put i sub 0) ((e.setTrace u {}).put i 2 1)
    (if e.get i 7 = 0 then e.traceTrig u else e).done

/-- R262. -/
def execTraceArm (u : Fin 4) (s : State) : Host.Outcome State Fault Refusal :=
  onEngine (request 0x3210 (fun e => e.traceArm u.val)) s

/-- R262. -/
def execTraceTrigger (u : Fin 4) (s : State) : Host.Outcome State Fault Refusal :=
  onEngine (request 0x3210 (fun e => (e.traceTrig u.val).done)) s

/-- R263. -/
def execTraceStop (u : Fin 4) (s : State) : Host.Outcome State Fault Refusal :=
  onEngine (request 0x3210 (fun e => (e.traceEnd u.val 4).done)) s

end Sys2Proof.Machine
end

