-- ==== Sys2Proof/Machine/Power.lean ====
section
/-! DEFINITION. Power, temperature and idle states (R340-R360). -/

namespace Sys2Proof.Machine

/-! Input monitor and shedding (R343-R348) -/

/-- The deepest stage whose voltage trigger a VIN in mV meets (R344). -/
def voltageStage (vin : Nat) : Nat :=
  if vin < 7500 then 5 else if vin < 9000 then 4 else if vin < 11000 then 3 else if vin < 13000 then 2
  else if vin < 16000 then 1 else 0

/-- The VIN in mV from which stage k's voltage trigger releases (R344). -/
def releaseVolts (k : Nat) : Nat := [0, 16500, 13500, 11500, 9500, 8000].getD k 0

/-- Fewer than 4 sensors are valid (R356). -/
def Engine.fewSensors (e : Engine) : Bool := decide (8 < popcount 12 (e.get 0x4211 3))

/-- Take the values of the input monitor's sample (R343, R361). -/
def Engine.sampleInput (e : Engine) (vin iin : Nat) : Engine :=
  let low := e.get 0x4200 6
  (((e.put 0x4200 1 vin).put 0x4200 2 iin).put 0x4200 3 (vin * iin / 1000)).put 0x4200 6 (if low = 0 then vin else min low vin)

/-- A trigger whose condition holds becomes present (R344). -/
def Engine.setTrigger (e : Engine) (t : Trigger) (vin iin : Nat) : Engine :=
  let die := e.getI 16 0x4211 1
  match t with
  | .voltage => { e with pwr.sag := max e.pwr.sag (voltageStage vin) }
  | .current => { e with pwr.current := e.pwr.current || decide (e.get 0x4201 2 < iin) }
  | .pfail => if (e.inp 1).active then { e with pwr.pfail := max e.pwr.pfail (e.get 0x4201 1) } else e
  | .dieHot => { e with pwr.dieHot := e.pwr.dieHot || bit (e.get 0x4211 8) 1 || e.fewSensors }
  | .dieCritical => { e with pwr.dieCrit := e.pwr.dieCrit || decide (e.getI 16 0x4211 6 ≤ die) && bit (e.get 0x4211 8) 2 }
  | .converter => { e with pwr.converter := true }

/-- The deepest stage that a trigger asks for. -/
def Power.asked (p : Power) : Nat :=
  [p.sag, if p.current then 1 else 0, p.pfail, if p.dieHot then 3 else 0, if p.dieCrit then 4 else 0,
   if p.converter then 4 else 0].foldl max 0

/-- Publish the triggers present in 4200h:05h. -/
def Engine.publishTriggers (e : Engine) : Engine :=
  let p := e.pwr
  e.put 0x4200 5 (ofBool (p.sag != 0) + 2 * ofBool p.current + 4 * ofBool (p.pfail != 0) + 8 * ofBool p.dieHot +
    16 * ofBool p.dieCrit + 32 * ofBool p.converter)

/-- What stage k sheds as it takes effect (R344). -/
def Engine.shed (e : Engine) (k : Nat) : Engine :=
  if k = 1 then
    let e := e.each [0, 1, 2, 3] (fun e u => e.traceEnd u 5)
    let st := e.get 0x2471 2
    let e := if 1 ≤ st ∧ st ≤ 3 then Engine.put { e with sup.proof := {} } 0x2471 2 4 else e
    e.endWatch 4
  else if k = 2 then e.reEval
  else if k = 3 then e.evalHolds
  else if k = 4 then
    let e : Engine := { e with flt.reactions := e.flt.reactions + 1, host.inL1 := e.host.inL1 || e.host.aspmL1 }
    (e.stopAll false).refreshSr
  else e

/-- Stage k is entered: counted, named in 0Dh:01h, or 0Dh:02h for stage 5, and in effect. -/
def Engine.enterStage (e : Engine) (k : Nat) : Engine :=
  let e := e.bump 0x4200 7 1
  (if k = 5 then e.raise 0x0D 2 5 else e.raise 0x0D 1 k).shed k

/-- The stage in force follows a trigger that has become present: every stage up to it takes effect (R344). -/
def Engine.deepen (e : Engine) : Engine :=
  let e := e.publishTriggers
  let old := e.stage
  let new := e.pwr.asked
  if new ≤ old then e
  else ((e.put 0x4200 4 new).each ((List.range (new - old)).map (· + old + 1)) Engine.enterStage).evalHolds

/-- SHEDDING_STAGE_ENTRY. -/
def Engine.shedEntry (e : Engine) (t : Trigger) (vin iin : Nat) : Engine :=
  ((e.sampleInput vin iin).setTrigger t vin iin).deepen

/-- R344. -/
def execSheddingStageEntry (t : Trigger) (vin iin : BitVec 16) (s : State) : Host.Outcome State Fault Refusal :=
  onEngine (whenLive (fun e => e.shedEntry t vin.toNat iin.toNat)) s

/-- Whether the release conditions of stage k hold in a sample (R344, R356). -/
def Engine.releases (e : Engine) (k vin iin : Nat) : Bool :=
  let die := e.getI 16 0x4211 1
  let cool (i : Nat) : Bool := decide (die < e.getI 16 0x4211 i - 50)
  decide (releaseVolts k ≤ vin) &&
    (k != 1 || !e.pwr.current || decide (iin + 500 ≤ e.get 0x4201 2)) &&
    (e.pwr.pfail != k || !(e.inp 1).active) &&
    (k != 3 || !e.pwr.dieHot || (cool 5 && !e.fewSensors)) && (k != 4 || !e.pwr.dieCrit || cool 6)

/-- The triggers of stage k are absent. -/
def Power.clear (p : Power) (k : Nat) : Power :=
  { p with sag := min p.sag (k - 1), current := p.current && k != 1, pfail := if p.pfail = k then 0 else p.pfail,
           dieHot := p.dieHot && k != 3, dieCrit := p.dieCrit && k != 4, converter := p.converter && k != 4 }

/-- What the end of stage k gives back (R346). -/
def Engine.unshed (e : Engine) (k : Nat) : Engine :=
  if k = 1 then (if e.get 0x2471 2 = 4 then e.put 0x2471 2 0 else e)
  else if k = 3 then e.put 0x4211 8 (setBit (e.get 0x4211 8) 1 false)
  else if k = 4 then
    let e : Engine := { e with host.inL1 := e.host.inL1 && decide (2 ≤ e.idle) }
    ((e.put 0x4211 8 (setBit (e.get 0x4211 8) 2 false)).refreshSr).closeWindows (fun w => w == .stage4)
  else e

/-- SHEDDING_STAGE_RELEASE: only the deepest stage in force can release. No message is raised (R348). -/
def Engine.stageRelease (e : Engine) (k vin iin : Nat) : Engine :=
  let e := e.sampleInput vin iin
  if e.stage ≠ k ∨ !e.releases k vin iin then e
  else
    let e : Engine := { e with pwr := e.pwr.clear k }
    let e := ((e.put 0x4200 4 (k - 1)).publishTriggers).unshed k
    e.reEval.evalHolds

/-- R346. -/
def execSheddingStageRelease (k : Fin 5) (vin iin : BitVec 16) (s : State) : Host.Outcome State Fault Refusal :=
  onEngine (whenLive (fun e => e.stageRelease (k.val + 1) vin.toNat iin.toNat)) s

/-- R361: 4200h:06h restarts from the present value. -/
def execLowestVinReset (s : State) : Host.Outcome State Fault Refusal :=
  onEngine (request 0x4200 (fun e => (e.put 0x4200 6 (e.get 0x4200 1)).done)) s

/-! Power-on reset and rails (R342, R349) -/

/-- POWER_ON_RESET: VIN below 6.5 V removes power, and with it the counts since; at 7.0 V for 10 ms Dawn begins, unless the REF
monitor holds the reset too. -/
def powerReset (recovered : Bool) (s : State) : State :=
  if recovered then
    (if s.e.mode = .powerOnReset ∧ s.e.pwr.vinLow then
      (if s.e.pwr.refHold then { s with e := { s.e with pwr.vinLow := false } } else restart s .powerOn)
    else s)
  else
    let hold := s.e.mode == .powerOnReset && s.e.pwr.refHold
    holdReset { s with nv := { s.nv with refLosses := 0, railResets := 0, dawns := 0 } } true hold

/-- R349. -/
def execPowerOnReset (recovered : Bool) (s : State) : Host.Outcome State Fault Refusal := .next (powerReset recovered s)

/-- RAIL_FAULT: an internal rail, DDR_VDD or DDR_VPP resets the engine; AUX5 (r = 8) only shows its voltage. -/
def railReset (r mv : Nat) (s : State) : State :=
  if !s.e.live then s
  else if r = 8 then { s with e := s.e.put 0x4202 9 mv }
  else restart { s with nv := { s.nv with railResets := satAdd 16 s.nv.railResets 1 } } .powerOn

/-- R342. -/
def execRailFault (r : Fin 9) (mv : BitVec 16) (s : State) : Host.Outcome State Fault Refusal :=
  .next (railReset r.val mv.toNat s)

/-- R342: an overload of AUX5 folds it back. -/
def execAux5Overload (present : Bool) (s : State) : Host.Outcome State Fault Refusal :=
  onEngine (whenLive (fun e => e.put 0x4202 0x0B (ofBool present))) s

/-! Idle states (R350-R354) -/

/-- The conditions of R352, as the bits of 4220h:05h. -/
def Engine.blockers (e : Engine) : Nat :=
  let job := e.jobState
  let any4 (p : Nat → Bool) : Bool := [0, 1, 2, 3].any p
  ofBool (!e.flag 0x2001 2) +
  2 * ofBool (job == 1 || job == 2 || (job == 3 && e.get 0x2200 3 / 4 != 0)) +
  4 * ofBool ((List.range 32).any (fun d => (e.dma d).st == .running || (e.dma d).st == .stopping)) +
  8 * ofBool (e.get 0x4001 1 == 0 || e.get 0x4001 1 == 4 || e.flag 0x2430 9 || any4 (fun c => e.get (chanIdx c) 0x0C == 1) ||
    any4 (fun u => decide (1024 ≤ (e.trace u).chip.length))) +
  16 * ofBool (e.care.sweep || e.care.watch) +
  32 * ofBool (any4 (fun u => e.tracing u)) +
  64 * ofBool ((List.range 8).any (fun a => e.get (axisIdx a) 2 == 3 || e.get (axisIdx a) 2 == 4)) +
  128 * ofBool (any4 (fun p => e.get (partIdx p) 4 == 2 || e.get (partIdx p) 4 == 3)) +
  256 * ofBool (e.host.mb.busy || (List.range 128).any (fun h => (e.head h).waiting.isSome)) +
  512 * ofBool (any4 (fun c => e.get (chanIdx c) 1 == 2))

/-- The deepest idle state that the tolerance and 4220h:04h permit (R351). -/
def Engine.deepestIdle (e : Engine) : Nat :=
  let tol := e.get 0x2002 1
  min (e.get 0x4220 4) (if 40000 ≤ tol then 3 else if 2000 ≤ tol then 2 else if 20 ≤ tol then 1 else 0)

/-- A PLL is turned off on purpose: no loss, no fault (R331, R338). -/
def Engine.pllOff (e : Engine) (x : Nat) : Engine :=
  ((e.put (pllIdx x) 1 0).syncAbandon x).setPll x { e.pll x with searching := false, declared := false }

/-- IDLE_STATE_ENTRY: loops and HV go OFF and IDLE_WARM follows first; Twilight stops PLL-A and PLL-B, Night PLL-C with FIELD on
REF. -/
def Engine.idleEnter (e : Engine) : Engine :=
  let k := e.deepestIdle
  if e.mode ≠ .running ∨ e.idle ≠ 0 ∨ e.blockers ≠ 0 ∨ k = 0 then e
  else
    let e := (Engine.reEval { e.put 0x4220 1 k with pwr.idleAt := e.now }).each (List.range 128) Engine.idleWarm
    if k = 1 then e
    else
      let e := ((e.pllOff 0).pllOff 1).suspendReceivers
      let e : Engine := { e with host.inL1 := e.host.inL1 || e.host.aspmL1 }
      let e := if k = 3 then (e.pllOff 2).setBypass 2 true else e
      e.refreshSr

/-- R351. -/
def execIdleStateEntry (s : State) : Host.Outcome State Fault Refusal := onEngine (whenLive Engine.idleEnter) s

/-- R353: a receiver coming up wakes the engine from Dusk only. -/
def execWakeEvent (cause : Fin 8) (s : State) : Host.Outcome State Fault Refusal :=
  onEngine (whenLive (fun e => if cause.val = 7 ∧ e.idle ≠ 1 then e else e.wake (cause.val + 1))) s

/-- IDENT of a head is read, alone (R354). -/
def Engine.readIdent (e : Engine) (h : Nat) : Engine :=
  (e.setHead h { e.head h with identLeft := 1, identData := [] }).enqueue h (readCmd 0 8)

/-- IDLE_EXIT_COMPLETE: the engine is Awake; DRAM leaves self-refresh, and IDENT of every head in service is read. -/
def Engine.idleExit (e : Engine) (us : Nat) : Engine :=
  if !e.pwr.waking ∨ !e.pllsLocked then e
  else
    let e := ((e.put 0x4220 1 0).put 0x4220 6 us).countIdle
    let e : Engine := { e with pwr.waking := false, host.inL1 := e.host.inL1 && decide (4 ≤ e.stage) }
    let e := (e.refreshSr).reEval
    (e.each ((List.range 128).filter (fun h => decide (e.svc h ≤ 1))) Engine.readIdent).evalHolds

/-- R354. -/
def execIdleExitComplete (us : BitVec 32) (s : State) : Host.Outcome State Fault Refusal :=
  onEngine (whenLive (fun e => e.idleExit us.toNat)) s

/-- R354: a receiver not up within 1 ms of the end of exit goes down. -/
def execHeadRealignTimeout (h : Fin 128) (s : State) : Host.Outcome State Fault Refusal :=
  onEngine (whenLive (fun e =>
    if (e.head h.val).suspended = 3 ∧ e.get (headIdx h.val) 1 = 1 then e.receiverLost h.val else e)) s

/-! Die temperature (R355-R358) -/

/-- A value put in its place among rising values. -/
def insertInt (x : Int) : List Int → List Int
  | [] => [x]
  | y :: r => if x ≤ y then x :: y :: r else y :: insertInt x r

/-- Twice the median of values. -/
def twiceMedian (xs : List Int) : Int :=
  let s := xs.foldr insertInt []
  s.getD ((s.length - 1) / 2) 0 + s.getD (s.length / 2) 0

/-- The sensors that are valid and have been sampled, and the reading of one (R356). -/
def Engine.validSensors (e : Engine) : List Nat :=
  (List.range 12).filter (fun s => !bit (e.get 0x4211 3) s && cellGet (fun _ => false) e.pwr.sampled s)
def Engine.sensor (e : Engine) (s : Nat) : Int := e.getI 16 0x4210 (s + 1)

/-- A sensor fails (R356): excluded until Dawn and reported. -/
def Engine.sensorFails (e : Engine) (s : Nat) : Engine :=
  (e.put 0x4211 3 (setBit (e.get 0x4211 3) s true)).raise 0x0D 3 s

/-- The die temperature and its limits (R355). A status bit that is set wakes the engine. -/
def Engine.dieLimits (e : Engine) : Engine :=
  match e.validSensors.map e.sensor with
  | [] => e
  | x :: r =>
    let t := r.foldl max x
    let e := (e.putI 16 0x4211 1 t).putI 16 0x4211 2 (max (e.getI 16 0x4211 2) t)
    let e := e.setCondition 3 (decide (1050 ≤ t))
    let st := e.get 0x4211 8
    let lim (i : Nat) : Int := e.getI 16 0x4211 i
    let st1 := if lim 4 ≤ t then setBit st 0 true else if t < lim 4 - 50 then setBit st 0 false else st
    let st2 := if lim 5 ≤ t then setBit st1 1 true else st1
    let st3 := if lim 6 ≤ t then setBit st2 2 true else st2
    let e := e.put 0x4211 8 st3
    if [0, 1, 2].any (fun i => bit st3 i && !bit st i) then e.wake 7 else e

/-- The sampling rate of a sensor (R355). -/
def Engine.fastRate (e : Engine) (s : Nat) (x : Int) : Engine :=
  let lim (i : Nat) : Int := e.getI 16 0x4211 i
  let near (l : Int) : Bool := decide (l - 100 ≤ x) && decide (x ≤ l)
  e.put 0x4211 7 (setBit (e.get 0x4211 7) s (decide (lim 4 < x) || near (lim 4) || near (lim 5) || near (lim 6) || near 1250))

/-- The corrections that sensors 0, 9 and 10 give (R357; log entry 12, DESIGN CHOICE). -/
def Engine.compensate (e : Engine) (s : Nat) (x : Int) : Engine :=
  let old := e.get 0x4211 0x0A
  if s = 0 then e.put 0x4211 9 (Config.oscillatorCorrection x).toNat
  else if s = 9 then e.put 0x4211 0x0A (old / 256 * 256 + (Config.adcCorrection x).toNat)
  else if s = 10 then e.put 0x4211 0x0A (old % 256 + 256 * (Config.adcCorrection x).toNat)
  else e

/-- DIE_SENSOR_SAMPLE: a reading in 0.1 °C, or none where the conversion did not complete. -/
def Engine.sensorSample (e : Engine) (s : Nat) (reading : Option Int) : Engine :=
  if bit (e.get 0x4211 3) s then e
  else
    match reading with
    | none => (e.sensorFails s).dieLimits
    | some x =>
      if x < -400 ∨ 1500 < x then (e.sensorFails s).dieLimits
      else
        let e := if e.pwr.sampled = [] then e.putI 16 0x4211 2 x else e
        let e := (e.putI 16 0x4210 (s + 1) x).fastRate s x
        let e : Engine := { e with pwr.sampled := cellSet (fun _ => false) e.pwr.sampled s true }
        let m := twiceMedian (e.validSensors.map e.sensor)
        let n := if 400 < (2 * x - m).natAbs then cellGet (fun _ => 0) e.pwr.offMedian s + 1 else 0
        let e : Engine := { e with pwr.offMedian := cellSet (fun _ => 0) e.pwr.offMedian s n }
        (if 10 ≤ n then e.sensorFails s else e.compensate s x).dieLimits

/-- R355, R356, R357. -/
def execDieSensorSample (sensor : Fin 12) (reading : Option Int) (s : State) : Host.Outcome State Fault Refusal :=
  onEngine (whenLive (fun e => e.sensorSample sensor.val reading)) s

/-- THERMAL_SHUTDOWN: strobes, heaters and HV low, FAULT_L low, nothing runs until VIN falls below 6.5 V. No message is logged. -/
def Engine.shutDown (e : Engine) : Engine :=
  let e := e.each (List.range 128) Engine.strobeLow
  let e := e.each [0, 1, 2, 3] (fun e c => e.put (0x3200 + c) 8 0)
  { e with mode := .shutdown, ctl.hz := [], ctl.hv := [], flt.faultLPin := false }

/-- R358: the comparators act in every state but power-on reset. -/
def execThermalShutdown (s : State) : Host.Outcome State Fault Refusal :=
  onEngine (fun e => if e.mode = .powerOnReset then e else e.shutDown) s

end Sys2Proof.Machine
end

