-- ==== Sys2Proof/Machine/Fuses.lean ====
section
/-! DEFINITION. Fuse words, their programming, the life-cycle and key revocation (R362-R373), the debug port (R371). -/

namespace Sys2Proof.Machine

/-! The code of a fuse word (R362) -/

/-- The code positions of data bits 0 to 31 and of the seal bit: 3, 5, 6, 7, 9, …, 39. -/
def fusePositions : List Nat := (List.range 40).filter (fun p => decide (3 ≤ p) && !isPow2 p)

/-- The exclusive or of the positions whose bit is 1, the data bits first, then the seal bit (bit 32 of `d`). -/
def fuseXor (d : Nat) : Nat :=
  (List.range 33).foldl (fun s i => if bit d i then s ^^^ fusePositions.getD i 0 else s) 0

/-- The 40 bits of a sealed word: c[5:0] in [38:33], c6 in [39]. -/
def sealedWord (data : Nat) : Nat :=
  let d := data % 2 ^ 32 + 2 ^ 32
  let c := fuseXor d
  d + 2 ^ 33 * c + 2 ^ 39 * ((popcount 33 d + popcount 6 c) % 2)

/-- What decoding a sealed word finds. -/
structure FuseDecode where
  data : Nat := 0
  sealed : Bool := false
  fixed : Bool := false
  bad : Bool := false
  deriving DecidableEq, Repr

/-- decode() of R368: an even number of 1s with a syndrome is bad; a single wrong bit, c6 included, is corrected; a syndrome that
names no position is bad. -/
def fuseDecode (w : Nat) : FuseDecode :=
  let d := w % 2 ^ 33
  let s := fuseXor d ^^^ bits w 38 33
  let odd := popcount 40 w % 2 == 1
  let ok (d : Nat) (fixed : Bool) : FuseDecode := { data := d % 2 ^ 32, sealed := bit d 32, fixed := fixed }
  if !odd then (if s = 0 then ok d false else { bad := true })
  else if s = 0 ∨ isPow2 s then ok d true
  else
    match (List.range 33).find? (fun i => fusePositions.getD i 0 == s) with
    | some i => ok (setBit d i (!bit d i)) true
    | none => { bad := true }

/-! Regions (R364) -/

/-- First and last word of region r. -/
def regionWords (r : Nat) : Nat × Nat :=
  [(0, 7), (8, 15), (16, 27), (28, 39), (40, 167), (168, 191), (192, 255), (256, 447), (448, 503)].getD r (0, 0)

/-- The region of a word below 504. -/
def regionOf (w : Nat) : Nat :=
  ((List.range 9).find? (fun r => decide ((regionWords r).1 ≤ w) && decide (w ≤ (regionWords r).2))).getD 9

/-- The lock pattern of region r, the pattern of life-cycle word k − 1, the revocation pattern of slot s (R367, R370, R373). -/
def lockPattern (r : Nat) : Nat := 0x4C4B0000 + r
def cyclePattern (k : Nat) : Nat := 0x4C430000 + k
def revokePattern (s : Nat) : Nat := 0x52450000 + s

/-- The 40 bits of word w. -/
def NonVol.fuse (n : NonVol) (w : Nat) : Nat := cellGet (fun _ => 0) n.fuses w

/-- What Dawn made of word w. -/
def Engine.fuseRead (e : Engine) (w : Nat) : FuseRead := cellGet (fun _ => {}) e.dawn.read w

/-- Whether region r is locked for its users: as Dawn read its lock word (R367, R368). -/
def Engine.regionLocked (e : Engine) (r : Nat) : Bool :=
  let x := e.fuseRead (503 + r)
  decide (1 ≤ r) && x.sealed && !x.failed && x.val == lockPattern r

/-- Whether slot s is revoked, as Dawn read it (R373). -/
def Engine.slotRevoked (e : Engine) (s : Nat) : Bool :=
  let x := e.fuseRead (4 + s)
  x.sealed && x.val == revokePattern s

/-- Whether key slot s may verify (R373, R375). -/
def Engine.slotUsable (e : Engine) (s : Nat) : Bool := decide (s < 2) && e.regionLocked (2 + s) && !e.slotRevoked s

/-- The key hash of slot s (R364). -/
def Engine.keyHash (e : Engine) (s : Nat) : List Byte :=
  (List.range 12).flatMap (fun i => toLe 4 (e.fuseRead (16 + 12 * s + i)).val)

/-! Reading at Dawn (R368) -/

/-- One word sensed as `n` at the normal margin and `t` at the tight one. -/
def senseWord (n t : Nat) (locked : Bool) : FuseRead :=
  if !bit n 32 ∧ !bit t 32 then { val := n % 2 ^ 32, marginal := n != t, failed := locked }
  else
    let dn := fuseDecode n
    let dt := fuseDecode t
    if dn.bad ∨ dt.bad ∨ !dn.sealed ∨ !dt.sealed ∨ dn.data ≠ dt.data then { failed := true, sealed := bit n 32 }
    else { val := dn.data, sealed := true, corrected := dn.fixed || dt.fixed }

/-- The bits of word w that read 0 at the tight margin; `weak` names them by word and bit. -/
def tightWord (n w : Nat) (weak : List (Nat × Nat)) : Nat :=
  (weak.filter (fun p => p.1 == w)).foldl (fun v p => setBit v p.2 false) n

/-- All 512 words as Dawn forms them: lock words first, for they decide which regions are locked. A failed word reads 0. -/
def readFuses (n : NonVol) (weak : List (Nat × Nat)) : List (Nat × FuseRead) :=
  let sense (w : Nat) (locked : Bool) : Nat × FuseRead :=
    let x := senseWord (n.fuse w) (tightWord (n.fuse w) w weak) locked
    (w, if x.failed then { x with val := 0 } else x)
  let locks := ((List.range 8).map (fun i => sense (504 + i) false))
  let locked (r : Nat) : Bool := locks.any (fun p => p.1 == 503 + r && p.2.sealed && !p.2.failed && p.2.val == lockPattern r)
  (List.range 504).map (fun w => sense w (locked (regionOf w))) ++ locks

/-- Whether life-cycle word k − 1 is valid (R370): sealed with its pattern, or not sealed; what an interrupted transition has
blown of the pattern counts as not sealed (R372). -/
def Engine.cycleWordOk (e : Engine) (k : Nat) : Bool :=
  let x := e.fuseRead (k - 1)
  if x.sealed then x.val == cyclePattern k else (x.val &&& cyclePattern k) == x.val

/-- Whether life-cycle word k − 1 is sealed. -/
def Engine.cycleSealed (e : Engine) (k : Nat) : Bool := (e.fuseRead (k - 1)).sealed

/-- The life-cycle state (R370), or `none` for an invalid content. -/
def Engine.lifeCycle (e : Engine) : Option Nat :=
  let s := e.cycleSealed
  if !([1, 2, 3, 4].all e.cycleWordOk) then none
  else if s 4 then some 4
  else if (s 2 ∧ !s 1) ∨ (s 3 ∧ !s 2) then none
  else some (if s 3 then 3 else if s 2 then 2 else if s 1 then 1 else 0)

/-- Whether a failed word is an integrity failure (R369). -/
def criticalWord (w : Nat) : Bool := decide (w < 192) || (decide (504 ≤ w) && decide (w ≤ 508))

/-- Publish what the fuses give: counts and lists of R369, region and slot states, and the values of locked regions (R364). -/
def Engine.publishFuses (e : Engine) : Engine :=
  let rs := e.dawn.read
  let failed := (rs.filter (fun p => p.2.failed)).map (·.1)
  let e := (e.put 0x4300 2 (((List.range 9).filter e.regionLocked).foldl (fun m r => m + 2 ^ r) 0)).put 0x4300 3
    (rs.filter (fun p => p.2.corrected)).length
  let e := ((e.put 0x4300 4 (rs.filter (fun p => p.2.marginal)).length).setDom 0x4300 5 (failed.flatMap (toLe 2))).put 0x4300 6
    failed.length
  let e := e.put 0x4300 7 (ofBool (e.regionLocked 2) + 2 * ofBool (e.regionLocked 3) + 4 * ofBool (e.slotRevoked 0) +
    8 * ofBool (e.slotRevoked 1))
  let id := if e.regionLocked 1 then e.fuseRead else fun _ => {}
  let uid := (id 8).val + 2 ^ 32 * (id 9).val
  let sb := (id 10).val % 65536
  let e := (((e.put 0x2000 2 uid).put 0x2000 3 sb).put 0x1018 3 sb).put 0x1018 4 (uid % 2 ^ 32)
  { e with host.stepping := sb % 256, host.build := sb / 256 }

/-- The spare rows per group, and the delay trims: how the words of regions 4 and 5 code them is open, so locked regions give free
values (log entry 2, DESIGN CHOICE); unlocked ones give none and the nominal trims. -/
def Engine.takeTrims (e : Engine) : Engine :=
  let e := if e.regionLocked 4 then
      e.each (List.range 8) (fun e g => (e.put (0x4030 + g) 4 (e.freeVal.toNat % 65536)).useFree)
    else e
  if e.regionLocked 5 then
    e.each [0, 1, 2] (fun e x => e.each [0, 1, 2] (fun e o => (e.put (pllIdx x) (0x0D + o) (e.freeVal.toNat % 64)).useFree))
  else e

/-- DAWN_FUSE_READ (step 2). -/
def fuseStep (weak : List (Nat × Nat)) (n : NonVol) (e : Engine) : Engine :=
  if !e.atStep 2 then e
  else
    let rs := readFuses n weak
    let e : Engine := { e with dawn.read := rs.filter (fun p => decide (p.2 ≠ {})) }
    match e.lifeCycle with
    | none => { e with mode := .held 1 }
    | some k =>
      if rs.any (fun p => p.2.failed && criticalWord p.1) then { e with mode := .held 1 }
      else
        let due := (rs.filter (fun p => p.2.corrected)).map (·.1)
        let e : Engine := { e.put 0x4300 1 k with dawn.noticesDue := due }
        ((e.publishFuses).takeTrims).endStep 2

/-- R368. -/
def execDawnFuseRead (weak : List (Nat × Nat)) (s : State) : Host.Outcome State Fault Refusal :=
  .next { s with e := whenLive (fuseStep weak s.nv) s.e }

/-! Programming (R365-R367) -/

/-- The conditions of R365, and that the job is Idle. -/
def Engine.fuseSupply (e : Engine) (supply : Bool) : Bool :=
  supply && e.stage == 0 && decide (0 ≤ e.getI 16 0x4211 1) && decide (e.getI 16 0x4211 1 ≤ 850)

/-- Whether the sequencer holds region r locked: its lock word is sealed, or failed at Dawn (R367, R378). -/
def sequencerLocked (n : NonVol) (e : Engine) (r : Nat) : Bool :=
  decide (1 ≤ r) && decide (r ≤ 8) && (bit (n.fuse (503 + r)) 32 || (e.fuseRead (503 + r)).failed)

/-- Whether the life-cycle state permits programming in region r through 4302h (R371). -/
def Engine.mayProgram (e : Engine) (r : Nat) : Bool :=
  let k := e.get 0x4300 1
  k == 1 || (k == 2 && r == 7)

/-- The new bits that are blown before a bit fails, ascending, and whether one fails (R365). -/
def blow (word new : Nat) (order fails : List Nat) : Nat × Bool :=
  let todo := order.filter (bit new)
  let done := todo.takeWhile (fun i => !fails.contains i)
  (done.foldl (fun v i => setBit v i true) word, done.length == todo.length)

/-- Results 6, 10, 9 and 5, in this order; 0 where none applies. -/
def sequencerRefuses (n : NonVol) (e : Engine) (r : Nat) (supply : Bool) : Nat :=
  if !e.mayProgram r then 6 else if e.jobState ≠ 0 then 10 else if !e.fuseSupply supply then 9
  else if sequencerLocked n e r then 5 else 0

/-- Program: the new word and the result. -/
def programWord (n : NonVol) (w data : Nat) (fails : List Nat) : NonVol × Nat :=
  let cur := n.fuse w
  if bit cur 32 then (n, 2)
  else if (cur % 2 ^ 32 &&& data) ≠ cur % 2 ^ 32 then (n, 3)
  else
    let (v, ok) := blow cur (data ^^^ (cur % 2 ^ 32)) (List.range 32) fails
    ({ n with fuses := cellSet (fun _ => 0) n.fuses w v }, if ok then 1 else 4)

/-- Seal: check bits first, the seal bit last. -/
def sealWord (n : NonVol) (w : Nat) (fails : List Nat) : NonVol × Nat :=
  let cur := n.fuse w
  let goal := sealedWord cur
  if bit cur 32 then (n, 2)
  else if (cur &&& goal) ≠ cur then (n, 8)
  else
    let (v, ok) := blow cur (goal ^^^ cur) ((List.range 7).map (· + 33) ++ [32]) fails
    ({ n with fuses := cellSet (fun _ => 0) n.fuses w v }, if ok then 1 else 4)

/-- Program a word and seal it. -/
def writeSealed (n : NonVol) (w data : Nat) (fails : List Nat) : NonVol × Nat :=
  let (n, r) := programWord n w data fails
  if r = 1 then sealWord n w fails else (n, r)

/-- Lock: every word of the region is sealed and decodes; then the lock word is programmed and sealed. -/
def lockRegion (n : NonVol) (r : Nat) (fails : List Nat) : NonVol × Nat :=
  let (a, b) := regionWords r
  let ok := ((List.range (b + 1 - a)).map (· + a)).all (fun w =>
    bit (n.fuse w) 32 && !(fuseDecode (n.fuse w)).bad && (fuseDecode (n.fuse w)).sealed)
  if ok then writeSealed n (503 + r) (lockPattern r) fails else (n, 7)

/-- The abort code of a result (R366). -/
def fuseAbort (r : Nat) : Nat :=
  if r = 1 then 0 else if r = 4 then abAction else if r = 2 ∨ r = 3 ∨ r = 7 ∨ r = 8 then abValue else abState

/-- A fuse command ends: the words, 4302h:05h and the answer. -/
def fuseAnswer (s : State) (x : NonVol × Nat) : State :=
  let e := s.e.put 0x4302 5 x.2
  { s with nv := x.1, e := if fuseAbort x.2 = 0 then e.done else e.refuse (fuseAbort x.2) }

/-- A fuse command on region r, run by `f` unless the sequencer refuses. -/
def fuseCommand (r : Nat) (supply : Bool) (f : NonVol → NonVol × Nat) (s : State) : State :=
  if !s.e.live then s
  else if !s.e.serving 3 then { s with e := s.e.refuse abState }
  else
    let no := sequencerRefuses s.nv s.e r supply
    fuseAnswer s (if no = 0 then f s.nv else (s.nv, no))

/-- R366. -/
def execFuseProgram (supply : Bool) (fails : List Nat) (s : State) : Host.Outcome State Fault Refusal :=
  let w := s.e.get 0x4302 1
  .next (fuseCommand (regionOf w) supply (fun n => programWord n w (s.e.get 0x4302 2) fails) s)

/-- R366. -/
def execFuseSeal (supply : Bool) (fails : List Nat) (s : State) : Host.Outcome State Fault Refusal :=
  let w := s.e.get 0x4302 1
  .next (fuseCommand (regionOf w) supply (fun n => sealWord n w fails) s)

/-- R367. -/
def execFuseLock (supply : Bool) (fails : List Nat) (s : State) : Host.Outcome State Fault Refusal :=
  let r := s.e.get 0x4302 4
  .next (fuseCommand r supply (fun n => lockRegion n r fails) s)

/-! Life-cycle and revocation (R372, R373) -/

/-- Whether the authorisation object in 4310h:03h is valid for `action`; the slot it would revoke cannot sign. -/
def Engine.authorised (e : Engine) (action : Nat) : Bool :=
  let o := e.dom 0x4310 3
  let at_ (a n : Nat) : List Byte := (o.drop a).take n
  let slot := le (at_ 5 1)
  let key := at_ 20 97
  decide (o.length = 224) && le (at_ 0 4) == 0x00545541 && le (at_ 4 1) == action && le (at_ 6 2) == 0 &&
    le (at_ 8 8) == e.get 0x2000 2 && le (at_ 16 4) == e.get 0x4310 4 && (at_ 117 11).all (· == 0) &&
    e.slotUsable slot && !(decide (2 ≤ action) && slot + 2 == action) &&
    Config.sha384 key == e.keyHash slot && Config.ecdsaP384 key (Config.sha384 (o.take 128)) (at_ 128 96)

/-- The nonce changes after each evaluation: to another value, which is free (log entry 2, DESIGN CHOICE). -/
def Engine.newNonce (e : Engine) : Engine :=
  (e.put 0x4310 4 ((e.get 0x4310 4 + 1 + e.freeVal.toNat % (2 ^ 32 - 1)) % 2 ^ 32)).useFree

/-- The result code of a transition to `target` (R372), and whether the object was evaluated. -/
def Engine.transitionResult (e : Engine) (target : Nat) (supply : Bool) : Nat × Bool :=
  let k := e.get 0x4300 1
  if e.jobState ≠ 0 ∨ !e.fuseSupply supply then (6, false)
  else if !(target = 4 ∧ k ≠ 4) ∧ target ≠ k + 1 then (2, false)
  else if e.get 0x4310 2 ≠ e.get 0x2000 2 % 2 ^ 32 then (4, false)
  else if target = 2 ∧ !([1, 2, 4, 5].all e.regionLocked && !e.slotRevoked 0) then (3, false)
  else if target = 3 then (if e.authorised 1 then (1, true) else (5, true))
  else (1, false)

/-- Refuse a transition with its result. -/
def Engine.transitionRefused (e : Engine) (r : Nat) : Engine :=
  (e.put 0x4310 5 r).refuse (if r = 4 ∨ r = 5 then abValue else abState)

/-- LIFECYCLE_TRANSITION: accepted, the word of the target is programmed and sealed and the engine resets into Dawn; a word that
cannot be sealed leaves the old state and fails the action. -/
def transition (target : Nat) (supply : Bool) (s : State) : State :=
  if !s.e.live then s
  else if !s.e.serving 3 then { s with e := s.e.refuse abState }
  else if target = 0 ∨ 4 < target then { s with e := s.e.refuse abValue }
  else
    let (r, seen) := s.e.transitionResult target supply
    let e := if seen then s.e.newNonce else s.e
    if r ≠ 1 then { s with e := e.transitionRefused r }
    else
      let (n, w) := writeSealed s.nv (target - 1) (cyclePattern target) []
      if w = 1 then restart { s with nv := n, e := (e.put 0x4310 5 1).done } .lifecycle
      else { s with nv := n, e := e.refuse abAction }

/-- R372. -/
def execLifecycleTransition (target : Byte) (supply : Bool) (s : State) : Host.Outcome State Fault Refusal :=
  .next (transition target.toNat supply s)

/-- KEY_REVOKE: the object names the slot; its word is programmed and sealed. Its users take it at the next Dawn. -/
def revoke (supply : Bool) (s : State) : State :=
  let e := s.e
  if !e.live then s
  else if !e.serving 3 ∨ e.jobState ≠ 0 ∨ !e.fuseSupply supply ∨ !(e.get 0x4300 1 = 1 ∨ e.get 0x4300 1 = 2) then
    { s with e := e.refuse abState }
  else
    let action := le ((e.dom 0x4310 3 |>.drop 4).take 1)
    let ok := (action == 2 || action == 3) && e.authorised action
    let e := e.newNonce
    if !ok then { s with e := e.refuse abValue }
    else
      let (n, w) := writeSealed s.nv (4 + action - 2) (revokePattern (action - 2)) []
      { s with nv := n, e := if w = 1 then e.done else e.refuse (fuseAbort w) }

/-- R373. -/
def execKeyRevoke (supply : Bool) (s : State) : Host.Outcome State Fault Refusal := .next (revoke supply s)

/-! The debug port (R371) -/

/-- What the debug port reaches, once Dawn has read the fuses: in BLANK the fuse sequencer for every region, in DEVELOP the cores
and the sequencer, in PRODUCE identity and life-cycle only, in RETURNED the cores. -/
def debugPort (a : DebugAccess) (s : State) : State :=
  let e := s.e
  let k := e.get 0x4300 1
  let seq (w : Nat) (f : NonVol → NonVol × Nat) : State :=
    if (k = 0 ∨ (k = 1 ∧ !sequencerLocked s.nv e (regionOf w))) ∧ e.jobState = 0 ∧ e.fuseSupply true ∧ w < 504 then
      let x := f s.nv
      { s with nv := x.1, e := e.send (.debug (toLe 1 x.2)) }
    else s
  if !e.live ∨ e.dawnStep < 2 then s
  else
    match a with
    | .identity => { s with e := e.send (.debug (toLe 8 (e.get 0x2000 2) ++ toLe 2 (e.get 0x2000 3) ++ toLe 1 k)) }
    | .core p => if k = 1 ∨ k = 3 then { s with e := e.send (.debug (toLe 1 p.val)) } else s
    | .fuseProgram w d => seq w.val (fun n => programWord n w.val d.toNat [])
    | .fuseSeal w => seq w.val (fun n => sealWord n w.val [])
    | .toDevelop =>
      if e.mode = .debugWait ∧ e.fuseSupply true then
        let (n, r) := writeSealed s.nv 0 (cyclePattern 1) []
        if r = 1 then restart { s with nv := n } .lifecycle else { s with nv := n }
      else s

/-- R371. -/
def execDebugPortAccess (a : DebugAccess) (s : State) : Host.Outcome State Fault Refusal := .next (debugPort a s)

end Sys2Proof.Machine
end

