-- ==== Sys2Proof/Machine/Reads.lean ====
section
/-! DEFINITION. What a read of an entry returns where it is not simply held: values formed at the read (R397-R400). -/

namespace Sys2Proof.Machine

/-- 2001h:03h (R414). -/
def Engine.summary (e : Engine) : Nat :=
  let c := e.get 0x4100 4
  e.jobState + 4 * e.idle + 16 * e.stage + 256 * (if c = 0xFF then 7 else c) + 2048 * ofBool e.pllsLocked +
    4096 * ofBool (e.flag 0x2001 2)

/-- 2602h: elements of the working copy of bank b that are not available (R144). -/
def Engine.unavailable (e : Engine) (b : Nat) : Nat :=
  ((List.range 32768).filter (fun i => !e.elemAvail (b * 32768 + i))).length

/-- 4301h:03h: the status of the selected fuse word. -/
def Engine.fuseStatus (e : Engine) : Nat :=
  let w := e.get 0x4301 1
  let x := e.fuseRead w
  ofBool x.sealed + 2 * ofBool x.corrected + 4 * ofBool x.marginal + 8 * ofBool x.failed +
    16 * ofBool (if w < 504 then e.regionLocked (regionOf w) else e.regionLocked (w - 503))

/-- A numeric entry as a read returns it. -/
def Engine.numRead (e : Engine) (idx sub : Nat) : Nat :=
  let held := e.shown (ekey idx sub)
  if idx = 0x1014 then 0x80 + e.net.nodeId
  else if idx = 0x1016 ∧ sub ≠ 0 then (if e.flag (0x5000 + sub) 1 then sub * 65536 + e.get (0x5000 + sub) 0x0A else 0)
  else if idx = 0x2001 ∧ sub = 3 then e.summary
  else if idx = 0x2500 ∧ sub = 2 then 32768 - 15 * e.get 0x2500 1
  else if 0x2510 ≤ idx ∧ idx < 0x2520 ∧ sub = 7 then ofBool (e.maskInUse (idx - 0x2510))
  else if idx = 0x2600 ∧ sub = 2 then e.stagingEntry (e.get 0x2600 1)
  else if idx = 0x2600 ∧ sub = 3 then e.work (e.get 0x2600 1)
  else if idx = 0x2602 ∧ sub ≠ 0 then min 65535 (e.unavailable (sub - 1))
  else if 0x2100 ≤ idx ∧ idx < 0x2180 ∧ sub = 0x0E then
    setBit (setBit held 2 (e.check (idx - 0x2100) 2)) 4 (e.rxUp (idx - 0x2100))
  else if idx = 0x4220 ∧ sub = 2 then e.get 0x2002 1
  else if idx = 0x4220 ∧ sub = 5 then e.blockers
  else if idx = 0x4301 ∧ sub = 2 then (e.fuseRead (e.get 0x4301 1)).val
  else if idx = 0x4301 ∧ sub = 3 then e.fuseStatus
  else held

/-- The bytes of a text. -/
def ascii (s : String) : List Byte := s.toUTF8.toList.map (fun c => BitVec.ofNat 8 c.toNat)

/-- A digit, and a number in decimal and in two hexadecimal digits, as ASCII. -/
def digitByte (n : Nat) : Byte := BitVec.ofNat 8 (if n < 10 then 48 + n else 55 + n)
def decimal (n : Nat) : List Byte :=
  let ds := [n / 10000 % 10, n / 1000 % 10, n / 100 % 10, n / 10 % 10]
  (ds.dropWhile (· == 0)).map digitByte ++ [digitByte (n % 10)]
def hex2 (n : Nat) : List Byte := [digitByte (n / 16 % 16), digitByte (n % 16)]

/-- A version as 100Ah shows it. -/
def versionText (v : Nat) : List Byte :=
  decimal (bits v 31 24) ++ [46] ++ decimal (bits v 23 16) ++ [46] ++ decimal (bits v 15 0)

/-- The log entry of a sequence. -/
def Engine.logBytes (e : Engine) (seq : Nat) : Option (List Byte) :=
  (e.flt.log.find? (fun x => x.seq == seq)).map LogEntry.bytes

/-- A DOMAIN or string entry as a read returns it. -/
def Engine.domRead (e : Engine) (idx sub : Nat) : List Byte :=
  if idx = 0x1009 then hex2 e.host.stepping ++ [46] ++ hex2 e.host.build
  else if idx = 0x100A then
    versionText (e.get 0x4400 2) ++ [47] ++ versionText (e.get 0x4401 2) ++ [47] ++ versionText (e.get 0x4402 2) ++ [47] ++
      versionText (e.get 0x4403 2)
  else if idx = 0x3420 ∧ sub = 0x0A then e.care.verdictList.flatMap (toLe 4)
  else if idx = 0x3440 ∧ sub = 0x0A then e.care.watchList.flatMap (toLe 4)
  else if idx = 0x4101 ∧ sub = 2 then (e.logBytes (e.get 0x4101 1)).getD []
  else if idx = 0x4101 ∧ sub = 3 then e.flt.log.flatMap LogEntry.bytes
  else e.shownDom idx sub

/-- What a read finds that keeps it from being answered: a poisoned working entry (R139, R301), a log sequence that is not in the
log (R326). -/
def Engine.readFails (e : Engine) (idx sub : Nat) : Bool :=
  (idx == 0x2600 && sub == 3 && e.poisonedW (e.get 0x2600 1)) ||
    (idx == 0x4101 && sub == 2 && (e.logBytes (e.get 0x4101 1)).isNone)

/-- The bytes a read of an entry with row `d` returns. -/
def Engine.readBytes (e : Engine) (d : DictRow) (idx sub : Nat) : List Byte :=
  if d.ty.numeric then toLe d.ty.bytes (e.numRead idx sub) else e.domRead idx sub

end Sys2Proof.Machine
end

