-- ==== Sys2Proof/Machine/Network.lean ====
section
/-! DEFINITION. The field network and peers (R380-R393), PDOs and SYNC (R412). The places of fields in CAN frames that CiA 301 and
305 fix, and the spec does not restate, are those of log entry 14, PRESUMED. -/

namespace Sys2Proof.Machine

/-- Index of profile i. -/
def peerIdx (i : Nat) : Nat := 0x5000 + i

/-- Whether profile i is enabled (R385). -/
def Engine.peerOn (e : Engine) (i : Nat) : Bool := decide (1 ≤ i) && e.flag (peerIdx i) 1

/-- The port that carries frames to peer i (R381): its own in segment mode, else the active port. -/
def Engine.peerPort (e : Engine) (i : Nat) : Nat := if e.net.portB = 1 then e.get (peerIdx i) 0x0F else e.get 0x5000 0x0D

/-- The ports whose networks the engine manages: both in segment mode, else the active one. -/
def Engine.managed (e : Engine) : List Nat := if e.net.portB = 1 then [0, 1] else [e.get 0x5000 0x0D]

/-- An NMT command to a node, or to all (0). -/
def Engine.nmt (e : Engine) (port cmd node : Nat) : Engine := e.send (.can port 0 (toLe 1 cmd ++ toLe 1 node))

/-- A USDO request of the client to peer i: 1 read, 2 write; index, subindex, data (log entry 14, PRESUMED). -/
def Engine.usdo (e : Engine) (i op idx sub : Nat) (data : List Byte) : Engine :=
  e.send (.can (e.peerPort i) (0x600 + i) (toLe 1 op ++ toLe 2 idx ++ toLe 1 sub ++ data))

/-! Configuration (R388) -/

/-- The script record at an offset: index, subindex, data (R386). -/
def scriptRecord (bs : List Byte) (off : Nat) : Nat × Nat × List Byte :=
  let r := bs.drop off
  (le (r.take 2), le ((r.drop 2).take 1), (r.drop 4).take (le ((r.drop 3).take 1)))

/-- Whether the records of a script exactly fill its length (R386); each length is at least 1. -/
def scriptFills : Nat → List Byte → Bool
  | _, [] => true
  | 0, _ :: _ => false
  | n + 1, bs =>
    let l := le ((bs.drop 3).take 1)
    decide (5 ≤ bs.length) && decide (1 ≤ l) && decide (4 + l ≤ bs.length) && scriptFills n (bs.drop (4 + l))

/-- Send the USDO of the configuration step of peer i. -/
def Engine.sendStep (e : Engine) (i : Nat) : Engine :=
  let p := e.peer i
  if p.cfgStep = 0 then e
  else if p.cfgStep ≤ 4 then e.usdo i 1 0x1018 p.cfgStep []
  else if p.cfgStep = 5 then
    let (idx, sub, data) := scriptRecord (e.dom (peerIdx i) 0x0D) p.scriptOff
    e.usdo i 2 idx sub data
  else e.usdo i 2 0x1017 0 (toLe 2 (e.get (peerIdx i) 0x0A / 2))

/-- Configuration of peer i starts: state 1, from its first step. -/
def Engine.startConfig (e : Engine) (i : Nat) : Engine :=
  let e := (e.put (peerIdx i) 2 1).put (peerIdx i) 0x15 1
  (e.setPeer i { e.peer i with cfgStep := 1, retried := false, scriptOff := 0, idRead := [] }).sendStep i

/-- Step 8 of Dawn ends when every enabled profile is In use or Failed (R387). -/
def Engine.discovered (e : Engine) : Engine :=
  if e.atStep 8 ∧ e.dawn.discovery ∧ e.profiles.all (fun i => e.get (peerIdx i) 2 == 3 || e.get (peerIdx i) 2 == 5) then
    { e.endStep 8 with dawn.discovery := false }
  else e

/-- Configuration failed with an abort code (R388). -/
def Engine.configFailed (e : Engine) (i code : Nat) : Engine :=
  let e := e.setPeer i { e.peer i with cfgStep := 0 }
  let e := (((e.put (peerIdx i) 2 5).bump (peerIdx i) 0x13 1).put (peerIdx i) 0x14 code).raise 0x0F 2 i
  e.discovered

/-- Configuration done: NMT start, the consumer timer is armed; Standby, and with the job Idle or Held at once In use (R389). -/
def Engine.configDone (e : Engine) (i : Nat) : Engine :=
  let e := e.setPeer i { e.peer i with cfgStep := 0, armed := true }
  let e := (e.put (peerIdx i) 2 2).nmt (e.peerPort i) 1 i
  let e := if e.jobState = 0 ∨ e.jobState = 3 then (e.put (peerIdx i) 2 3).evalHolds else e
  e.discovered

/-- Whether profile i expects an address of vendor, product, revision and serial (R388). -/
def Engine.expects (e : Engine) (i : Nat) (a : List Nat) : Bool :=
  let want (s : Nat) : Nat := e.get (peerIdx i) s
  a.getD 0 0 == want 3 && a.getD 1 0 == want 4 && (want 5 == 0 || a.getD 2 0 == want 5) && (want 6 == 0 || a.getD 3 0 == want 6)

/-- The next step of a configuration, the one of `p` being answered. -/
def Engine.nextStep (e : Engine) (i : Nat) (p : Peer) : Engine :=
  let len := (e.dom (peerIdx i) 0x0D).length
  if p.cfgStep = 6 then e.configDone i
  else
    let st := if p.cfgStep < 4 then p.cfgStep + 1 else if p.scriptOff < len then 5 else 6
    (e.setPeer i { p with cfgStep := st, retried := false }).sendStep i

/-- USDO_CLIENT_RESPONSE: the step's answer, or an abort. -/
def Engine.usdoAnswer (e : Engine) (i : Nat) (data : List Byte) (abort : Nat) : Engine :=
  let p := e.peer i
  if e.get (peerIdx i) 2 ≠ 1 ∨ p.cfgStep = 0 ∨ !e.serving 2 then e
  else if abort ≠ 0 then e.configFailed i abort
  else if p.cfgStep ≤ 4 then
    let id := p.idRead ++ [le (data.take 4)]
    let p := { p with idRead := id }
    if p.cfgStep < 4 then e.nextStep i p
    else
      let e := (e.setPeer i p).setDom (peerIdx i) 0x0E (id.flatMap (toLe 4))
      if e.expects i id then e.nextStep i p
      else (e.setPeer i { p with cfgStep := 0 }).put (peerIdx i) 2 6
  else if p.cfgStep = 5 then
    let (_, _, d) := scriptRecord (e.dom (peerIdx i) 0x0D) p.scriptOff
    e.nextStep i { p with scriptOff := p.scriptOff + 4 + d.length }
  else e.nextStep i p

/-- R388. -/
def execUsdoClientResponse (i : Fin 128) (data : List Byte) (abort : BitVec 32) (s : State) : Host.Outcome State Fault Refusal :=
  onEngine (whenLive (fun e => e.usdoAnswer i.val data abort.toNat)) s

/-- USDO_CLIENT_TIMEOUT: one retry, then the configuration fails with 0504 0000h. -/
def Engine.usdoLate (e : Engine) (i : Nat) : Engine :=
  let p := e.peer i
  if e.get (peerIdx i) 2 ≠ 1 ∨ p.cfgStep = 0 ∨ !e.serving 2 then e
  else if p.retried then e.configFailed i abTime
  else (e.setPeer i { p with retried := true }).sendStep i

/-- R388. -/
def execUsdoClientTimeout (i : Fin 128) (s : State) : Host.Outcome State Fault Refusal :=
  onEngine (whenLive (fun e => e.usdoLate i.val)) s

/-! Heartbeats and boot-up (R389, R390) -/

/-- Peer i is lost: state 4, values stale, a departure, 0Fh:01h (its EMCY goes with the message, R322). -/
def Engine.peerLost (e : Engine) (i : Nat) : Engine :=
  let e := e.setPeer i { e.peer i with armed := false, cfgStep := 0, lossDue := false }
  (((e.put (peerIdx i) 2 4).put (peerIdx i) 0x15 1).bump (peerIdx i) 0x11 1).raise 0x0F 1 i

/-- HEARTBEAT_LOSS: the consumer timer expires; while partition 2 does not serve, the loss is delivered when it is ready (R27). -/
def Engine.timerExpired (e : Engine) (i : Nat) : Engine :=
  let st := e.get (peerIdx i) 2
  if !e.peerOn i ∨ !(e.peer i).armed ∨ st = 0 ∨ 4 ≤ st then e
  else if e.serving 2 then e.peerLost i
  else e.setPeer i { e.peer i with armed := false, lossDue := true }

/-- R390. -/
def execHeartbeatLoss (i : Fin 128) (s : State) : Host.Outcome State Fault Refusal :=
  onEngine (whenLive (fun e => e.timerExpired i.val)) s

/-- BOOTUP_RECEIVED: a found or returned peer is configured; one in use or in Standby is lost first. -/
def Engine.bootup (e : Engine) (i : Nat) : Engine :=
  let st := e.get (peerIdx i) 2
  if !e.peerOn i ∨ st = 6 then e
  else if !e.serving 2 then (if st = 2 ∨ st = 3 then e.setPeer i { e.peer i with armed := false, lossDue := true } else e)
  else if st = 2 ∨ st = 3 then (e.peerLost i).startConfig i
  else e.startConfig i

/-- R389. -/
def execBootupReceived (i : Fin 128) (s : State) : Host.Outcome State Fault Refusal :=
  onEngine (whenLive (fun e => e.bootup i.val)) s

/-- HEARTBEAT_RECEIVED: the timer restarts; a peer in Absent or Lost is configured; readiness may clear a hold. -/
def Engine.heartbeat (e : Engine) (i nmt : Nat) : Engine :=
  let st := e.get (peerIdx i) 2
  if !e.peerOn i then e
  else
    let e := e.setPeer i { e.peer i with nmt := nmt, armed := (e.peer i).armed || decide (st ≤ 4) }
    if (st = 0 ∨ st = 4) ∧ e.serving 2 then e.startConfig i
    else if st = 3 then e.evalHolds else e

/-- R389. -/
def execHeartbeatReceived (i : Fin 128) (nmt : Byte) (s : State) : Host.Outcome State Fault Refusal :=
  onEngine (whenLive (fun e => e.heartbeat i.val nmt.toNat)) s

/-- R383: the engine's heartbeat carries Operational from Dawn step 7 on, on every port that carries it (R381). -/
def execHeartbeatProduce (s : State) : Host.Outcome State Fault Refusal :=
  onEngine (whenLive (fun e =>
    if e.dawnStep < 7 then e else e.each e.netPorts (fun e p => e.send (.can p (0x700 + e.net.nodeId) [5])))) s

/-- Losses found while partition 2 did not serve are delivered, and configurations resume from their first step (R27, R393). -/
def Engine.deliverLosses (e : Engine) : Engine :=
  e.each e.profiles (fun e i =>
    if (e.peer i).lossDue then e.peerLost i
    else if e.get (peerIdx i) 2 = 1 then e.startConfig i else e)

/-! Other frames received (R382, R393) -/

/-- EMCY_RECEIVED from a peer with a profile. -/
def Engine.peerEmcy (e : Engine) (i code data : Nat) : Engine :=
  if e.peerOn i then (e.put (peerIdx i) 0x12 data).raise 0x0F 3 (i * 2 ^ 32 + code) else e

/-- R393. -/
def execEmcyReceived (i : Fin 128) (code : BitVec 16) (data : BitVec 64) (s : State) : Host.Outcome State Fault Refusal :=
  onEngine (whenLive (fun e => e.peerEmcy i.val code.toNat data.toNat)) s

/-- R382: ignored and counted; one to the engine or to all nodes wakes it (R353). -/
def execNmtCommandReceived (_cmd node : Byte) (s : State) : Host.Outcome State Fault Refusal :=
  onEngine (whenLive (fun e =>
    (if node.toNat = 0 ∨ node.toNat = e.net.nodeId then e.wake 4 else e).bump 0x5000 8 1)) s

/-! PDOs and SYNC (R412) -/

/-- Whether the PDO of a communication record is valid. -/
def Engine.pdoValid (e : Engine) (comm : Nat) : Bool := !bit (e.get comm 1) 31

/-- The mapped objects of a mapping record: index, subindex, bytes. -/
def Engine.mapped (e : Engine) (map : Nat) : List (Nat × Nat × Nat) :=
  (List.range (e.get map 0)).map (fun k => let v := e.get map (k + 1); (bits v 31 16, bits v 15 8, bits v 7 0 / 8))

/-- One value of an RPDO reaches its peer: only In use are PDOs used (R389). -/
def Engine.peerValue (e : Engine) (idx sub v : Nat) : Engine :=
  let i := idx - 0x5000
  if 0x5001 ≤ idx ∧ idx < 0x5080 ∧ 0x20 ≤ sub ∧ sub < 0x30 ∧ e.get idx 2 = 3 then
    let e := (e.put idx sub (v % 2 ^ 32)).put idx 0x15 0
    let p := e.peer i
    e.setPeer i { p with arrived := cellInsert (sub - 0x1F) e.now (cellErase (sub - 0x1F) p.arrived) }
  else e

/-- Spread the bytes of an RPDO over its mapped objects. -/
def Engine.spread (e : Engine) : List (Nat × Nat × Nat) → List Byte → Engine
  | [], _ => e
  | (idx, sub, n) :: r, bs => (e.peerValue idx sub (le (bs.take n))).spread r (bs.drop n)

/-- Take the data of RPDO n; one shorter than its mapping is ignored. -/
def Engine.takeRpdo (e : Engine) (n : Nat) (data : List Byte) : Engine :=
  let m := e.mapped (0x1600 + n)
  if data.length < (m.map (fun x => x.2.2)).foldl (· + ·) 0 then e else (e.spread m data).evalHolds

/-- RPDO_RECEIVED: at once, or with the next SYNC for a synchronous one. -/
def Engine.rpdo (e : Engine) (n : Nat) (data : List Byte) : Engine :=
  if !e.pdoValid (0x1400 + n) ∨ !e.serving 2 then e
  else if e.get (0x1400 + n) 2 ≤ 240 then { e with net.rpdoSync := cellInsert n data (cellErase n e.net.rpdoSync) }
  else e.takeRpdo n data

/-- R412. -/
def execRpdoReceived (n : Fin 16) (data : List Byte) (s : State) : Host.Outcome State Fault Refusal :=
  onEngine (whenLive (fun e => e.rpdo n.val data)) s

/-- The state of TPDO n. -/
def Engine.tpdo (e : Engine) (n : Nat) : Tpdo := cellGet (fun _ => {}) e.net.tpdos n
def Engine.setTpdo (e : Engine) (n : Nat) (x : Tpdo) : Engine := { e with net.tpdos := cellSet (fun _ => {}) e.net.tpdos n x }

/-- The bytes TPDO n carries. -/
def Engine.tpdoBytes (e : Engine) (n : Nat) : List Byte :=
  (e.mapped (0x1A00 + n)).flatMap (fun x => toLe x.2.2 (e.numRead x.1 x.2.1))

/-- Send TPDO n on the active port (R381). -/
def Engine.sendTpdo (e : Engine) (n : Nat) : Engine :=
  let bs := e.tpdoBytes n
  (e.setTpdo n { last := bs, sentAt := some e.now, syncs := 0 }).send (.can (e.get 0x5000 0x0D) (e.get (0x1800 + n) 1 % 2048) bs)

/-- Whether TPDO n is valid and maps something. -/
def Engine.tpdoOn (e : Engine) (n : Nat) : Bool := e.pdoValid (0x1800 + n) && e.get (0x1A00 + n) 0 != 0

/-- A SYNC reaches TPDO n: a synchronous one is sent with every 1st to 240th. -/
def Engine.tpdoSync (e : Engine) (n : Nat) : Engine :=
  let ty := e.get (0x1800 + n) 2
  let x := e.tpdo n
  if !e.tpdoOn n ∨ ty = 0 ∨ 240 < ty then e
  else if ty ≤ x.syncs + 1 then e.sendTpdo n
  else e.setTpdo n { x with syncs := x.syncs + 1 }

/-- SYNC_PERIOD: the producer sends SYNC with its counter on every port that carries it, a consumer receives it; then synchronous
RPDOs are taken and synchronous TPDOs sent. -/
def Engine.sync (e : Engine) (counter : Nat) : Engine :=
  let cob := e.get 0x1005 0
  let top := e.get 0x1019 0
  if bit cob 30 ∧ e.get 0x1006 0 = 0 then e
  else
    let c := if bit cob 30 then (if e.net.syncCount < top then e.net.syncCount + 1 else 1) else counter
    let e := if bit cob 30 then
        e.each e.netPorts (fun e p => e.send (.can p (cob % 2048) (if top = 0 then [] else toLe 1 c)))
      else e.wake 4
    let fr := e.net.rpdoSync
    let e : Engine := { e with net.syncCount := c, net.rpdoSync := [] }
    let e := fr.foldl (fun e p => e.takeRpdo p.1 p.2) e
    e.each (List.range 16) Engine.tpdoSync

/-- R412: partition 2 serves the PDOs. -/
def execSyncPeriod (counter : Byte) (s : State) : Host.Outcome State Fault Refusal :=
  onEngine (whenLive (fun e => if e.serving 2 then e.sync counter.toNat else e)) s

/-- Whether the inhibit time of TPDO n is over. -/
def Engine.tpdoFree (e : Engine) (n : Nat) : Bool :=
  match (e.tpdo n).sentAt with
  | some t => decide (t + e.get (0x1800 + n) 3 * 100 * refUs ≤ e.now)
  | none => true

/-- TPDO_EVENT_CHECK: an event-driven TPDO goes when a mapped value has changed and its inhibit time is over, or its event timer
(`timers`, bit n) has expired. -/
def Engine.eventCheck (e : Engine) (timers : Nat) : Engine :=
  e.each (List.range 16) (fun e n =>
    let due := bit timers n && e.get (0x1800 + n) 5 != 0
    if e.tpdoOn n ∧ 254 ≤ e.get (0x1800 + n) 2 ∧ (due ∨ ((e.tpdo n).last ≠ e.tpdoBytes n ∧ e.tpdoFree n)) then e.sendTpdo n else e)

/-- R412. -/
def execTpdoEventCheck (timers : BitVec 16) (s : State) : Host.Outcome State Fault Refusal :=
  onEngine (whenLive (fun e => if e.serving 2 then e.eventCheck timers.toNat else e)) s

/-! Ports (R381) -/

/-- The active port changes. -/
def Engine.changePort (e : Engine) : Engine := (e.put 0x5000 0x0D (1 - e.get 0x5000 0x0D)).bump 0x5000 7 1

/-- CAN_BUS_OFF: counted by port; the active port of a redundant pair changes. -/
def Engine.busOff (e : Engine) (port : Nat) : Engine :=
  if port = 1 ∧ e.net.portB = 0 then e
  else
    let v := e.get 0x5000 6
    let e := e.put 0x5000 6 (if port = 0 then v / 65536 * 65536 + satAdd 16 (v % 65536) 1
      else v % 65536 + satAdd 16 (v / 65536) 1 * 65536)
    if e.net.portB = 2 ∧ e.get 0x5000 0x0D = port then e.changePort else e

/-- R381. -/
def execCanBusOff (port : Bool) (s : State) : Host.Outcome State Fault Refusal :=
  onEngine (whenLive (fun e => e.busOff (ofBool port))) s

/-- R381. -/
def execActivePortSilence (s : State) : Host.Outcome State Fault Refusal :=
  onEngine (whenLive (fun e => if e.net.portB = 2 then e.changePort else e)) s

/-! Peer commands (R389) -/

/-- Command 1: in Idle or Held, of a peer in Failed. -/
def Engine.reconfigure (e : Engine) (i : Nat) : Engine :=
  if (e.jobState = 0 ∨ e.jobState = 3) ∧ e.peerOn i ∧ e.get (peerIdx i) 2 = 5 then (e.startConfig i).done else e.refuse abState

/-- Command 2: the identity read becomes the expected one. -/
def Engine.acceptIdentity (e : Engine) (i : Nat) : Engine :=
  if e.peerOn i ∧ e.get (peerIdx i) 2 = 6 then
    let id := (e.peer i).idRead
    let e := e.each [0, 1, 2, 3] (fun e k => e.put (peerIdx i) (3 + k) (id.getD k 0))
    (e.startConfig i).done
  else e.refuse abState

/-- Command 3: a mismatched peer returns to Absent. -/
def Engine.forget (e : Engine) (i : Nat) : Engine :=
  if e.peerOn i ∧ e.get (peerIdx i) 2 = 6 then (e.put (peerIdx i) 2 0).done else e.refuse abState

/-- R389. -/
def execPeerReconfigure (i : Fin 128) (s : State) : Host.Outcome State Fault Refusal :=
  onEngine (request 0x5000 (fun e => e.reconfigure i.val)) s

/-- R389. -/
def execPeerAcceptIdentity (i : Fin 128) (s : State) : Host.Outcome State Fault Refusal :=
  onEngine (request 0x5000 (fun e => e.acceptIdentity i.val)) s

/-- R389. -/
def execPeerForget (i : Fin 128) (s : State) : Host.Outcome State Fault Refusal :=
  onEngine (request 0x5000 (fun e => e.forget i.val)) s

/-! LSS (R387, R388) -/

/-- A Fastscan starts on a port. -/
def Engine.startScan (e : Engine) (p : Nat) : Engine :=
  (Engine.send { e with net.scan := cellSet (fun _ => false) e.net.scan p true } (.can p 0x7E5 (toLe 1 0x51 ++ List.replicate 4 0 ++ toLe 1 128)))

/-- A node found by Fastscan: given the lowest node-ID whose profile expects it, or placed in the unknown list. -/
def Engine.nodeFound (e : Engine) (p a : Nat) : Engine :=
  let addr := [a % 2 ^ 32, a / 2 ^ 32 % 2 ^ 32, a / 2 ^ 64 % 2 ^ 32, a / 2 ^ 96]
  let fits (i : Nat) : Bool := (e.net.portB != 1 || e.get (peerIdx i) 0x0F == p) &&
    (e.get (peerIdx i) 2 == 0 || e.get (peerIdx i) 2 == 4) && e.expects i addr
  match e.profiles.find? fits with
  | some i => (e.send (.can p 0x7E5 (toLe 1 0x11 ++ toLe 1 i))).startConfig i
  | none =>
    let l := e.dom 0x5000 0x0B
    let e := if l.length < 512 then e.setDom 0x5000 0x0B (l ++ toLe 16 a) else e
    e.raise 0x0F 2 0

/-- LSS_FASTSCAN_STEP: a node is identified, or no non-configured node replies and the scan ends. -/
def Engine.scanStep (e : Engine) (p : Nat) (found : Option Nat) : Engine :=
  if !cellGet (fun _ => false) e.net.scan p ∨ !e.serving 2 then e
  else
    match found with
    | some a => (e.nodeFound p a).startScan p
    | none => { e with net.scan := cellSet (fun _ => false) e.net.scan p false }

/-- R387. -/
def execLssFastscanStep (port : Bool) (found : Option (BitVec 128)) (s : State) : Host.Outcome State Fault Refusal :=
  onEngine (whenLive (fun e => e.scanStep (ofBool port) (found.map BitVec.toNat))) s

/-- LSS_IDENTIFY_TIMER: identify non-configured remote slave; a reply starts a Fastscan. -/
def Engine.identifyDue (e : Engine) (reply : Bool) : Engine :=
  if e.dawnStep < 8 ∨ !e.serving 2 then e
  else e.each e.managed (fun e p =>
    let e := e.send (.can p 0x7E5 (toLe 1 0x4C ++ List.replicate 7 0))
    if reply ∧ !cellGet (fun _ => false) e.net.scan p then e.startScan p else e)

/-- R387. -/
def execLssIdentifyTimer (reply : Bool) (s : State) : Host.Outcome State Fault Refusal :=
  onEngine (whenLive (fun e => e.identifyDue reply)) s

end Sys2Proof.Machine
end

