-- ==== Sys2Proof/Machine/Partitions.lean ====
section
/-! DEFINITION. Firmware images and the partitions that run them (R26-R30, R374-R376): verification, readiness, falling back. -/

namespace Sys2Proof.Machine

/-- The byte strings of an image header (R375). -/
def imageField (img : List Byte) (a n : Nat) : List Byte := (img.drop a).take n

/-- The version an image names. -/
def imageVersion (img : List Byte) : Nat := le (imageField img 8 4)

/-- Whether an image verifies for partition p (R375): fields in range, its partition, a usable key slot whose hash the key has,
and the signature over header and body. -/
def Engine.verifies (e : Engine) (p : Nat) (img : List Byte) : Bool :=
  let num (a n : Nat) : Nat := le (imageField img a n)
  let zero (a n : Nat) : Bool := (imageField img a n).all (· == 0)
  let len := num 0x0C 4
  let key := imageField img 0x40 97
  decide (512 ≤ img.length) && num 0 4 == 0x57465745 && num 4 1 == p && num 5 1 == 1 && num 7 1 == 0 &&
    decide (len ≤ 4194304 - 512) && decide (len + 512 ≤ img.length) && decide (num 0x10 4 < len) && zero 0x14 0x2C &&
    zero 0xA1 0x1F && zero 0x120 0xE0 && e.slotUsable (num 6 1) && Config.sha384 key == e.keyHash (num 6 1) &&
    Config.ecdsaP384 key (Config.sha384 (imageField img 0 0xC0 ++ imageField img 512 len)) (imageField img 0xC0 96)

/-- The image in slot k of partition p (R374). -/
def NonVol.image (n : NonVol) (p k : Nat) : List Byte := cellGet (fun _ => []) n.images (2 * p + k)

/-! The image entry (R27, R30) -/

/-- PARTITION_IMAGE_WRITE: stored in the inactive slot and checked; one that fails leaves nothing staged. While the partition
switches neither slot is inactive; at shedding stage 5 no boot-flash write is begun (R347). -/
def imageWrite (p : Nat) (img : List Byte) (s : State) : State :=
  let e := s.e
  let i := partIdx p
  if !e.live then s
  else if 4194304 < img.length then { s with e := e.refuse abLength }
  else if !e.serving 3 ∨ e.get i 4 = 2 ∨ 5 ≤ e.stage then { s with e := e.refuse abState }
  else
    let n : NonVol := { s.nv with images := cellSet (fun _ => []) s.nv.images (2 * p + e.otherSlot p) img }
    let st := e.get i 4
    if e.verifies p img then
      { s with nv := n, e := ((e.put i 3 (imageVersion img)).put i 4 (if st = 3 then 3 else 1)).done }
    else
      { s with nv := n, e := (((e.put i 3 0).put i 5 0).put i 4 (if st = 1 then 0 else st)).refuse abAction }

/-- R30. -/
def execPartitionImageWrite (p : Fin 4) (img : List Byte) (s : State) : Host.Outcome State Fault Refusal :=
  .next (imageWrite p.val img s)

/-! Ready (R26, R27) -/

/-- PARTITION_READY: entries are served again, losses that partition 2 has missed are delivered, and a boundary that the switch
holds goes on. -/
def Engine.partReady (e : Engine) (p : Nat) : Engine :=
  if bit e.dawn.partUp p ∨ e.dawnStep < 7 then e
  else
    let e := e.reportReady p
    let e := if p = 2 then e.deliverLosses else e
    if e.pan.holder = some p then Engine.boundaryRest { e with pan.holder := none } else e

/-- R27. -/
def execPartitionReady (p : Fin 4) (s : State) : Host.Outcome State Fault Refusal :=
  onSelectors (whenLive (fun e => e.partReady p.val)) s

/-! Falling back (R29, R377) -/

/-- In Dawn a partition that is not ready within 2 s restarts from its other slot, if that slot verified; else the engine is held
in reset. -/
def Engine.dawnFallback (e : Engine) (n : NonVol) (p : Nat) : Engine :=
  let k := e.otherSlot p
  if cellGet (fun _ => false) e.dawn.verified (2 * p + k) then (e.fallBack p).put (partIdx p) 2 (imageVersion (n.image p k))
  else { e with mode := .held 5 }

/-- PARTITION_FALLBACK: of an image that was switched to, or in Dawn of any. -/
def Engine.partFallback (e : Engine) (n : NonVol) (p : Nat) : Engine :=
  if bit e.dawn.partUp p ∨ e.dawnStep < 6 then e
  else if e.mode = .dawn then e.dawnFallback n p
  else if e.starting p = 1 then e.fallBack p
  else e

/-- R29. -/
def execPartitionFallback (p : Fin 4) (s : State) : Host.Outcome State Fault Refusal :=
  onSelectors (whenLive (fun e => e.partFallback s.nv p.val)) s

end Sys2Proof.Machine
end

