-- ==== Sys2Proof/Machine/Service.lean ====
section
/-! DEFINITION. Reading and writing a dictionary entry (R395-R400): the checks in their order, the classes of a write and what
follows from it. Entries whose write is a command of its own go to that command. -/

namespace Sys2Proof.Machine

/-! Abort codes (R399) -/

def abIndex : Nat := 0x06020000
def abSub : Nat := 0x06090011
def abWriteOnly : Nat := 0x06010001
def abSegment : Nat := 0x05040003
def abMap : Nat := 0x06040041
def abMapLength : Nat := 0x06040042
def abOther : Nat := 0x08000000

/-! Entries whose write is a command of its own -/

/-- Choose by a command number; another number is out of range (R399 step 7). -/
def Engine.choose (e : Engine) (v : Nat) (fs : List (Engine → Engine)) : Engine :=
  if v = 0 then e.refuse abValue
  else
    match fs[v - 1]? with
    | some f => f e
    | none => e.refuse abValue

/-- Command 3 of a context, as in R71. -/
def Engine.abortCommand (e : Engine) (c : Nat) : Engine := if e.ctxState c = 0 then e.refuse abState else (e.abortCtx c).done

/-- Watch command 3 (R219). -/
def Engine.abandonWatch (e : Engine) : Engine := if e.care.watch then (e.endWatch 3).done else e.refuse abState

/-- The verdict list is emptied (R227). -/
def Engine.emptyVerdicts (e : Engine) : Engine := Engine.done { (e.put 0x3420 0x0C 0) with care.verdictList := [] }

/-- Command entries of partition 0 (R51, R71, R107, R117, R136, R142, R143, R148, R208, R210). -/
def Engine.command0 (e : Engine) (idx sub v : Nat) (data : List Byte) : Option Engine :=
  if idx = 0x2200 ∧ sub = 1 then
    some (e.choose v [Engine.startJob, Engine.pauseJob, Engine.resumeJob, Engine.endAfterPanel, Engine.abortJob])
  else if idx = 0x2200 ∧ sub = 9 then some (e.put 0x2200 9 v).done
  else if idx = 0x2201 ∧ sub = 6 then
    some (if v = 0 then e.done else if v = 1 then e.armStaged else e.refuse abValue)
  else if 0x2300 ≤ idx ∧ idx < 0x2400 ∧ sub = 1 then
    let c := idx - 0x2300
    some (e.choose v [fun e => e.openCtx c, fun e => e.closeCommand c, fun e => e.abortCommand c, fun e => e.retryCtx c])
  else if 0x2410 ≤ idx ∧ idx < 0x2418 ∧ sub = 1 then some (e.toneCurve (idx - 0x2410) data)
  else if 0x2420 ≤ idx ∧ idx < 0x2428 ∧ sub = 3 then some (e.choose v [fun e => e.arrayLoad (idx - 0x2420)])
  else if idx = 0x2471 ∧ sub = 1 then
    some (e.choose v [Engine.proofArm, fun e => e.proofEnd false, fun e => e.proofEnd true, Engine.proofCancel])
  else if idx = 0x2471 ∧ sub = 7 then some (e.proofReadOffset v)
  else if 0x2510 ≤ idx ∧ idx < 0x2520 ∧ sub = 3 then some (e.choose v [fun e => e.maskLoad (idx - 0x2510)])
  else if idx = 0x2521 then
    some (e.choose v [fun e => e.headEclipse (sub - 1), fun e => e.cancelDrain (sub - 1)])
  else if idx = 0x2600 ∧ sub = 2 then some (e.windowWrite v)
  else if idx = 0x2601 ∧ sub = 5 then some (e.choose v [Engine.imageLoad, Engine.imageDump])
  else if 0x2100 ≤ idx ∧ idx < 0x2180 ∧ sub = 0x0D then
    some (e.choose v [fun e => e.beginReturn (idx - 0x2100), fun e => e.releaseHead (idx - 0x2100)])
  else if idx = 0x2704 ∧ sub = 5 then
    some (e.choose v [fun e => e.headMem 0x10, fun e => e.headMem 0x11, fun e => e.headMem 0x12, fun e => e.headMem 0x13])
  else none

/-- Command entries of partition 1 (R215, R218, R225, R237-R239, R251, R258, R260, R262). -/
def Engine.command1 (e : Engine) (idx sub v : Nat) : Option Engine :=
  if idx = 0x3420 ∧ sub = 2 then some (e.choose v [Engine.sweepNow])
  else if idx = 0x3420 ∧ sub = 0x0B then some (e.choose v [Engine.emptyVerdicts])
  else if idx = 0x3440 ∧ sub = 1 then
    some (e.choose v [fun e => e.startWatch false, fun e => e.startWatch true, Engine.abandonWatch])
  else if idx = 0x3460 ∧ sub = 2 then some (e.setTable v)
  else if 0x3000 ≤ idx ∧ idx < 0x3080 ∧ idx % 16 = 0 ∧ sub = 3 then
    let a := (idx - 0x3000) / 16
    some (e.choose v [fun e => e.enableAxis a, fun e => e.disableAxis a, fun e => e.moveAxis a, fun e => e.stopCommand a,
      fun e => e.setPosition a, fun e => e.resetAxis a])
  else if 0x3000 ≤ idx ∧ idx < 0x3080 ∧ idx % 16 = 0 ∧ sub = 8 then some (e.setFollow ((idx - 0x3000) / 16) v)
  else if 0x3200 ≤ idx ∧ idx < 0x3204 ∧ sub = 7 then some (e.choose v [fun e => e.clearTrip (idx - 0x3200)])
  else if 0x3210 ≤ idx ∧ idx < 0x3214 ∧ sub = 1 then
    let u := idx - 0x3210
    some (e.choose v [fun e => e.traceArm u, fun e => (e.traceTrig u).done, fun e => (e.traceEnd u 4).done])
  else if (0x3100 ≤ idx ∧ idx < 0x31C0 ∧ sub = 0x11) ∨ idx = 0x3408 then some (e.clearSticky idx sub v)
  else none

/-- Clear the error field list (R411). -/
def Engine.clearErrors (e : Engine) (v : Nat) : Engine :=
  if v ≠ 0 then e.refuse abValue else ((List.range 9).foldl (fun e i => e.put 0x1003 i 0) e).done

/-- Command entries of partitions 2 and 3 that touch nothing outside the engine (R284, R318, R319, R332, R333, R337, R361, R389,
R411). -/
def Engine.command23 (e : Engine) (idx sub v : Nat) : Option Engine :=
  if idx = 0x1003 ∧ sub = 0 then some (e.clearErrors v)
  else if 0x5001 ≤ idx ∧ idx < 0x5080 ∧ sub = 0x10 then
    let i := idx - 0x5000
    some (e.choose v [fun e => e.reconfigure i, fun e => e.acceptIdentity i, fun e => e.forget i])
  else if 0x4010 ≤ idx ∧ idx < 0x4014 ∧ sub = 0x10 then
    some (e.choose v [fun e => e.retrainNow (idx - 0x4010), fun e => e.migrateNow (idx - 0x4010)])
  else if idx = 0x4100 ∧ sub = 2 then some (e.ackSeq v)
  else if idx = 0x4100 ∧ sub = 3 then some (e.ackClass v)
  else if idx = 0x4100 ∧ sub = 9 then some (if 1 < v then e.refuse abValue else e.faultLWrite (v == 1))
  else if idx = 0x4200 ∧ sub = 6 then some (if v = 0 then (e.put 0x4200 6 (e.get 0x4200 1)).done else e.refuse abValue)
  else if idx = 0x4280 ∧ sub = 6 then some (e.choose v [Engine.armSync])
  else if 0x4281 ≤ idx ∧ idx < 0x4284 ∧ sub = 9 then some (e.choose v [fun e => e.relock (idx - 0x4281)])
  else if 0x4281 ≤ idx ∧ idx < 0x4284 ∧ 0x0D ≤ sub ∧ sub < 0x10 then some (e.delayWrite (idx - 0x4281) (sub - 0x0D) v)
  else if 0x4400 ≤ idx ∧ idx < 0x4404 ∧ sub = 5 then some (e.requestSwitch (idx - 0x4400) v)
  else none

/-- The command entries that stay within the engine. -/
def Engine.command (e : Engine) (idx sub v : Nat) (data : List Byte) : Option Engine :=
  if owner idx = 0 then e.command0 idx sub v data
  else if owner idx = 1 then e.command1 idx sub v
  else e.command23 idx sub v

/-! Checks of every other entry (R399) -/

/-- Whether the enable entry of a PLL output other than CLK_OUT is meant: the host does not write it (R332). -/
def clockEnable (idx sub : Nat) : Bool :=
  decide (0x4281 ≤ idx) && decide (idx < 0x4284) && decide (0x10 ≤ sub) && !(idx == 0x4282 && sub == 0x12)

/-- Whether an entry is writable only in Idle (R31 and the entries' own rules). -/
def EffectClass.idleOnly : EffectClass → Bool
  | .idle => true
  | .dawnIdle => true
  | .now => false
  | .staged => false
  | .launch => false
  | .dawn => false

/-- Step 6: the state conditions of an entry's rule (R71, R109, R120, R130, R257, R332, R385, R412). -/
def Engine.entryState (e : Engine) (d : DictRow) (idx sub v : Nat) : Bool :=
  let idle := e.jobState == 0
  if d.cls.idleOnly ∧ !idle then false
  else if 0x2300 ≤ idx ∧ idx < 0x2400 then e.ctxState (idx - 0x2300) == 0
  else if 0x2420 ≤ idx ∧ idx < 0x2428 ∧ (sub = 5 ∨ sub = 6) then !e.flag (idx - 0x10) 2
  else if idx = 0x2450 then
    (List.range 32).all (fun i => bit v i == bit (e.get idx sub) i || e.ctxState (32 * (sub - 1) + i) == 0)
  else if idx = 0x2471 then e.get idx 2 == 0 || decide (4 ≤ e.get idx 2)
  else if 0x3200 ≤ idx ∧ idx < 0x3204 ∧ sub = 1 then !e.flag (0x31BC + (idx - 0x3200)) 1
  else if 0x4281 ≤ idx ∧ idx < 0x4284 ∧ 0x0A ≤ sub ∧ sub < 0x0D then e.get 0x4300 1 == 1 && idle
  else if 0x5001 ≤ idx ∧ idx < 0x5080 ∧ sub ≠ 1 then e.get idx 2 != 3 || idle
  else if ((0x1400 ≤ idx ∧ idx < 0x1410) ∨ (0x1800 ≤ idx ∧ idx < 0x1810)) ∧ sub = 2 then !e.pdoValid idx
  else if (0x1600 ≤ idx ∧ idx < 0x1610) ∨ (0x1A00 ≤ idx ∧ idx < 0x1A10) then !e.pdoValid (idx - 0x200)
  else true

/-- Whether a mapping entry names an object that a TPDO, or an RPDO, may map, with its length (R412). -/
def mapOk (rpdo : Bool) (v : Nat) : Bool :=
  let idx := bits v 31 16
  let sub := bits v 15 8
  let n := bits v 7 0
  match dictRow idx sub with
  | none => false
  | some d =>
    [8, 16, 32, 64].contains n && n == 8 * d.ty.bytes &&
      (if rpdo then decide (0x5001 ≤ idx) && decide (idx < 0x5080) && decide (0x20 ≤ sub) && decide (sub < 0x30) else d.pdo)

/-- The abort code of a write to a mapping record, or 0 (R412). An entry written 0 maps nothing, as by default. -/
def Engine.mapCode (e : Engine) (idx sub v : Nat) : Nat :=
  let n := if sub = 0 then v else e.get idx 0
  let ent (k : Nat) : Nat := if k + 1 = sub then v else e.get idx (k + 1)
  if sub ≠ 0 ∧ v ≠ 0 ∧ !mapOk (decide (idx < 0x1A00)) v then abMap
  else if 64 < ((List.range n).map (fun k => bits (ent k) 7 0 / 8)).foldl (· + ·) 0 then abMapLength
  else 0

/-- Bytes of devices on a channel with an entry of 4000h at a new value (R266). -/
def Engine.channelBytes (e : Engine) (sub v : Nat) : Nat :=
  let x (k : Nat) : Nat := if k = sub then v else e.get 0x4000 k
  let m : Dram := { density := x 1, width := x 2, ranks := x 3 }
  m.rsize * m.ranks

/-- The consistency rules of step 7 (R228, R235, R252, R257, R260, R266, R385, R411 and the Range column): the value against the other
entries as a read returns them. -/
def Engine.consistent (e : Engine) (d : DictRow) (idx sub v : Nat) : Bool :=
  let other (i s : Nat) : Nat := e.shown (ekey i s)
  if 0x2180 ≤ idx ∧ idx < 0x2188 ∧ sub = 2 then decide (other idx 1 ≤ v)
  else if idx = 0x3420 ∧ sub = 5 then decide (other idx 4 ≤ v)
  else if 0x3000 ≤ idx ∧ idx < 0x3080 ∧ idx % 16 = 0 ∧ sub = 1 then
    let a := (idx - 0x3000) / 16
    if a < 2 then v == a + 1 else v == 0 || decide (3 ≤ v)
  else if 0x3003 ≤ idx ∧ idx < 0x3080 ∧ idx % 16 = 3 ∧ sub = 3 then decide (other idx 1 ≤ v)
  else if 0x3100 ≤ idx ∧ idx < 0x3180 ∧ sub = 0x0B then v == 1
  else if 0x3200 ≤ idx ∧ idx < 0x3204 ∧ sub = 4 then decide (v ≤ other idx 3)
  else if idx = 0x3405 then decide (other 0x3404 sub ≤ v)
  else if idx = 0x4000 then decide (e.channelBytes sub v ≤ 2 ^ 36)
  else if idx = 0x4211 ∧ (sub = 5 ∨ sub = 6) then decide (signed 16 (other idx (sub - 1)) ≤ d.ty.value v)
  else if 0x5001 ≤ idx ∧ idx < 0x5080 ∧ sub = 1 then v == 0 || idx != 0x5000 + e.net.nodeId
  else if idx = 0x1012 then !(bit v 31 && bit v 30)
  else true

/-- Step 7: the abort code of a numeric value, or 0. -/
def Engine.valueCode (e : Engine) (d : DictRow) (idx sub v : Nat) : Nat :=
  if !d.range.ok d.ty v ∨ !e.consistent d idx sub v then abValue
  else if (0x1600 ≤ idx ∧ idx < 0x1610) ∨ (0x1A00 ≤ idx ∧ idx < 0x1A10) then e.mapCode idx sub v
  else 0

/-- Step 7 of a DOMAIN (R165, R260, R373, R386). -/
def domOk (idx sub : Nat) (bs : List Byte) : Bool :=
  if 0x2440 ≤ idx ∧ idx < 0x2448 then
    bs.length == 256 &&
      (List.range 256).all (fun i => let b := (bs.getD i 0).toNat; decide (b < 8) && (i / 16 % 4 != 0 || b == 0))
  else if idx = 0x3409 then bs.length == 130
  else if 0x5001 ≤ idx ∧ idx < 0x5080 ∧ sub = 0x0D then scriptFills bs.length bs
  else if idx = 0x4310 then bs.length == 224
  else true

/-! Taking effect (R400) -/

/-- Whether an entry is staged: by its row, or a profile entry of axis 0 or 1 (R247), or a warming loop's band (R265). -/
def stagedEntry (d : DictRow) (idx sub : Nat) : Bool :=
  decide (d.cls = .staged) || idx == 0x3001 || idx == 0x3011 ||
    (decide (0x3100 ≤ idx) && decide (idx < 0x3180) && ((decide (2 ≤ sub) && decide (sub ≤ 7)) || sub == 0x12))

/-- Apply in Idle what `stage` stages, and only that (R400): what a job left staged stays held. -/
def Engine.applyAlone (e : Engine) (stage : Engine → Engine) : Engine :=
  let held := (List.range 8).map (fun b => (e.bankScr b).stagedThr)
  let clear (e : Engine) : Engine := e.each (List.range 8) (fun e b => e.setBankScr b { e.bankScr b with stagedThr := none })
  let back (e : Engine) : Engine :=
    e.each (List.range 8) (fun e b => e.setBankScr b { e.bankScr b with stagedThr := held.getD b none })
  let d := e.d
  let e := (stage (clear { e with d.staged := [], d.stagedDom := [] }))
  let nums := e.d.staged.map (·.1)
  let doms := e.d.stagedDom.map (·.1)
  let e := back e.applyStagedWrites
  { e with d.staged := d.staged.filter (fun p => !nums.contains p.1), d.stagedDom := d.stagedDom.filter (fun p => !doms.contains p.1) }

/-- Hold a staged number, or bytes. -/
def Engine.stageNum (e : Engine) (k v : Nat) : Engine := { e with d.staged := cellSet (fun _ => none) e.d.staged k (some v) }
def Engine.stageDom (e : Engine) (k : Nat) (bs : List Byte) : Engine :=
  { e with d.stagedDom := cellSet (fun _ => none) e.d.stagedDom k (some bs) }

/-- The enable of loop l is written: its timers start anew, and its restriction changes (R248, R253). -/
def Engine.loopSwitched (e : Engine) (l : Nat) : Engine :=
  let e := (e.setLoop l { e.loop l with lastEval := e.now, feTime := 0, feRaised := false }).evalLoop l
  if l < 128 then e.idleWarm l else e

/-- A profile is enabled or disabled (R385, R389): the peer is Absent. -/
def Engine.profileSwitched (e : Engine) (i : Nat) : Engine :=
  ((e.setPeer i {}).put (peerIdx i) 2 0).put (peerIdx i) 0x15 1 |>.evalHolds

/-- What follows at once from a write of an entry that takes effect when answered; `old` is the value before. -/
def Engine.follows (e : Engine) (idx sub old v : Nat) : Engine :=
  if 0x3100 ≤ idx ∧ idx < 0x31C0 ∧ sub = 1 then (if old = v then e else e.loopSwitched (idx - 0x3100))
  else if 0x3180 ≤ idx ∧ idx < 0x31C0 ∧ sub = 2 then e.spWrite (idx - 0x3100)
  else if 0x3200 ≤ idx ∧ idx < 0x3204 ∧ sub = 1 then
    (if v = 0 then e.put idx 6 (if e.hvTripped (idx - 0x3200) then 2 else 0) else e)
  else if 0x3000 ≤ idx ∧ idx < 0x3080 ∧ idx % 16 = 0 ∧ sub = 1 then (if old = v then e else e.put (idx + 2) 1 0)
  else if idx = 0x4280 ∧ sub = 4 then (if v = 0 then e.put 0x4280 5 0 else e)
  else if 0x5001 ≤ idx ∧ idx < 0x5080 ∧ sub = 1 then (if old = v then e else e.profileSwitched (idx - 0x5000))
  else e

/-- Store a number in the class of its entry. While Dawn applies the stored dictionary every write is immediate (R409). -/
def Engine.storeNum (e : Engine) (d : DictRow) (idx sub v : Nat) : Engine :=
  let k := ekey idx sub
  if stagedEntry d idx sub then (if e.jobState = 0 then e.applyAlone (fun e => e.stageNum k v) else e.stageNum k v)
  else if d.cls = .launch ∧ e.mode = .running then { e with d.atLaunch := cellSet (fun _ => none) e.d.atLaunch k (some v) }
  else (e.put idx sub v).follows idx sub (e.get idx sub) v

/-- Store the bytes of a DOMAIN in the class of its entry. -/
def Engine.storeDom (e : Engine) (d : DictRow) (idx sub : Nat) (bs : List Byte) : Engine :=
  if d.cls = .staged then
    (if e.jobState = 0 then e.applyAlone (fun e => e.stageDom (ekey idx sub) bs) else e.stageDom (ekey idx sub) bs)
  else e.setDom idx sub bs

/-- Steps 6 and 7, and the effect, of a write to an entry without a command of its own. -/
def Engine.writeEntry (e : Engine) (d : DictRow) (idx sub : Nat) (data : List Byte) : Engine :=
  if d.ty.numeric then
    let v := le data
    let code := e.valueCode d idx sub v
    if !e.entryState d idx sub v then e.refuse abState
    else if code ≠ 0 then e.refuse code
    else (e.storeNum d idx sub v).done
  else if !e.entryState d idx sub 0 then e.refuse abState
  else if !domOk idx sub data then e.refuse abValue
  else (e.storeDom d idx sub data).done

/-! Requests -/

/-- The largest DOMAIN an entry takes (R397). -/
def DictType.maxLength : DictType → Nat
  | .dom n => n
  | .bool | .u8 | .u16 | .u32 | .u64 | .i16 | .i32 | .str => 0

/-- Steps 1 to 5 of a write: the abort code or 0. -/
def Engine.writeCode (e : Engine) (idx sub n : Nat) : Nat :=
  if !indexExists idx then abIndex
  else
    match dictRow idx sub with
    | none => abSub
    | some d =>
      if d.acc = .ro ∨ d.acc = .const ∨ clockEnable idx sub then abReadOnly
      else if (d.ty.numeric ∧ n ≠ d.ty.bytes) ∨ (!d.ty.numeric ∧ d.ty.maxLength < n) then abLength
      else if !e.serving (owner idx) then abState
      else 0

/-- Steps 1 to 3 and 5 of a read. -/
def Engine.readCode (e : Engine) (idx sub : Nat) : Nat :=
  if !indexExists idx then abIndex
  else
    match dictRow idx sub with
    | none => abSub
    | some d => if d.acc = .wo then abWriteOnly else if !e.serving (owner idx) then abState else 0

/-- A read of an entry: the staging window advances as it is read (R142). -/
def Engine.serveRead (e : Engine) (idx sub : Nat) : Engine :=
  let code := e.readCode idx sub
  if code ≠ 0 then e.refuse code
  else if idx = 0x2600 ∧ sub = 2 then e.windowRead
  else if e.readFails idx sub then e.refuse abAction
  else
    match dictRow idx sub with
    | some d => e.answer (e.readBytes d idx sub)
    | none => e.refuse abSub

/-- A free bit, for what a command needs from outside and a plain write does not carry: the pulse supply (log entry 2, DESIGN CHOICE). -/
def Engine.freeFlag (e : Engine) : Bool × Engine := (bit e.freeVal.toNat 0, e.useFree)

/-- Fuse command v of 4302h:03h (R366, R367). -/
def fuseWrite (v : Nat) (s : State) : State :=
  let (supply, e) := s.e.freeFlag
  let s1 := { s with e := e }
  let w := e.get 0x4302 1
  if v = 1 then fuseCommand (regionOf w) supply (fun n => programWord n w (e.get 0x4302 2) []) s1
  else if v = 2 then fuseCommand (regionOf w) supply (fun n => sealWord n w []) s1
  else if v = 3 then fuseCommand (e.get 0x4302 4) supply (fun n => lockRegion n (e.get 0x4302 4) []) s1
  else { s with e := s.e.refuse abValue }

/-! The dictionary store (R407, R408) -/

/-- Whether a store keeps an entry (R410); one that the host cannot write is not kept. -/
def keptRow (d : DictRow) (idx sub : Nat) : Bool := d.stored && decide (d.acc = .rw) && !clockEnable idx sub

/-- The storable entries of an index, ascending. -/
def keptOf (idx : Nat) : List (Nat × Nat × DictRow) :=
  ((rowsIn idx dictGroups).getD []).flatMap (fun d =>
    ((List.range d.n).map (fun i => (idx, d.sub + i, d))).filter (fun x => keptRow d idx x.2.1))

/-- Whether a group (1 all, 2 communication, 3 application) takes in an index. -/
def inGroup (g idx : Nat) : Bool := g == 1 || (g == 2 && decide (idx < 0x2000)) || (g == 3 && decide (0x2000 ≤ idx))

/-- The 8 header bytes and the value of a record. -/
def recordOf (idx sub : Nat) (bs : List Byte) : List Byte := toLe 2 idx ++ toLe 1 sub ++ [0] ++ toLe 4 bs.length ++ bs

/-- The records of a group, as a read returns the values. -/
def Engine.groupRecords (e : Engine) (g : Nat) : List Byte :=
  ((List.range 0x4080).map (· + 0x1000)).flatMap (fun idx =>
    if inGroup g idx then
      (keptOf idx).flatMap (fun x => recordOf idx x.2.1
        (if x.2.2.ty.numeric then toLe x.2.2.ty.bytes (e.shown (ekey idx x.2.1)) else e.shownDom idx x.2.1))
    else [])

/-- The records in bytes: index, subindex and value. -/
def parseRecords : Nat → List Byte → List (Nat × Nat × List Byte)
  | 0, _ => []
  | n + 1, bs =>
    if bs.length < 8 then []
    else
      let l := le ((bs.drop 4).take 4)
      (le (bs.take 2), le ((bs.drop 2).take 1), (bs.drop 8).take l) :: parseRecords n (bs.drop (8 + l))

/-- Sequence, group flags and records of a copy, if it is valid. -/
def parseCopy (bs : List Byte) : Option (Nat × Nat × List (Nat × Nat × List Byte)) :=
  let num (a n : Nat) : Nat := le ((bs.drop a).take n)
  let len := num 8 4
  let rs := (bs.drop 64).take len
  if 64 ≤ bs.length ∧ num 0 4 = 0x57445354 ∧ 64 + len ≤ bs.length ∧ crc32c (bs.take 12 ++ rs) = num 12 4 then
    some (num 4 4, num 16 1, parseRecords rs.length rs)
  else none

/-- Copy k of the store. -/
def NonVol.copy (n : NonVol) (k : Nat) : Option (Nat × Nat × List (Nat × Nat × List Byte)) :=
  parseCopy (cellGet (fun _ => []) n.copies k)

/-- The current copy (R408): valid, and of two valid ones the one whose sequence is ahead by less than 2³¹. -/
def NonVol.currentCopy (n : NonVol) : Option Nat :=
  match n.copy 0, n.copy 1 with
  | none, none => none
  | some _, none => some 0
  | none, some _ => some 1
  | some a, some b => some (if (a.1 + 2 ^ 32 - b.1) % 2 ^ 32 < 2 ^ 31 then 0 else 1)

/-- The bytes of a copy. -/
def copyBytes (seq flags : Nat) (rs : List Byte) : List Byte :=
  let head := toLe 4 0x57445354 ++ toLe 4 seq ++ toLe 4 rs.length
  head ++ toLe 4 (crc32c (head ++ rs)) ++ toLe 1 flags ++ List.replicate 47 0 ++ rs

/-- The copy a store (`save`) or a restore of group g writes: the records of the other group are those of the current copy. -/
def newCopy (save : Bool) (g : Nat) (n : NonVol) (e : Engine) : Nat × List Byte :=
  let cur := n.currentCopy.bind n.copy
  let seq := (match cur with | some c => c.1 + 1 | none => 1) % 2 ^ 32
  let old := match cur with | some c => c.2.1 | none => 0
  let keep (low : Bool) : List Byte := match cur with
    | some c => (c.2.2.filter (fun r => decide (r.1 < 0x2000) == low)).flatMap (fun r => recordOf r.1 r.2.1 r.2.2)
    | none => []
  let part (i k : Nat) (low : Bool) : List Byte :=
    if g = 1 ∨ g = k then (if save then e.groupRecords k else []) else if bit old i then keep low else []
  let flag (i k : Nat) : Bool := if g = 1 ∨ g = k then save else bit old i
  (seq, copyBytes seq (ofBool (flag 0 2) + 2 * ofBool (flag 1 3)) (part 0 2 true ++ part 1 3 false))

/-- A store or a restore (R407): written to the copy not in use, read back (`ok`), and then current. -/
def storeDict (save : Bool) (g v : Nat) (ok : Bool) (s : State) : State :=
  let e := s.e
  let busy := [0, 1, 2, 3].any (fun p => e.get (partIdx p) 4 == 2) || !e.integ.flashDue.isEmpty || decide (4 ≤ e.stage)
  if g = 0 ∨ 3 < g then { s with e := e.refuse abSub }
  else if busy then { s with e := e.refuse abState }
  else if v ≠ (if save then 0x65766173 else 0x64616F6C) then { s with e := e.refuse abAction }
  else
    let (seq, bs) := newCopy save g s.nv e
    let k := if s.nv.currentCopy = some 0 then 1 else 0
    if 2 ^ 20 < bs.length then { s with e := e.refuse abAction }
    else if !ok then
      { s with nv := { s.nv with copies := cellErase k s.nv.copies }, e := (e.bump 0x2003 7 1).refuse abAction }
    else
      let e := (e.put 0x2003 2 seq).put 0x2003 3 k
      { s with nv := { s.nv with copies := cellSet (fun _ => []) s.nv.copies k bs },
               e := (if save then e.bump 0x2003 6 1 else e).done }

/-- A request of partition 2 on the state. -/
def onRequest (idx : Nat) (f : State → State) (s : State) : State :=
  if !s.e.live then s else if s.e.serving (owner idx) then f s else { s with e := s.e.refuse abState }

/-- R407. -/
def execDictionaryStore (group : Byte) (v : BitVec 32) (readbackOk : Bool) (s : State) : Host.Outcome State Fault Refusal :=
  .next (onRequest 0x1010 (storeDict true group.toNat v.toNat readbackOk) s)

/-- R407. -/
def execDictionaryRestore (group : Byte) (v : BitVec 32) (readbackOk : Bool) (s : State) : Host.Outcome State Fault Refusal :=
  .next (onRequest 0x1011 (storeDict false group.toNat v.toNat readbackOk) s)

/-- R411. -/
def execErrorListClear (v : Byte) (s : State) : Host.Outcome State Fault Refusal :=
  onEngine (request 0x1003 (fun e => e.clearErrors v.toNat)) s

/-! A write, whole -/

/-- A write that R399's first five steps let pass: a command entry that reaches fuses or flash, a command entry of the engine, or an
entry that holds a value. -/
def writeChecked (idx sub : Nat) (data : List Byte) (s : State) : State :=
  let v := le data
  if idx = 0x4302 ∧ sub = 3 then fuseWrite v s
  else if idx = 0x4310 ∧ sub = 1 then
    let (supply, e) := s.e.freeFlag
    transition v supply { s with e := e }
  else if idx = 0x4310 ∧ sub = 6 then
    let (supply, e) := s.e.freeFlag
    if v = 1 then revoke supply { s with e := e } else { s with e := s.e.refuse abValue }
  else if 0x4400 ≤ idx ∧ idx < 0x4404 ∧ sub = 7 then imageWrite (idx - 0x4400) data s
  else if idx = 0x1010 ∨ idx = 0x1011 then
    let (ok, e) := s.e.freeFlag
    storeDict (idx == 0x1010) sub v ok { s with e := e }
  else
    match s.e.command idx sub v data with
    | some e => { s with e := e }
    | none =>
      match dictRow idx sub with
      | some d => { s with e := s.e.writeEntry d idx sub data }
      | none => s

/-- A write request: the checks in their order, then the write. -/
def serveWrite (idx sub : Nat) (data : List Byte) (s : State) : State :=
  let code := s.e.writeCode idx sub data.length
  if code ≠ 0 then { s with e := s.e.refuse code } else writeChecked idx sub data s

/-- R399, R400. -/
def execDictionaryWrite (idx : BitVec 16) (sub : Byte) (data : List Byte) (s : State) : Host.Outcome State Fault Refusal :=
  .next (if s.e.live then serveWrite idx.toNat sub.toNat data s else s)

end Sys2Proof.Machine
end

