-- ==== Sys2Proof/Machine/Dawn.lean ====
section
/-! DEFINITION. Dawn from step 3 on (R280, R287, R295, R376, R377, R387, R409). Step 2 is in Fuses.lean, step 4 in Clocks.lean. -/

namespace Sys2Proof.Machine

/-! Step 3: the wipe (R295, R377) -/

/-- DAWN_WIPE: every on-chip word is 0, as the reset left it; Notices of corrected fuse words; a VOID engine stops here; the PLLs
begin to lock. -/
def Engine.wiped (e : Engine) : Engine :=
  if !e.atStep 3 then e
  else
    let due := e.dawn.noticesDue
    let e : Engine := { e with dawn.noticesDue := [] }
    let e := (due.foldl (fun e w => e.raise 0x0E 1 w) e).endStep 3
    if e.get 0x4300 1 = 4 then { e with mode := .held 2 }
    else e.each [0, 1, 2] Engine.pllSearch

/-- R295. -/
def execDawnWipe (s : State) : Host.Outcome State Fault Refusal := onEngine (whenLive Engine.wiped) s

/-! Step 5: the boot ROM (R376) -/

/-- What the boot ROM makes of a partition: slot, fallback count, whether a fallback is to be reported, whether an image verified. -/
structure BootChoice where
  slot : Nat := 0
  count : Nat := 0
  due : Bool := false
  ok : Bool := true
  deriving DecidableEq, Repr

/-- The slot taken for partition p: the other one with TRIAL set, the other one again where the image does not verify. -/
def bootChoice (n : NonVol) (e : Engine) (p : Nat) : BootChoice :=
  let sel := cellGet (fun _ => 0) n.slot p % 2
  let trial := cellGet (fun _ => false) n.trial p
  let k := if trial then 1 - sel else sel
  let c := satAdd 16 (cellGet (fun _ => 0) n.fallbacks p) (ofBool trial)
  let good (k : Nat) : Bool := e.verifies p (n.image p k)
  if good k then { slot := k, count := c, due := trial }
  else if good (1 - k) then { slot := 1 - k, count := satAdd 16 c 1, due := true }
  else { ok := false }

/-- A verified image is loaded: slot, version, fallback count (R30). -/
def Engine.loadImage (n : NonVol) (e : Engine) (p : Nat) : Engine :=
  let b := bootChoice n e p
  let i := partIdx p
  let e := ((e.put i 1 b.slot).put i 2 (imageVersion (n.image p b.slot))).put i 6 b.count
  let seen := ([0, 1].filter (fun k => e.verifies p (n.image p k))).map (fun k => (2 * p + k, true))
  let e : Engine := { e with dawn.verified := cellSetAll (fun _ => false) seen e.dawn.verified }
  if b.due then { e.setStarting p 2 with dawn.fallbackDue := e.dawn.fallbackDue ++ [p] } else e.setStarting p 0

/-- A remap record of position k (R299): its entry where CRC-16, group and slot match. -/
def recordEntry (k : Nat) (bs : List Byte) : Option Nat :=
  if bs.length = 8 ∧ le (bs.drop 6) = crc16 (bs.take 6) ∧ le ((bs.drop 4).take 1) = k / 16 ∧ le ((bs.drop 5).take 1) = k % 16 then
    some (le (bs.take 4))
  else none

/-- Load the remap records; a written one that is not in order is skipped and counted, an erased position is not. -/
def Engine.loadRecords (n : NonVol) (e : Engine) : Engine :=
  let e := e.each (List.range 128) (fun e k =>
    let bs := cellGet (fun _ => []) n.records k
    if bs = [] then e
    else
      match recordEntry k bs with
      | none => e.bump 0x4020 6 1
      | some v =>
        if bit v 31 then
          { e.put 0x4020 5 (e.get 0x4020 5 + 1) with integ.remap := cellSet (fun _ => 0) e.integ.remap k v }
        else e)
  e.each (List.range 8) Engine.publishRemap

/-- Note a stored record that is not taken (R409). -/
def Engine.rejectRecord (e : Engine) (idx sub : Nat) : Engine :=
  let l := e.dom 0x2003 5
  let e := e.bump 0x2003 4 1
  if l.length < 1024 then e.setDom 0x2003 5 (l ++ toLe 4 (idx * 65536 + sub * 256)) else e

/-- Whether an entry is read at step 5: 4000h and 5000h:01h–04h (R409). -/
def bootEntry (idx sub : Nat) : Bool := idx == 0x4000 || (idx == 0x5000 && decide (sub ≤ 4))

/-- Whether the group of an index is stored, by the flags of a copy (R408). -/
def groupStored (flags idx : Nat) : Bool := if idx < 0x2000 then bit flags 0 else bit flags 1

/-- The records of the current copy that Dawn takes. -/
def NonVol.storedRecords (n : NonVol) : List (Nat × Nat × List Byte) :=
  match n.currentCopy.bind n.copy with
  | some c => c.2.2.filter (fun r => groupStored c.2.1 r.1)
  | none => []

/-- Take a configuration record: type, length and range are checked. -/
def Engine.takeConfig (e : Engine) (r : Nat × Nat × List Byte) : Engine :=
  match dictRow r.1 r.2.1 with
  | some d =>
    if d.ty.numeric ∧ r.2.2.length = d.ty.bytes ∧ keptRow d r.1 r.2.1 ∧ d.range.ok d.ty (le r.2.2) then e.put r.1 r.2.1 (le r.2.2)
    else e.rejectRecord r.1 r.2.1
  | none => e.rejectRecord r.1 r.2.1

/-- DAWN_BOOT_ROM: images, remap records, configuration. -/
def Engine.bootRom (n : NonVol) (e : Engine) : Engine :=
  if !e.atStep 5 then e
  else if !n.header then { e with mode := .held 6 }
  else if [0, 1, 2, 3].any (fun p => !(bootChoice n e p).ok) then { e with mode := .held 4 }
  else
    let e := e.each [0, 1, 2, 3] (fun e p => e.loadImage n p)
    let e := e.loadRecords n
    let e := (n.storedRecords.filter (fun r => bootEntry r.1 r.2.1)).foldl Engine.takeConfig e
    let e : Engine := { e with net.nodeId := e.get 0x5000 1, net.portB := e.get 0x5000 4 }
    e.endStep 5

/-- R376: the selectors follow what was booted. -/
def execDawnBootRom (s : State) : Host.Outcome State Fault Refusal := onSelectors (whenLive (Engine.bootRom s.nv)) s

/-! Step 6: DRAM training (R267, R280, R287) -/

/-- The memory configuration of 4000h (R266). -/
def Engine.memConfig (e : Engine) : Engine :=
  let g (k : Nat) : Nat := e.get 0x4000 k
  { e with mem.density := g 1, mem.width := g 2, mem.ranks := g 3, mem.spare := g 4, mem.grain := g 5, mem.seed := g 6,
           mem.fitted := g 7 }

/-- A channel that trains: its ranks but the spare serve. -/
def Engine.channelUp (e : Engine) (ch : Nat) : Engine :=
  let m := e.mem
  let ranks := (List.range m.ranks).filter (fun r => !(m.hasSpare && r == m.spare))
  let e := e.setChan ch { e.chan ch with up := true, lrank := ranks, trainedTemp := e.getI 16 0x4211 1 }
  ((e.put (chanIdx ch) 1 1).put (chanIdx ch) 9 e.now).put (chanIdx ch) 0x0A (if m.hasSpare then m.spare else 0xff)

/-- DAWN_DRAM_TRAINING: `trained` names the channels that find a working setting. Without one Dawn stops with DAWN_STEP at 5. -/
def Engine.trainDram (e : Engine) (trained : Nat) : Engine :=
  if !e.atStep 6 ∨ [0, 1, 2, 3].any (fun c => e.get (chanIdx c) 1 == 4) then e
  else
    let e := e.memConfig
    let fitted := [0, 1, 2, 3].filter (fun c => bit e.mem.fitted c)
    let good := fitted.filter (fun c => bit trained c)
    let bad := fitted.filter (fun c => !bit trained c)
    let e := e.each bad (fun e c => e.put (chanIdx c) 1 4)
    if good.isEmpty then e.raise 9 4 (detailM 0 0 0)
    else
      let e := e.each bad (fun e c => e.raise 9 3 (detailM c 0 0))
      let e := e.each good Engine.channelUp
      let e : Engine := { e.dramMark with mem.trained := true }
      (((e.put 0x4001 1 0).put 0x4001 5 0).publishDram).endStep 6

/-- R280. -/
def execDawnDramTraining (trained : BitVec 4) (s : State) : Host.Outcome State Fault Refusal :=
  onEngine (whenLive (fun e => e.trainDram trained.toNat)) s

/-! Step 7: partitions and the stored dictionary (R377, R409) -/

/-- Apply one stored record as a write with the job Idle; one that fails R399, or names no stored entry, is skipped and listed. -/
def applyRecord (s : State) (r : Nat × Nat × List Byte) : State :=
  match dictRow r.1 r.2.1 with
  | some d =>
    if keptRow d r.1 r.2.1 then
      let s := serveWrite r.1 r.2.1 r.2.2 s
      if s.e.sdo = 0 then s else { s with e := s.e.rejectRecord r.1 r.2.1 }
    else { s with e := s.e.rejectRecord r.1 r.2.1 }
  | none => { s with e := s.e.rejectRecord r.1 r.2.1 }

/-- The partitions report ready, the fallbacks of step 5 are reported. -/
def Engine.partitionsUp (e : Engine) : Engine :=
  let due := e.dawn.fallbackDue
  let e : Engine := { e with dawn.fallbackDue := [] }
  (due.foldl (fun e p => e.raise 0x0B 2 p) e).each [0, 1, 2, 3] Engine.reportReady

/-- DAWN_PARTITION_START. The answers of the writes go to nobody. -/
def startPartitions (s : State) : State :=
  if !s.e.live ∨ !s.e.atStep 7 then s
  else
    let e := s.e.partitionsUp
    let cur := s.nv.currentCopy
    let e := (e.put 0x2003 2 (((cur.bind s.nv.copy).map (·.1)).getD 0)).put 0x2003 3 (cur.getD 0xff)
    let rs := s.nv.storedRecords.filter (fun r => !bootEntry r.1 r.2.1)
    let s1 := rs.foldl applyRecord { s with e := e }
    { s1 with e := { s1.e with sdo := e.sdo, sdoData := e.sdoData }.endStep 7 }

/-- R409. -/
def execDawnPartitionStart (s : State) : Host.Outcome State Fault Refusal := .next (startPartitions s)

/-! Steps 8 and 9: peers and heads (R209, R387) -/

/-- DAWN_PEER_DISCOVERY: NMT reset communication to all nodes, then Fastscan, on each port in use. -/
def Engine.discoverPeers (e : Engine) : Engine :=
  if !e.atStep 8 ∨ e.dawn.discovery then e
  else
    let e := e.each e.managed (fun e p => (e.nmt p 0x82 0).startScan p)
    Engine.discovered { e with dawn.discovery := true }

/-- R387. -/
def execDawnPeerDiscovery (s : State) : Host.Outcome State Fault Refusal := onEngine (whenLive Engine.discoverPeers) s

/-- DAWN_DISCOVERY_TIMEOUT: step 8 ends; what is not finished goes on. -/
def Engine.discoveryOver (e : Engine) : Engine :=
  if e.atStep 8 ∧ e.dawn.discovery then { e.endStep 8 with dawn.discovery := false } else e

/-- R387. -/
def execDawnDiscoveryTimeout (s : State) : Host.Outcome State Fault Refusal := onEngine (whenLive Engine.discoveryOver) s

/-- DAWN_HEAD_DISCOVERY: heads whose receiver is up are Quarantined, the others absent. -/
def Engine.discoverHeads (e : Engine) : Engine :=
  if !e.atStep 9 then e
  else
    let e := e.each (List.range 128) (fun e h => if e.rxUp h then e.enterQuarantine h else e.setSvc h 6)
    (e.endStep 9).dawnEnds

/-- R209. -/
def execDawnHeadDiscovery (s : State) : Host.Outcome State Fault Refusal := onEngine (whenLive Engine.discoverHeads) s

end Sys2Proof.Machine
end

