-- ==== Sys2Proof/Machine/Host.lean ====
section
/-! DEFINITION. The host's registers and channels as commands (R57-R78). -/

namespace Sys2Proof.Machine

/-! Reads that clear (R11) -/

/-- R60: BAR2_ERR. -/
def execBar2ErrRead (s : State) : Host.Outcome State Fault Refusal :=
  onEngine (whenLive (fun e => { e with readData := e.host.bar2Err, host.bar2Err := 0 })) s

/-- R61, R69: SURPLUS of channel d. -/
def execSurplusRead (d : Fin 36) (s : State) : Host.Outcome State Fault Refusal :=
  onEngine (whenLive (fun e =>
    { (e.setDma d.val { e.dma d.val with surplus := 0 }) with readData := (e.dma d.val).surplus })) s

/-- R77: DROPPED. -/
def execDroppedRead (s : State) : Host.Outcome State Fault Refusal :=
  onEngine (whenLive (fun e => { e with readData := e.host.dropped, host.dropped := 0 })) s

/-! RW1C bits (R11) -/

/-- Clear the RW1C bits of STATUS of host channel `d` that `v` names (R61). -/
def Engine.clearDmaStatus (e : Engine) (d v : Nat) : Engine :=
  let x := e.dma d
  e.setDma d { x with done := x.done && !bit v 8, atEndEvt := x.atEndEvt && !bit v 9,
                      stoppedEvt := x.stoppedEvt && !bit v 10, errorEvt := x.errorEvt && !bit v 11,
                      startIgnored := x.startIgnored && !bit v 16 }

/-- Clear DONE and GO_IGNORED of the mailbox where `v` names them (R402). -/
def Engine.clearMailboxStatus (e : Engine) (v : Nat) : Engine :=
  { e with host.mb.done := e.host.mb.done && !bit v 1, host.mb.goIgnored := e.host.mb.goIgnored && !bit v 2 }

/-- Whether a BAR0 write at an offset goes to the mailbox or to a DMA channel, and so wakes the engine (R353). -/
def wakes (off : Nat) : Bool := (decide (0x1000 ≤ off) && decide (off < 0x3000)) || (decide (0x10000 ≤ off) && decide (off < 0x12400))

/-- A write to a register that holds RW1C bits (R11): STATUS of a host channel or of the mailbox; other offsets hold none. -/
def Engine.rw1c (e : Engine) (off v : Nat) : Engine :=
  if off = 0x1004 then e.clearMailboxStatus v
  else if 0x10000 ≤ off ∧ off < 0x12000 ∧ off % 256 = 4 then e.clearDmaStatus ((off - 0x10000) / 256) v
  else e

/-- R11. -/
def execRw1cStatusClear (off : BitVec 24) (v : BitVec 32) (s : State) : Host.Outcome State Fault Refusal :=
  onEngine (whenLive (fun e => (if wakes off.toNat then e.wake 1 else e).rw1c off.toNat v.toNat)) s

/-! DMA channels -/

/-- R63. -/
def execDmaStart (d : Fin 32) (s : State) : Host.Outcome State Fault Refusal :=
  onEngine (whenLive (fun e => (e.wake 1).dmaGo d.val)) s

/-- R66. -/
def execDmaStop (d : Fin 32) (s : State) : Host.Outcome State Fault Refusal :=
  onEngine (whenLive (fun e => (e.wake 1).dmaHalt d.val)) s

/-- R67. -/
def execDmaDoorbell (d : Fin 32) (s : State) : Host.Outcome State Fault Refusal :=
  onEngine (whenLive (fun e => (e.wake 1).dmaBell d.val)) s

/-- R61. -/
def execDmaReset (d : Fin 32) (s : State) : Host.Outcome State Fault Refusal :=
  onEngine (whenLive (fun e => (e.wake 1).dmaClear d.val)) s

/-- R62, R65. -/
def execDescriptorFetch (d : Fin 32) (reply : Option (List Byte)) (s : State) : Host.Outcome State Fault Refusal :=
  onEngine (whenLive (fun e => e.dmaFetched d.val reply)) s

/-- A burst of an internal channel (R68, R69) drains the on-chip samples of its two trace units to their DRAM rings (R263);
the lines of channels 32 and 33 are the controller's own (R285, R287). Bytes that reach their destination after the request
was withdrawn are surplus. -/
def Engine.internalBurst (e : Engine) (d late : Nat) : Engine :=
  let x := e.dma d
  let e := e.setDma d { x with surplus := satAdd 32 x.surplus late }
  if d < 34 then e else e.traceDrain d

/-- R64, R69. -/
def execDmaBurstComplete (d : Fin 36) (data : List Byte) (late : Nat) (status : BurstStatus) (s : State) :
    Host.Outcome State Fault Refusal :=
  onEngine (whenLive (fun e => if d.val < 32 then e.dmaBurst d.val data late status else e.internalBurst d.val late)) s

/-- R64. -/
def execDescriptorComplete (d : Fin 32) (s : State) : Host.Outcome State Fault Refusal :=
  onEngine (whenLive (fun e => e.dmaComplete d.val)) s

/-- R67. -/
def execDoorbellReread (d : Fin 32) (reply : Option (List Byte)) (s : State) : Host.Outcome State Fault Refusal :=
  onEngine (whenLive (fun e => e.dmaReread2 d.val reply)) s

/-- R69. -/
def execPeripheralRequestReturn (d : Fin 36) (s : State) : Host.Outcome State Fault Refusal :=
  onEngine (whenLive (fun e => e.dmaRequestBack d.val)) s

/-! The event ring (R77) -/

/-- Set ENABLE: WR and the phase are reset when it goes from 0 to 1. -/
def Engine.ringStart (e : Engine) : Engine :=
  if e.host.ringEnable then e
  else Engine.overflowRecord { e with host.ringEnable := true, host.wr := 0, host.phase := true }

/-- Write RD: an overflow record that is due goes first once space has returned. -/
def Engine.ringRd (e : Engine) (v : Nat) : Engine := Engine.overflowRecord { e with host.rd := v % 65536 }

/-- The holdoff ends: records written during it are signalled, and the spacing counts again. -/
def Engine.holdoffEnd (e : Engine) : Engine :=
  if e.host.holdoffOn then
    if e.host.unsignalled ∧ e.host.ringEnable then
      Engine.signal { e with host.unsignalled := false, host.holdoffOn := e.host.holdoff != 0 } 0
    else { e with host.unsignalled := false, host.holdoffOn := false }
  else e

/-- R77. -/
def execEventRingEnable (s : State) : Host.Outcome State Fault Refusal := onEngine (whenLive Engine.ringStart) s

/-- R77. -/
def execEventRingRdWrite (v : BitVec 16) (s : State) : Host.Outcome State Fault Refusal :=
  onEngine (whenLive (fun e => e.ringRd v.toNat)) s

/-- R77. -/
def execEventHoldoffExpiry (s : State) : Host.Outcome State Fault Refusal := onEngine (whenLive Engine.holdoffEnd) s

/-! Function-level reset (R78) -/

/-- A context whose intake a function-level reset cuts in the middle of a block. -/
def Engine.flrCut (e : Engine) (c : Nat) : Engine :=
  if e.ctxState c = 1 ∧ (e.ctx c).hpos < (e.ctx c).wpos then e.ctxFault c 5 0 (e.ctx c).hpos else e

/-- Host channel registers, event ring registers and MSI-X at their reset values; internal channels and the mailbox stay
(R78, R405). -/
def HostIf.flr (h : HostIf) : HostIf :=
  { h with dma := h.dma.filter (fun p => decide (32 ≤ p.1)), ringBase := 0, ringSize := 8, ringEnable := false, holdoff := 10,
           wr := 0, rd := 0, dropped := 0, phase := true, ringSeq := 0, holdoffOn := false, unsignalled := false, lostSince := 0,
           msix := [], pba := [], aspmL1 := false, d3hot := false }

/-- R78. The registers are reset before contexts enter Fault, so their event records are not generated. -/
def execFunctionLevelReset (s : State) : Host.Outcome State Fault Refusal :=
  onEngine (whenLive (fun e => Engine.each { e.wake 3 with host := e.host.flr } (List.range 256) Engine.flrCut)) s

/-! BAR2 (R59) -/

/-- Count a refused BAR2 access and answer it: status 1 unsupported request, 2 completer abort. -/
def Engine.bar2Refuse (e : Engine) (status : Nat) : Engine :=
  { e with host.bar2Err := satAdd 32 e.host.bar2Err 1 }.send (.bar2 status [])

/-- A BAR2 access. Beyond usable capacity is checked first; writes while DRAM is not served are discarded without a
completion (they are posted). -/
def Engine.bar2 (e : Engine) (write : Bool) (a n : Nat) (data : List Byte) : Engine :=
  if 2 ^ 36 < a + n ∨ !e.inDram a n then e.bar2Refuse 1
  else if write then
    if !e.dramServing then { e with host.bar2Err := satAdd 32 e.host.bar2Err 1 }
    else e.dramStore a data
  else if !e.dramServing then e.bar2Refuse 2
  else
    match e.dramRead a n with
    | none => e.bar2Refuse 2
    | some bs => e.send (.bar2 0 bs)

/-- R59. -/
def execBar2Access (write : Bool) (addr : BitVec 36) (len : Nat) (data : List Byte) (s : State) :
    Host.Outcome State Fault Refusal :=
  onEngine (whenLive (fun e => (e.wake 2).bar2 write addr.toNat len data)) s

end Sys2Proof.Machine
end

