-- ==== Sys2Proof/Machine/Inputs.lean ====
section
/-! DEFINITION. Encoder inputs and filtered digital inputs (R233-R235, R241). -/

namespace Sys2Proof.Machine

/-! Where an input reports (R247) -/

/-- The axes whose position source is encoder input i. -/
def Engine.sourcedAxes (e : Engine) (i : Nat) : List Nat := (List.range 8).filter (fun a => e.get (axisIdx a) 7 == i + 1)

/-- Cause 8 of encoder input i on each axis it sources; without one the message names the input (log entry 31, DEDUCED). -/
def Engine.encoderFault (e : Engine) (i : Nat) : Engine :=
  match e.sourcedAxes i with
  | [] => e.raise 7 8 (detailA i (e.getI 32 (0x300F + 16 * i) 1))
  | as => e.each as (fun e a => e.motionFault a 8)

/-- Publish 30a4h:01h of axis a. -/
def Engine.publishAxisInputs (e : Engine) (a : Nat) : Engine :=
  let p := e.inp (2 + a)
  let n := e.inp (10 + a)
  let h := e.inp (18 + a)
  e.put (axisIdx a + 4) 1 (ofBool p.active + 2 * ofBool n.active + 4 * ofBool h.active + 8 * ofBool p.stuck + 16 * ofBool n.stuck +
    32 * ofBool h.stuck + 64 * ofBool (p.unstable || n.unstable) + 128 * ofBool h.unstable)

/-- Publish 307Fh:01h. -/
def Engine.publishEngineInputs (e : Engine) : Engine :=
  let p := e.inp 0
  let q := e.inp 1
  e.put 0x307F 1 (ofBool p.active + 2 * ofBool q.active + 4 * ofBool p.stuck + 8 * ofBool q.stuck + 16 * ofBool p.unstable +
    32 * ofBool q.unstable)

/-- What an input's state is reported in, and the axis or encoder input it belongs to. -/
inductive InputPlace where
  | engine
  | axis (a : Nat)
  | encoder (i : Nat)
  deriving DecidableEq, Repr

/-- The place of an input. -/
def inputPlace : DigIn → InputPlace
  | .stop => .engine
  | .pfail => .engine
  | .limP a => .axis a.val
  | .limN a => .axis a.val
  | .home a => .axis a.val
  | .encA i => .encoder i.val
  | .encB i => .encoder i.val
  | .encI i => .encoder i.val

/-- Report the states of the inputs of a place. An encoder input is unstable while one of its lines is. -/
def Engine.publishInputs (e : Engine) (p : InputPlace) : Engine :=
  match p with
  | .engine => e.publishEngineInputs
  | .axis a => e.publishAxisInputs a
  | .encoder i =>
    let k := 0x300F + 16 * i
    let un := (e.inp (26 + i)).unstable || (e.inp (30 + i)).unstable || (e.inp (34 + i)).unstable
    if un then e.put k 0x0B 1 else if e.get k 0x0B = 1 then e.put k 0x0B 0 else e

/-- A fault of cause 9 or 10 of an input of a place; engine inputs belong to no axis (log entry 31, DEDUCED). -/
def Engine.inputFault (e : Engine) (p : InputPlace) (cause : Nat) : Engine :=
  match p with
  | .engine => e.raise 7 cause 0
  | .axis a => e.motionFault a cause
  | .encoder i => if cause = 9 then e.encoderFault i else match e.sourcedAxes i with
    | [] => e.raise 7 cause (detailA i (e.getI 32 (0x300F + 16 * i) 1))
    | a :: _ => e.motionFault a cause

/-! Glitches (R233) -/

/-- The glitch counter and the chatter limit of a place. -/
def Engine.glitchEntry (e : Engine) (p : InputPlace) : (Nat × Nat) × Nat :=
  match p with
  | .engine => ((0x307F, 5), Config.engineInputChatterLimit)
  | .axis a => ((axisIdx a + 4, 4), e.get (axisIdx a + 4) 5)
  | .encoder i => ((0x300F + 16 * i, 9), e.get (0x300F + 16 * i) 0x0D)

/-- INPUT_GLITCH: counted; more than the chatter limit in a millisecond make the input unstable. -/
def Engine.glitch (e : Engine) (d : DigIn) : Engine :=
  let p := inputPlace d
  let ((idx, sub), lim) := e.glitchEntry p
  let e := e.bump idx sub 1
  let x := e.inp (inputNo d)
  let recent := e.now :: x.recent.filter (fun t => decide (e.now < t + refMs))
  let bad := decide (lim < recent.length)
  let e := e.setInp (inputNo d) { x with recent := recent, unstable := x.unstable || bad }
  if bad ∧ !x.unstable then (e.publishInputs p).inputFault p 9 else e

/-- R233. -/
def execInputGlitch (i : DigIn) (s : State) : Host.Outcome State Fault Refusal := onEngine (whenLive (fun e => e.glitch i)) s

/-- INPUT_STABLE_TIMEOUT: 10 ms without a glitch. -/
def Engine.stable (e : Engine) (d : DigIn) : Engine :=
  let x := e.inp (inputNo d)
  if x.unstable then (e.setInp (inputNo d) { x with unstable := false, recent := [] }).publishInputs (inputPlace d) else e

/-- R233. -/
def execInputStableTimeout (i : DigIn) (s : State) : Host.Outcome State Fault Refusal :=
  onEngine (whenLive (fun e => e.stable i)) s

/-- The stuck timeout of an input in ms; 0: off. Lines A and B have none. -/
def Engine.stuckLimit (e : Engine) : DigIn → Nat
  | .stop => e.get 0x307F 4
  | .pfail => e.get 0x307F 4
  | .limP a => e.get (axisIdx a.val + 4) 3
  | .limN a => e.get (axisIdx a.val + 4) 3
  | .home a => e.get (axisIdx a.val + 4) 3
  | .encA _ => 0
  | .encB _ => 0
  | .encI i => e.get (0x300F + 16 * i.val) 0x0E

/-- INPUT_STUCK_TIMEOUT. -/
def Engine.stuck (e : Engine) (d : DigIn) : Engine :=
  let x := e.inp (inputNo d)
  if x.active ∧ !x.stuck ∧ e.stuckLimit d ≠ 0 then
    ((e.setInp (inputNo d) { x with stuck := true }).publishInputs (inputPlace d)).inputFault (inputPlace d) 10
  else e

/-- R233. -/
def execInputStuckTimeout (i : DigIn) (s : State) : Host.Outcome State Fault Refusal :=
  onEngine (whenLive (fun e => e.stuck i)) s

/-! Encoder counts (R234, R235) -/

/-- The filtered count of encoder input i moves to c: axes it sources follow, and ENC_X feeds the interpolator. -/
def Engine.filteredCount (e : Engine) (i : Nat) (c : Int) (dt : Nat) : Engine :=
  let e := e.putI 32 (0x300F + 16 * i) 2 c
  let e := e.setEnc i { e.enc i with m := c, since := 0, fallen := false }
  let e := e.each (e.sourcedAxes i) (fun e a => e.putI 32 (axisIdx a) 6 c)
  if i = 0 then e.interpCount c dt else e

/-- A raw count passes the monotonic-maximum filter of encoder input 0 (R235), or goes through. -/
def Engine.rawCount (e : Engine) (i : Nat) (c : Int) (dt : Nat) : Engine :=
  let x := e.enc i
  let e := e.putI 32 (0x300F + 16 * i) 1 c
  let behind := if x.reverse then c - x.m else x.m - c
  if !x.active ∨ behind < 0 then e.filteredCount i c (x.since + dt)
  else
    let e := e.setEnc i { x with since := x.since + dt }
    if behind = 0 then e
    else if behind ≤ e.get 0x300F 5 then e.bump 0x300F 8 1
    else if x.fallen then e
    else ((e.setEnc i { e.enc i with fallen := true }).put 0x300F 0x0B 3).motionFault 0 7

/-- ENCODER_COUNT: lines A and B of encoder input i take new levels, `dt` FIRE cycles after the last count. A leading B counts
up. Frozen lines give no count. -/
def Engine.encoderLevels (e : Engine) (i : Nat) (a b : Bool) (dt : Nat) : Engine :=
  let x := e.enc i
  let k := 0x300F + 16 * i
  if (e.inp (26 + i)).unstable ∨ (e.inp (30 + i)).unstable ∨ (a = x.a ∧ b = x.b) then e
  else
    let e := e.setEnc i { x with a := a, b := b, lastAt := e.now }
    if a ≠ x.a ∧ b ≠ x.b then
      (e.bump k 0x0A 1).glitch (.encA (Fin.ofNat 4 i))
    else
      let up := if a = x.a then a == b else a != b
      let step : Int := if up != e.flag k 7 then 1 else -1
      let c := signed 32 (unsigned 32 (e.getI 32 k 1 + step))
      let fast := decide (dt * 5 * e.get k 6 < 4000000000)
      let e := e.rawCount i c dt
      if fast then ((if e.get k 0x0B = 1 then e else e.put k 0x0B 2)).encoderFault i else e

/-- R234. -/
def execEncoderCount (i : Fin 4) (a b : Bool) (dt : Nat) (s : State) : Host.Outcome State Fault Refusal :=
  onEngine (whenLive (fun e => e.encoderLevels i.val a b dt)) s

/-- ENCODER_INDEX: the count at a filtered rising edge of I. -/
def Engine.encoderIndex (e : Engine) (i : Nat) : Engine :=
  e.put (0x300F + 16 * i) 0x0C (e.get (0x300F + 16 * i) 2)

/-- R234. -/
def execEncoderIndex (i : Fin 4) (s : State) : Host.Outcome State Fault Refusal :=
  onEngine (whenLive (fun e => if (e.inp (34 + i.val)).unstable then e else e.encoderIndex i.val)) s

/-! Filtered levels -/

/-- What follows from a new level: STOP_L is a Halt or its release, a limit may stop its axis, encoder lines count. -/
def Engine.inputActs (e : Engine) (d : DigIn) (active : Bool) : Engine :=
  match d with
  | .stop => if active then (e.wake 5).raise 7 0x0B (detailA 0 0) else (e.wake 5).release
  | .pfail => e.wake 5
  | .limP a => let e := e.wake 5; if active ∧ (e.axis a.val).dir = 1 ∧ e.get (axisIdx a.val) 2 ≠ 0 then e.motionFault a.val 5 else e
  | .limN a => let e := e.wake 5; if active ∧ (e.axis a.val).dir = -1 ∧ e.get (axisIdx a.val) 2 ≠ 0 then e.motionFault a.val 5 else e
  | .home _ => e
  | .encA i => e.encoderLevels i.val active (e.enc i.val).b (16 * (e.now - (e.enc i.val).lastAt))
  | .encB i => e.encoderLevels i.val (e.enc i.val).a active (16 * (e.now - (e.enc i.val).lastAt))
  | .encI i => if active then e.encoderIndex i.val else e

/-- INPUT_CHANGE: the filtered value takes a new level; that of an unstable input is frozen. -/
def Engine.inputLevel (e : Engine) (d : DigIn) (active : Bool) : Engine :=
  let x := e.inp (inputNo d)
  if x.unstable ∨ x.active = active then e
  else
    let e := e.setInp (inputNo d) { x with active := active, stuck := x.stuck && active }
    (e.publishInputs (inputPlace d)).inputActs d active

/-- R233. -/
def execInputChange (i : DigIn) (active : Bool) (s : State) : Host.Outcome State Fault Refusal :=
  onEngine (whenLive (fun e => e.inputLevel i active)) s

end Sys2Proof.Machine
end

