-- ==== Sys2Proof/Machine/Registers.lean ====
section
/-! DEFINITION. The dictionary mailbox (R402-R405), USDO requests (R406), and the host registers of BAR0 (R58-R61, R75, R77, R402). -/

namespace Sys2Proof.Machine

/-! The mailbox -/

/-- The entry of a request. -/
structure MbRequest where
  op : Nat := 0
  idx : Nat := 0
  sub : Nat := 0
  offset : Nat := 0
  length : Nat := 0
  more : Bool := false
  deriving DecidableEq, Repr

/-- Abandon an open write transfer and an open snapshot (R404). -/
def Mailbox.abandon (m : Mailbox) : Mailbox := { m with wrOpen := none, wrBytes := [], snapOpen := none, snap := [] }

/-- What a request for entry k leaves open: transfers of another entry are abandoned, and a write abandons a snapshot of its own. -/
def Mailbox.narrow (m : Mailbox) (k : Nat × Nat) (write : Bool) : Mailbox :=
  let m := if m.wrOpen = some k then m else { m with wrOpen := none, wrBytes := [] }
  if m.snapOpen = some k ∧ !write then m else { m with snapOpen := none, snap := [] }

/-- GO (R403): the request is taken, or ignored while BUSY. -/
def Mailbox.go (m : Mailbox) : Mailbox :=
  if m.busy then { m with goIgnored := true }
  else
    { m with busy := true, taken := some (m.op, m.index, m.sub, m.offset, m.length, m.more),
             takenData := (List.range (min m.length 4096)).map (fun i => cellGet (fun _ => 0) m.data i) }

/-- R403. -/
def execMailboxGo (s : State) : Host.Outcome State Fault Refusal :=
  onEngine (whenLive (fun e => { e.wake 1 with host.mb := e.host.mb.go })) s

/-- R404. -/
def execMailboxCancel (s : State) : Host.Outcome State Fault Refusal :=
  onEngine (whenLive (fun e => { e.wake 1 with host.mb := e.host.mb.abandon })) s

/-- R404: 10 s without a segment. -/
def execSegmentTimeout (s : State) : Host.Outcome State Fault Refusal :=
  onEngine (whenLive (fun e => { e with host.mb := e.host.mb.abandon })) s

/-- The answer to the request taken (R403): RESULT, what was read, SEQ, BUSY, DONE and vector 1. -/
def Engine.mbAnswer (e : Engine) (code : Nat) (seg : List Byte) (rest : Bool) (total : Nat) : Engine :=
  let m := e.host.mb
  let m := { m with result := code, respLength := seg.length, respMore := rest, total := total, seq := wrapAdd 32 m.seq 1,
                    busy := false, done := true, taken := none, takenData := [],
                    data := cellSetAll (fun _ => 0) ((List.range seg.length).zip seg) m.data }
  let e := (({ e with host.mb := m } : Engine)).wrap 0x2003 8 1
  if m.irqEn then e.signal 1 else e

/-- Answer without data. -/
def Engine.mbCode (e : Engine) (code : Nat) : Engine := e.mbAnswer code [] false 0

/-- Answer with a segment of the open snapshot. -/
def Engine.mbSegment (e : Engine) (off : Nat) : Engine :=
  let bs := e.host.mb.snap
  e.mbAnswer 0 ((bs.drop off).take 4096) (decide (off + 4096 < bs.length)) bs.length

/-- A read segment (R404). -/
def Engine.mbRead (e : Engine) (r : MbRequest) : Engine :=
  let k := (r.idx, r.sub)
  let e : Engine := { e with host.mb := e.host.mb.narrow k false }
  if r.offset = 0 then
    let e := e.serveRead r.idx r.sub
    if e.sdo ≠ 0 then Engine.mbCode { e with host.mb.snapOpen := none, host.mb.snap := [] } e.sdo
    else Engine.mbSegment { e with host.mb.snapOpen := some k, host.mb.snap := e.sdoData } 0
  else if e.host.mb.snapOpen = some k ∧ r.offset < e.host.mb.snap.length then e.mbSegment r.offset
  else Engine.mbCode { e with host.mb := e.host.mb.abandon } abSegment

/-- A write segment (R404): held while MORE is set, then the whole value is written. A write that resets the engine gets no answer. -/
def mbWrite (r : MbRequest) (s : State) : State :=
  let k := (r.idx, r.sub)
  let e : Engine := { s.e with host.mb := s.e.host.mb.narrow k true }
  let m := e.host.mb
  if 4096 < r.length then { s with e := Engine.mbCode { e with host.mb := m.abandon } abLength }
  else if r.offset ≠ (if m.wrOpen = some k then m.wrBytes.length else 0) then
    { s with e := Engine.mbCode { e with host.mb := m.abandon } abSegment }
  else
    let bs := m.wrBytes ++ m.takenData
    if r.more then { s with e := Engine.mbCode { e with host.mb := { m with wrOpen := some k, wrBytes := bs } } 0 }
    else
      let s := serveWrite r.idx r.sub bs { s with e := { e with host.mb := m.abandon } }
      if s.e.host.mb.taken.isSome then { s with e := s.e.mbCode s.e.sdo } else s

/-- Whether the mailbox serves an index: from READY on, 2000h and 2001h from Dawn step 7 on (R405). -/
def Engine.mbOpen (e : Engine) (idx : Nat) : Bool :=
  e.flag 0x2001 2 || ((idx == 0x2000 || idx == 0x2001) && decide (7 ≤ e.dawnStep))

/-- MAILBOX_RESPONSE: the request taken is answered; one that woke the engine is served after exit (R405). -/
def mailboxServe (s : State) : State :=
  if !s.e.live ∨ s.e.idle ≠ 0 then s
  else
    match s.e.host.mb.taken with
    | none => s
    | some (op, idx, sub, off, len, more) =>
      if !s.e.mbOpen idx then { s with e := s.e.mbCode abState }
      else if op = 1 then { s with e := s.e.mbRead ⟨op, idx, sub, off, len, more⟩ }
      else if op = 2 then mbWrite ⟨op, idx, sub, off, len, more⟩ s
      else { s with e := s.e.mbCode abOther }

/-- R403. -/
def execMailboxResponse (s : State) : Host.Outcome State Fault Refusal := .next (mailboxServe s)

/-! USDO requests to the engine (R406) -/

/-- Whether a request for an index goes unanswered: its partition, or partition 2, switches (R27, R415). -/
def Engine.usdoSilent (e : Engine) (idx : Nat) : Bool :=
  e.get (partIdx (owner idx)) 4 == 2 || e.get (partIdx 2) 4 == 2 || decide (e.dawnStep < 7)

/-- USDO_REQUEST: a frame addressed to the engine wakes it; op 1 reads, 2 writes; the answer goes out on the active port. -/
def usdoServe (op idx sub : Nat) (data : List Byte) (s : State) : State :=
  if !s.e.live then s
  else
    let e := s.e.wake 4
    if e.usdoSilent idx then { s with e := e }
    else
      let e := e.wrap 0x2003 9 1
      let s1 := if op = 2 then serveWrite idx sub data { s with e := e } else { s with e := e.serveRead idx sub }
      if s1.e.dawnStep < 7 then s1
      else
        { s1 with e := s1.e.send (.can (s1.e.get 0x5000 0x0D) (0x580 + s1.e.net.nodeId)
                    (toLe 1 op ++ toLe 2 idx ++ toLe 1 sub ++ toLe 4 s1.e.sdo ++ s1.e.sdoData)) }

/-- R406. -/
def execUsdoRequest (op : Byte) (idx : BitVec 16) (sub : Byte) (data : List Byte) (s : State) :
    Host.Outcome State Fault Refusal :=
  .next (usdoServe op.toNat idx.toNat sub.toNat data s)

/-! BAR0 registers -/

/-- Write a mailbox register at an offset from 0x1000 (R402). -/
def Engine.mbReg (e : Engine) (off v : Nat) : Engine :=
  let m := e.host.mb
  if off = 0 then
    let m := { m with irqEn := bit v 8 }
    let m := if bit v 1 then m.abandon else m
    { e with host.mb := if bit v 0 then m.go else m }
  else if off = 4 then e.clearMailboxStatus v
  else if off = 8 then { e with host.mb := { m with op := bits v 7 0, sub := bits v 15 8, index := bits v 31 16 } }
  else if off = 0x0C then { e with host.mb := { m with offset := v } }
  else if off = 0x10 then { e with host.mb := { m with length := bits v 12 0, more := bit v 31 } }
  else if 0x1000 ≤ off ∧ off < 0x2000 then
    { e with host.mb := { m with data := cellSetAll (fun _ => 0) (((List.range 4).map (· + (off - 0x1000))).zip (toLe 4 v)) m.data } }
  else e

/-- The low or the high word of a 64-bit register replaced. -/
def setLow (x v : Nat) : Nat := x / 2 ^ 32 * 2 ^ 32 + v
def setHigh (x v : Nat) : Nat := x % 2 ^ 32 + v * 2 ^ 32

/-- Write register `r` of host channel d (R61). -/
def Engine.dmaReg (e : Engine) (d r v : Nat) : Engine :=
  let x := e.dma d
  if r = 0 then e.dmaControl d v
  else if r = 4 then e.clearDmaStatus d v
  else if r = 0x08 then e.setDma d { x with src := setLow x.src v }
  else if r = 0x0C then e.setDma d { x with src := setHigh x.src v }
  else if r = 0x10 then e.setDma d { x with dst := setLow x.dst v }
  else if r = 0x14 then e.setDma d { x with dst := setHigh x.dst v }
  else if r = 0x18 then e.setDma d { x with count := v }
  else if r = 0x1C then e.setDma d { x with mode := v }
  else if r = 0x20 then e.setDma d { x with desc := setLow x.desc v }
  else if r = 0x24 then e.setDma d { x with desc := setHigh x.desc v }
  else e

/-- Write word i of the MSI-X table (R75): unmasking a vector whose PBA bit is set sends it. -/
def Engine.msixReg (e : Engine) (i v : Nat) : Engine :=
  let word := if i % 4 = 3 then v % 2 else v
  let e : Engine := { e with host.msix := cellSet (fun k => if k % 4 = 3 then 1 else 0) e.host.msix i word }
  if i % 4 = 3 ∧ word = 0 ∧ cellGet (fun _ => false) e.host.pba (i / 4) then
    Engine.signal { e with host.pba := cellSet (fun _ => false) e.host.pba (i / 4) false } (i / 4)
  else e

/-- Write an event ring register (R77). -/
def Engine.ringReg (e : Engine) (r v : Nat) : Engine :=
  let h := e.host
  if r = 0 then (if h.ringEnable then e else { e with host.ringBase := setLow h.ringBase (v / 64 * 64) })
  else if r = 4 then (if h.ringEnable then e else { e with host.ringBase := setHigh h.ringBase v })
  else if r = 8 then
    (if h.ringEnable ∨ bits v 4 0 < 6 ∨ 16 < bits v 4 0 then e else { e with host.ringSize := bits v 4 0 })
  else if r = 0x0C then
    let e : Engine := { e with host.holdoff := bits v 15 8 }
    if bit v 0 then e.ringStart else { e with host.ringEnable := false }
  else if r = 0x14 then e.ringRd (bits v 15 0)
  else e

/-- A write to BAR0 (R58, R61, R75, R77, R402): read-only and unlisted offsets ignore it. -/
def Engine.bar0Write (e : Engine) (off v : Nat) : Engine :=
  let e := if wakes off then e.wake 1 else e
  if 0x1000 ≤ off ∧ off < 0x3000 then e.mbReg (off - 0x1000) v
  else if 0x10000 ≤ off ∧ off < 0x12000 then e.dmaReg ((off - 0x10000) / 256) (off % 256) v
  else if 0x30000 ≤ off ∧ off < 0x30400 then e.msixReg ((off - 0x30000) / 4) v
  else if 0x40000 ≤ off ∧ off < 0x40020 then e.ringReg (off - 0x40000) v
  else e

/-- R11. -/
def execRegisterWrite (off : BitVec 24) (v : BitVec 32) (s : State) : Host.Outcome State Fault Refusal :=
  onEngine (whenLive (fun e => e.bar0Write off.toNat v.toNat)) s

/-! The link (R57, R344, R353) -/

/-- Whether the engine asks for L1: in Twilight and Night, and in shedding stage 4 (R344, R350). -/
def Engine.wantsL1 (e : Engine) : Bool := decide (2 ≤ e.idle) || decide (4 ≤ e.stage)

/-- PCIE_LINK_EVENT: L1 exit and a change of D-state wake the engine; the link is in L1 for the engine only where host software
has enabled ASPM L1. -/
def Engine.linkEvent (e : Engine) (x : LinkEvent) : Engine :=
  match x with
  | .trained speed width => { e with host.linkSpeed := speed.val, host.linkWidth := width.val }
  | .l1Entry => { e with host.inL1 := true }
  | .l1Exit => Engine.wake { e with host.inL1 := false } 3
  | .dState d3 => if e.host.d3hot = d3 then e else Engine.wake { e with host.d3hot := d3 } 3
  | .aspm on => { e with host.aspmL1 := on, host.inL1 := on && (e.host.inL1 || e.wantsL1) }

/-- R353. -/
def execPcieLinkEvent (ev : LinkEvent) (s : State) : Host.Outcome State Fault Refusal :=
  onEngine (whenLive (fun e => e.linkEvent ev)) s

end Sys2Proof.Machine
end

