-- ==== Sys2Proof/Machine/Dispatch.lean ====
section
/-! DEFINITION. One arm per command: the meaning each constructor of Instr calls. -/

namespace Sys2Proof.Machine

/-- The effect of a command on everything but the queue. -/
def exec (i : Instr) (s : State) : Host.Outcome State Fault Refusal :=
  match i with
  | .registerWrite off v => Sys2Proof.Machine.execRegisterWrite off v s
  | .dictionaryWrite idx sub data => Sys2Proof.Machine.execDictionaryWrite idx sub data s
  | .rw1cStatusClear off v => Sys2Proof.Machine.execRw1cStatusClear off v s
  | .bar2ErrRead => Sys2Proof.Machine.execBar2ErrRead s
  | .surplusRead d => Sys2Proof.Machine.execSurplusRead d s
  | .droppedRead => Sys2Proof.Machine.execDroppedRead s
  | .partitionWatchdogExpiry p => Sys2Proof.Machine.execPartitionWatchdogExpiry p s
  | .partitionReady p => Sys2Proof.Machine.execPartitionReady p s
  | .partitionImageWrite p img => Sys2Proof.Machine.execPartitionImageWrite p img s
  | .switchRequest p v => Sys2Proof.Machine.execSwitchRequest p v s
  | .partitionFallback p => Sys2Proof.Machine.execPartitionFallback p s
  | .jobStart => Sys2Proof.Machine.execJobStart s
  | .jobPause => Sys2Proof.Machine.execJobPause s
  | .jobResume => Sys2Proof.Machine.execJobResume s
  | .jobEndAfterPanel => Sys2Proof.Machine.execJobEndAfterPanel s
  | .jobAbort => Sys2Proof.Machine.execJobAbort s
  | .jobLengthWrite v => Sys2Proof.Machine.execJobLengthWrite v s
  | .applyStaged => Sys2Proof.Machine.execApplyStaged s
  | .launchCheck => Sys2Proof.Machine.execLaunchCheck s
  | .axis1Gate => Sys2Proof.Machine.execAxis1Gate s
  | .transitEnd => Sys2Proof.Machine.execTransitEnd s
  | .panelBoundary => Sys2Proof.Machine.execPanelBoundary s
  | .forecastRetry => Sys2Proof.Machine.execForecastRetry s
  | .dmaStart d => Sys2Proof.Machine.execDmaStart d s
  | .dmaStop d => Sys2Proof.Machine.execDmaStop d s
  | .dmaDoorbell d => Sys2Proof.Machine.execDmaDoorbell d s
  | .dmaReset d => Sys2Proof.Machine.execDmaReset d s
  | .descriptorFetch d reply => Sys2Proof.Machine.execDescriptorFetch d reply s
  | .dmaBurstComplete d data late status => Sys2Proof.Machine.execDmaBurstComplete d data late status s
  | .descriptorComplete d => Sys2Proof.Machine.execDescriptorComplete d s
  | .doorbellReread d reply => Sys2Proof.Machine.execDoorbellReread d reply s
  | .peripheralRequestReturn d => Sys2Proof.Machine.execPeripheralRequestReturn d s
  | .eventRingEnable => Sys2Proof.Machine.execEventRingEnable s
  | .eventRingRdWrite v => Sys2Proof.Machine.execEventRingRdWrite v s
  | .eventHoldoffExpiry => Sys2Proof.Machine.execEventHoldoffExpiry s
  | .functionLevelReset => Sys2Proof.Machine.execFunctionLevelReset s
  | .conventionalReset => Sys2Proof.Machine.execConventionalReset s
  | .contextOpen c => Sys2Proof.Machine.execContextOpen c s
  | .contextClose c => Sys2Proof.Machine.execContextClose c s
  | .contextAbort c => Sys2Proof.Machine.execContextAbort c s
  | .contextRetry c => Sys2Proof.Machine.execContextRetry c s
  | .decodeBlockTake => Sys2Proof.Machine.execDecodeBlockTake s
  | .decodeBlockComplete j poisoned => Sys2Proof.Machine.execDecodeBlockComplete j poisoned s
  | .decodeResume j => Sys2Proof.Machine.execDecodeResume j s
  | .proofArm => Sys2Proof.Machine.execProofArm s
  | .proofEndBlock => Sys2Proof.Machine.execProofEndBlock s
  | .proofEndBlockFlush => Sys2Proof.Machine.execProofEndBlockFlush s
  | .proofCancel => Sys2Proof.Machine.execProofCancel s
  | .proofBlockWritten => Sys2Proof.Machine.execProofBlockWritten s
  | .proofReadOffsetWrite v => Sys2Proof.Machine.execProofReadOffsetWrite v s
  | .screenRow c poisoned => Sys2Proof.Machine.execScreenRow c poisoned s
  | .encodePass decodeDiffers rawDiffers => Sys2Proof.Machine.execEncodePass decodeDiffers rawDiffers s
  | .toneCurveWrite b data => Sys2Proof.Machine.execToneCurveWrite b data s
  | .arrayLoad b => Sys2Proof.Machine.execArrayLoad b s
  | .storeClearComplete => Sys2Proof.Machine.execStoreClearComplete s
  | .maskLoad m => Sys2Proof.Machine.execMaskLoad m s
  | .catalogueWindowWrite v => Sys2Proof.Machine.execCatalogueWindowWrite v s
  | .catalogueStagingRead => Sys2Proof.Machine.execCatalogueStagingRead s
  | .catalogueLoad => Sys2Proof.Machine.execCatalogueLoad s
  | .catalogueDump => Sys2Proof.Machine.execCatalogueDump s
  | .headEclipse h => Sys2Proof.Machine.execHeadEclipse h s
  | .headCancelDrain h => Sys2Proof.Machine.execHeadCancelDrain h s
  | .encoderCount ix a b dt => Sys2Proof.Machine.execEncoderCount ix a b dt s
  | .encoderIndex ix => Sys2Proof.Machine.execEncoderIndex ix s
  | .meridianTick => Sys2Proof.Machine.execMeridianTick s
  | .firePulseEnd b => Sys2Proof.Machine.execFirePulseEnd b s
  | .strobeWatchdogTrip h => Sys2Proof.Machine.execStrobeWatchdogTrip h s
  | .fetchTagReread b bx by_ => Sys2Proof.Machine.execFetchTagReread b bx by_ s
  | .fetchBlockAccept b bx by_ => Sys2Proof.Machine.execFetchBlockAccept b bx by_ s
  | .fetchDeadline => Sys2Proof.Machine.execFetchDeadline s
  | .composeLineStart => Sys2Proof.Machine.execComposeLineStart s
  | .composeLineComplete twin poison => Sys2Proof.Machine.execComposeLineComplete twin poison s
  | .composeDeadline => Sys2Proof.Machine.execComposeDeadline s
  | .frameSerialize h readback => Sys2Proof.Machine.execFrameSerialize h readback s
  | .serializeDeadline h => Sys2Proof.Machine.execSerializeDeadline h s
  | .statusReceived h frame => Sys2Proof.Machine.execStatusReceived h frame s
  | .echoDeadline h => Sys2Proof.Machine.execEchoDeadline h s
  | .retReceiverUp h => Sys2Proof.Machine.execRetReceiverUp h s
  | .retReceiverDown h codeErrors => Sys2Proof.Machine.execRetReceiverDown h codeErrors s
  | .retRealignTimeout h => Sys2Proof.Machine.execRetRealignTimeout h s
  | .headCommandIssue h => Sys2Proof.Machine.execHeadCommandIssue h s
  | .respReceived h frame => Sys2Proof.Machine.execRespReceived h frame s
  | .headCommandTimeout h => Sys2Proof.Machine.execHeadCommandTimeout h s
  | .headMemRead => Sys2Proof.Machine.execHeadMemRead s
  | .headMemWrite => Sys2Proof.Machine.execHeadMemWrite s
  | .headMemCommit => Sys2Proof.Machine.execHeadMemCommit s
  | .headPing => Sys2Proof.Machine.execHeadPing s
  | .headBeginReturn h => Sys2Proof.Machine.execHeadBeginReturn h s
  | .headRelease h => Sys2Proof.Machine.execHeadRelease h s
  | .headCooldownExpiry h => Sys2Proof.Machine.execHeadCooldownExpiry h s
  | .temperatureStale h => Sys2Proof.Machine.execTemperatureStale h s
  | .temperatureStaleLimit h => Sys2Proof.Machine.execTemperatureStaleLimit h s
  | .resistanceSlot h uv missed => Sys2Proof.Machine.execResistanceSlot h uv missed s
  | .measurementWindowOpen => Sys2Proof.Machine.execMeasurementWindowOpen s
  | .measurementWindowClose => Sys2Proof.Machine.execMeasurementWindowClose s
  | .idleSweepTimer => Sys2Proof.Machine.execIdleSweepTimer s
  | .sweepCommand => Sys2Proof.Machine.execSweepCommand s
  | .verdictListClear => Sys2Proof.Machine.execVerdictListClear s
  | .watchAllHeads => Sys2Proof.Machine.execWatchAllHeads s
  | .watchQuarantinedHeads => Sys2Proof.Machine.execWatchQuarantinedHeads s
  | .watchAbandon => Sys2Proof.Machine.execWatchAbandon s
  | .dropwatchTick => Sys2Proof.Machine.execDropwatchTick s
  | .dropWindowEnd b arrival => Sys2Proof.Machine.execDropWindowEnd b arrival s
  | .fireCountWritebackTimer => Sys2Proof.Machine.execFireCountWritebackTimer s
  | .fireCountTableSet v => Sys2Proof.Machine.execFireCountTableSet v s
  | .servoPeriod => Sys2Proof.Machine.execServoPeriod s
  | .axisReply a frame => Sys2Proof.Machine.execAxisReply a frame s
  | .axisReplyDeadline a => Sys2Proof.Machine.execAxisReplyDeadline a s
  | .axisEnable a => Sys2Proof.Machine.execAxisEnable a s
  | .axisDisable a => Sys2Proof.Machine.execAxisDisable a s
  | .axisMove a => Sys2Proof.Machine.execAxisMove a s
  | .axisStop a => Sys2Proof.Machine.execAxisStop a s
  | .axisSetPosition a => Sys2Proof.Machine.execAxisSetPosition a s
  | .axisFaultReset a => Sys2Proof.Machine.execAxisFaultReset a s
  | .followRatioWrite a g => Sys2Proof.Machine.execFollowRatioWrite a g s
  | .holdDelayExpiry a => Sys2Proof.Machine.execHoldDelayExpiry a s
  | .inputChange ix active => Sys2Proof.Machine.execInputChange ix active s
  | .inputStableTimeout ix => Sys2Proof.Machine.execInputStableTimeout ix s
  | .inputStuckTimeout ix => Sys2Proof.Machine.execInputStuckTimeout ix s
  | .warmingTimer => Sys2Proof.Machine.execWarmingTimer s
  | .idleWarmRetry h => Sys2Proof.Machine.execIdleWarmRetry h s
  | .zoneEvaluation => Sys2Proof.Machine.execZoneEvaluation s
  | .stickyFlagClear idx sub v => Sys2Proof.Machine.execStickyFlagClear idx sub v s
  | .hvClearTrip c => Sys2Proof.Machine.execHvClearTrip c s
  | .analogConversion ix code => Sys2Proof.Machine.execAnalogConversion ix code s
  | .traceArm u => Sys2Proof.Machine.execTraceArm u s
  | .traceTrigger u => Sys2Proof.Machine.execTraceTrigger u s
  | .traceStop u => Sys2Proof.Machine.execTraceStop u s
  | .dramReadComplete addr outcome class0ns => Sys2Proof.Machine.execDramReadComplete addr outcome class0ns s
  | .dramAlert ch rank again => Sys2Proof.Machine.execDramAlert ch rank again s
  | .migrateCommand ch => Sys2Proof.Machine.execMigrateCommand ch s
  | .retrainCommand ch => Sys2Proof.Machine.execRetrainCommand ch s
  | .retrain ch => Sys2Proof.Machine.execRetrain ch s
  | .retrainComplete ch outcome => Sys2Proof.Machine.execRetrainComplete ch outcome s
  | .migrationLineCopy ch outcome => Sys2Proof.Machine.execMigrationLineCopy ch outcome s
  | .markingComplete => Sys2Proof.Machine.execMarkingComplete s
  | .refreshDue ch rank bank idle rate => Sys2Proof.Machine.execRefreshDue ch rank bank idle rate s
  | .pageIdleTimeout ch rank bank => Sys2Proof.Machine.execPageIdleTimeout ch rank bank s
  | .bandwidthWindow rd wr class0 => Sys2Proof.Machine.execBandwidthWindow rd wr class0 s
  | .scrubWord g word finding => Sys2Proof.Machine.execScrubWord g word finding s
  | .remapRecordWrite g slot ok => Sys2Proof.Machine.execRemapRecordWrite g slot ok s
  | .patrolLine addr outcome => Sys2Proof.Machine.execPatrolLine addr outcome s
  | .faultMessage src kind detail => Sys2Proof.Machine.execFaultMessage src kind detail s
  | .incidentWindowEnd seq => Sys2Proof.Machine.execIncidentWindowEnd seq s
  | .shadowWindowEnd w => Sys2Proof.Machine.execShadowWindowEnd w s
  | .repeatRecordTimer seq => Sys2Proof.Machine.execRepeatRecordTimer seq s
  | .acknowledgeEntry seq => Sys2Proof.Machine.execAcknowledgeEntry seq s
  | .acknowledgeClass c => Sys2Proof.Machine.execAcknowledgeClass c s
  | .faultLHoldWrite v => Sys2Proof.Machine.execFaultLHoldWrite v s
  | .faultLMinimumExpiry => Sys2Proof.Machine.execFaultLMinimumExpiry s
  | .refMonitorWindow count => Sys2Proof.Machine.execRefMonitorWindow count s
  | .pllLockDeclared x band us => Sys2Proof.Machine.execPllLockDeclared x band us s
  | .pllLockConfirmed x => Sys2Proof.Machine.execPllLockConfirmed x s
  | .pllAttemptFailed x => Sys2Proof.Machine.execPllAttemptFailed x s
  | .pllRetryTimer x => Sys2Proof.Machine.execPllRetryTimer x s
  | .pllLossOfLock x => Sys2Proof.Machine.execPllLossOfLock x s
  | .pllLossOfReference x => Sys2Proof.Machine.execPllLossOfReference x s
  | .pllRelockStart x => Sys2Proof.Machine.execPllRelockStart x s
  | .clkInGood x => Sys2Proof.Machine.execClkInGood x s
  | .pllRelock x => Sys2Proof.Machine.execPllRelock x s
  | .pllDelayWrite x o v => Sys2Proof.Machine.execPllDelayWrite x o v s
  | .syncArm => Sys2Proof.Machine.execSyncArm s
  | .syncInEdge => Sys2Proof.Machine.execSyncInEdge s
  | .sheddingStageEntry t vin iin => Sys2Proof.Machine.execSheddingStageEntry t vin iin s
  | .sheddingStageRelease k vin iin => Sys2Proof.Machine.execSheddingStageRelease k vin iin s
  | .powerOnReset recovered => Sys2Proof.Machine.execPowerOnReset recovered s
  | .railFault r mv => Sys2Proof.Machine.execRailFault r mv s
  | .aux5Overload present => Sys2Proof.Machine.execAux5Overload present s
  | .lowestVinReset => Sys2Proof.Machine.execLowestVinReset s
  | .idleStateEntry => Sys2Proof.Machine.execIdleStateEntry s
  | .wakeEvent cause => Sys2Proof.Machine.execWakeEvent cause s
  | .idleExitComplete us => Sys2Proof.Machine.execIdleExitComplete us s
  | .headRealignTimeout h => Sys2Proof.Machine.execHeadRealignTimeout h s
  | .dieSensorSample sensor reading => Sys2Proof.Machine.execDieSensorSample sensor reading s
  | .thermalShutdown => Sys2Proof.Machine.execThermalShutdown s
  | .fuseProgram supply fails => Sys2Proof.Machine.execFuseProgram supply fails s
  | .fuseSeal supply fails => Sys2Proof.Machine.execFuseSeal supply fails s
  | .fuseLock supply fails => Sys2Proof.Machine.execFuseLock supply fails s
  | .lifecycleTransition target supply => Sys2Proof.Machine.execLifecycleTransition target supply s
  | .keyRevoke supply => Sys2Proof.Machine.execKeyRevoke supply s
  | .dawnFuseRead weak => Sys2Proof.Machine.execDawnFuseRead weak s
  | .dawnWipe => Sys2Proof.Machine.execDawnWipe s
  | .dawnBootRom => Sys2Proof.Machine.execDawnBootRom s
  | .dawnDramTraining trained => Sys2Proof.Machine.execDawnDramTraining trained s
  | .dawnPartitionStart => Sys2Proof.Machine.execDawnPartitionStart s
  | .dawnPeerDiscovery => Sys2Proof.Machine.execDawnPeerDiscovery s
  | .dawnDiscoveryTimeout => Sys2Proof.Machine.execDawnDiscoveryTimeout s
  | .dawnHeadDiscovery => Sys2Proof.Machine.execDawnHeadDiscovery s
  | .lssFastscanStep port found => Sys2Proof.Machine.execLssFastscanStep port found s
  | .lssIdentifyTimer reply => Sys2Proof.Machine.execLssIdentifyTimer reply s
  | .usdoClientResponse ix data abort => Sys2Proof.Machine.execUsdoClientResponse ix data abort s
  | .usdoClientTimeout ix => Sys2Proof.Machine.execUsdoClientTimeout ix s
  | .bootupReceived ix => Sys2Proof.Machine.execBootupReceived ix s
  | .heartbeatReceived ix nmt => Sys2Proof.Machine.execHeartbeatReceived ix nmt s
  | .heartbeatLoss ix => Sys2Proof.Machine.execHeartbeatLoss ix s
  | .heartbeatProduce => Sys2Proof.Machine.execHeartbeatProduce s
  | .emcyReceived ix code data => Sys2Proof.Machine.execEmcyReceived ix code data s
  | .nmtCommandReceived cmd node => Sys2Proof.Machine.execNmtCommandReceived cmd node s
  | .rpdoReceived n data => Sys2Proof.Machine.execRpdoReceived n data s
  | .syncPeriod counter => Sys2Proof.Machine.execSyncPeriod counter s
  | .tpdoEventCheck timers => Sys2Proof.Machine.execTpdoEventCheck timers s
  | .canBusOff port => Sys2Proof.Machine.execCanBusOff port s
  | .activePortSilence => Sys2Proof.Machine.execActivePortSilence s
  | .peerReconfigure ix => Sys2Proof.Machine.execPeerReconfigure ix s
  | .peerAcceptIdentity ix => Sys2Proof.Machine.execPeerAcceptIdentity ix s
  | .peerForget ix => Sys2Proof.Machine.execPeerForget ix s
  | .usdoRequest op idx sub data => Sys2Proof.Machine.execUsdoRequest op idx sub data s
  | .mailboxGo => Sys2Proof.Machine.execMailboxGo s
  | .mailboxCancel => Sys2Proof.Machine.execMailboxCancel s
  | .mailboxResponse => Sys2Proof.Machine.execMailboxResponse s
  | .segmentTimeout => Sys2Proof.Machine.execSegmentTimeout s
  | .dictionaryStore group v readbackOk => Sys2Proof.Machine.execDictionaryStore group v readbackOk s
  | .dictionaryRestore group v readbackOk => Sys2Proof.Machine.execDictionaryRestore group v readbackOk s
  | .errorListClear v => Sys2Proof.Machine.execErrorListClear v s
  | .inputGlitch ix => Sys2Proof.Machine.execInputGlitch ix s
  | .bar2Access write addr len data => Sys2Proof.Machine.execBar2Access write addr len data s
  | .pcieLinkEvent ev => Sys2Proof.Machine.execPcieLinkEvent ev s
  | .debugPortAccess a => Sys2Proof.Machine.execDebugPortAccess a s

end Sys2Proof.Machine
end

