-- ==== Sys2Proof/Safety.lean ====
section
/-! DEFINITION. The terms claims are stated in: a command that completes, what it leaves alone, and the invariants of the
machine. -/

namespace Sys2Proof.Machine

/-- Command `c` completes on `s`: exec answers a next state, and it is as `P` says. -/
def Completes (c : Instr) (s : State) (P : State → Prop) : Prop := ∃ t, exec c s = .next t ∧ P t

/-- Command `c` completes on `s` with engine `e`; the queue and what outlives power stay. -/
def Becomes (c : Instr) (s : State) (e : Engine) : Prop := exec c s = .next { s with e := e }

/-- Command `c` completes and leaves engine `e` but for the numeric dictionary entries `kvs`, which hold the values given with
them. -/
def Writes (c : Instr) (s : State) (e : Engine) (kvs : List (Nat × Nat)) : Prop :=
  Completes c s (fun t =>
    (∀ p, p ∈ kvs → t.e.ent p.1 = p.2) ∧ (∀ k, k ∉ kvs.map Prod.fst → t.e.ent k = e.ent k) ∧
    t = { s with e := { e with d.dict := t.e.d.dict } })

/-- A dictionary request is answered with abort code `code` (0: done), and beside the answer only the entries `kvs` are written
(R399). -/
def Answers (c : Instr) (s : State) (code : Nat) (kvs : List (Nat × Nat)) : Prop :=
  Completes c s (fun t =>
    (∀ p, p ∈ kvs → t.e.ent p.1 = p.2) ∧ (∀ k, k ∉ kvs.map Prod.fst → t.e.ent k = s.e.ent k) ∧
    t = { s with e := { s.e with d.dict := t.e.d.dict, sdo := code, sdoData := [] } })

/-- The same for a request that is answered as done. -/
def Serves (c : Instr) (s : State) (kvs : List (Nat × Nat)) : Prop := Answers c s 0 kvs

/-- A dictionary request is refused: the abort code is answered and nothing else happens (R399). -/
def Refuses (c : Instr) (s : State) (code : Nat) : Prop := Becomes c s { s.e with sdo := code, sdoData := [] }

/-- Command `c` completes by raising fault message (src, kind, detail) on an engine as `P` says. -/
def Raises (c : Instr) (s : State) (P : Engine → Prop) (src kind detail : Nat) : Prop :=
  ∃ e, P e ∧ Becomes c s (e.raise src kind detail)

/-- Engine `b` is `a` but for the numeric dictionary entries `kvs`, which hold the values given with them. -/
def Engine.wrote (a b : Engine) (kvs : List (Nat × Nat)) : Prop :=
  (∀ p, p ∈ kvs → b.ent p.1 = p.2) ∧ (∀ k, k ∉ kvs.map Prod.fst → b.ent k = a.ent k) ∧ b = { a with d.dict := b.d.dict }

/-- Command `c` completes and leaves engine `e` but for DMA channel `d`, which is `x`. -/
def SetsDma (c : Instr) (s : State) (e : Engine) (d : Nat) (x : Dma) : Prop :=
  Completes c s (fun t => t.e.dma d = x ∧ (∀ j, j ≠ d → t.e.dma j = e.dma j) ∧
    t = { s with e := { e with host.dma := t.e.host.dma } })

/-- The engine takes commands and partition `p` serves its entries. -/
abbrev State.serves (s : State) (p : Nat) : Prop := s.e.live = true ∧ s.e.serving p = true

/-- The canonical form of what outlives power: fuse words, flash contents and their indices are listed in rising order with
nothing listed that reads as its default. -/
def NonVol.wf (n : NonVol) : Bool :=
  cellsWf (fun _ => 0) n.fuses && cellsWf (fun _ => 0) n.slot && cellsWf (fun _ => false) n.trial &&
    cellsWf (fun _ => 0) n.fallbacks && cellsWf (fun _ => []) n.images && cellsWf (fun _ => []) n.records &&
    cellsWf (fun _ => []) n.copies

/-- Whether every fuse bit that is blown in `a` is blown in `b` (R362). -/
def NonVol.fusesGrow (a b : NonVol) : Prop :=
  ∀ w i, (cellGet (fun _ => 0) a.fuses w).testBit i = true → (cellGet (fun _ => 0) b.fuses w).testBit i = true

/-- A run is safe when every step of it answers a next state. -/
def SafeStep (s : State) : Prop := ∃ t, step s = .next t

end Sys2Proof.Machine
end

