-- ==== Sys2Proof/Certificates/Slice0/Obligations.lean ====
section
/-! DEFINITION. The statements for the provers: what the rules of spec/ say of every command, in terms of exec and step. A clause
`Becomes c s e` gives the whole state a command leaves; `Writes`, `Serves` and `SetsDma` give the entries or the channel it
changes and leave all else; `Completes` names what the command does. A statement of two or three parts is the conjunction of
its `Says` propositions. -/

open Sys2Proof Sys2Proof.Machine

/-! The queue, reset, and what every command keeps -/

/-- Task clause for a block: a step runs the command at the front of the queue on the state with the queue's rest. -/
def Obligations.StepRunsFrontCommand : Prop :=
  ∀ (c : Instr) (rest : List Instr) (s : State), step { s with pending := c :: rest } = exec c { s with pending := rest }

/-- Log entry 1 (the model's choice): on an empty queue one REF cycle passes, in power-on reset nothing does. -/
def Obligations.EmptyQueueTicks : Prop :=
  ∀ s : State, s.pending = [] →
    (s.e.mode ≠ .powerOnReset → step s = .next { s with e := { s.e with now := (s.e.now + 1) % 2 ^ 64 } }) ∧
    (s.e.mode = .powerOnReset → step s = .next s)

/-- R401, R377, R368 and the defaults of chapter 19: the machine at the release of power-on reset. The emptiness of fuses and
flash is the model's choice (log entry 8). -/
def Obligations.ResetState : Prop :=
  State.reset.pending = [] ∧ State.reset.e.mode = .dawn ∧ State.reset.e.get 0x2001 1 = 1 ∧ State.reset.e.get 0x2200 2 = 0 ∧
  State.reset.e.get 0x4200 4 = 0 ∧ State.reset.e.get 0x4220 1 = 0 ∧ State.reset.e.flt.faultLPin = false ∧
  State.reset.e.flt.log = [] ∧ (∀ d, State.reset.e.dma d = {}) ∧ State.reset.e.host.ringEnable = false ∧
  (∀ a n, 0 < n → State.reset.e.dramRead a n = none) ∧ Memory.wf State.reset.e.mem = true ∧ State.reset.nv.wf = true

/-- No command but one that comes from outside is ever added to the queue: exec leaves the queue alone. -/
def Says.CommandsKeepTheQueue : Prop :=
  ∀ (c : Instr) (s t : State), exec c s = .next t → t.pending = s.pending

/-- Every command of every state answers a next state (whatever its operands). -/
def Says.EveryStepGoesOn : Prop := ∀ s : State, SafeStep s

/-- Every command of every state answers a next state and leaves the queue as it was. Log entry 3: the model's reading. -/
def Obligations.QueueOutlivesEveryCommand : Prop := Says.CommandsKeepTheQueue ∧ Says.EveryStepGoesOn

/-- Flash and fuses keep their canonical form under every step. -/
def Obligations.NonVolatileFormKept : Prop :=
  ∀ s t : State, s.nv.wf = true → step s = .next t → t.nv.wf = true

/-- R362: a blown fuse bit stays blown: no step of the machine clears one. -/
def Obligations.FusesAreOneTime : Prop :=
  ∀ s t : State, step s = .next t → s.nv.fusesGrow t.nv

/-- R349, R358, R378: in power-on reset, held in reset and in thermal shutdown only removal and return of power, the REF
monitor and the thermal comparators act; every other command leaves all but the queue as it was. -/
def Obligations.HeldEngineIgnoresCommands : Prop :=
  ∀ (c : Instr) (s : State), s.e.live = false →
    (∀ r, c ≠ .powerOnReset r) → (∀ n, c ≠ .refMonitorWindow n) → c ≠ .thermalShutdown → exec c s = .next s

/-! The host's registers -/

/-- R60, R61, R69, R77: reading a clearing counter returns it and leaves 0, and changes nothing else. -/
def Says.ClearingReads : Prop :=
  ∀ s : State, s.e.live = true →
    Becomes .bar2ErrRead s { s.e with readData := s.e.host.bar2Err, host.bar2Err := 0 } ∧
    (∀ d : Fin 36, Completes (.surplusRead d) s (fun t =>
      t.e.readData = (s.e.dma d.val).surplus ∧ t.e.dma d.val = { s.e.dma d.val with surplus := 0 } ∧
      (∀ j, j ≠ d.val → t.e.dma j = s.e.dma j) ∧
      t = { s with e := { s.e with readData := t.e.readData, host.dma := t.e.host.dma } })) ∧
    Becomes .droppedRead s { s.e with readData := s.e.host.dropped, host.dropped := 0 }

/-- R11, R61, R402: a 1 clears the RW1C bit it meets, of the mailbox STATUS at 1004h or of a channel's STATUS at 04h of its
block; a 0 leaves it; an offset without such bits changes nothing. Mailbox and channel writes are wake events (R353). -/
def Says.Rw1cClears : Prop :=
  ∀ (s : State) (e : Engine) (v : BitVec 32), s.e.live = true → e = s.e.wake 1 →
    (∀ off : BitVec 24, off.toNat = 0x1004 →
      Becomes (.rw1cStatusClear off v) s
        { e with host.mb.done := e.host.mb.done && !v.getLsbD 1,
                          host.mb.goIgnored := e.host.mb.goIgnored && !v.getLsbD 2 }) ∧
    (∀ (off : BitVec 24) (d : Fin 32), off.toNat = 0x10004 + 256 * d.val →
      SetsDma (.rw1cStatusClear off v) s e d.val
        { e.dma d.val with done := (e.dma d.val).done && !v.getLsbD 8, atEndEvt := (e.dma d.val).atEndEvt && !v.getLsbD 9, stoppedEvt := (e.dma d.val).stoppedEvt && !v.getLsbD 10, errorEvt := (e.dma d.val).errorEvt && !v.getLsbD 11, startIgnored := (e.dma d.val).startIgnored && !v.getLsbD 16 }) ∧
    (∀ off : BitVec 24, off.toNat ≠ 0x1004 → (off.toNat < 0x10000 ∨ 0x12000 ≤ off.toNat ∨ off.toNat % 256 ≠ 4) →
      Becomes (.rw1cStatusClear off v) s
        (if 0x1000 ≤ off.toNat ∧ off.toNat < 0x3000 ∨ 0x10000 ≤ off.toNat ∧ off.toNat < 0x12400 then e else s.e))

/-- R58, R61, R402, R77: a write of a plain register stores its value: SRC, DST, COUNT, MODE and DESC of a channel, the mailbox
request registers, BASE, RING_SIZE and holdoff of the event ring; an offset that no register has ignores the write. -/
def Says.RegisterWriteStores : Prop :=
  ∀ (s : State) (e : Engine) (off : BitVec 24) (v : BitVec 32), s.e.live = true → e = s.e.wake 1 →
    (∀ d : Fin 32,
      (off.toNat = 0x10018 + 256 * d.val → SetsDma (.registerWrite off v) s e d.val
        { e.dma d.val with count := v.toNat }) ∧
      (off.toNat = 0x1001C + 256 * d.val → SetsDma (.registerWrite off v) s e d.val
        { e.dma d.val with mode := v.toNat }) ∧
      (off.toNat = 0x10008 + 256 * d.val → SetsDma (.registerWrite off v) s e d.val
        { e.dma d.val with src := (e.dma d.val).src / 2 ^ 32 * 2 ^ 32 + v.toNat }) ∧
      (off.toNat = 0x10024 + 256 * d.val → SetsDma (.registerWrite off v) s e d.val
        { e.dma d.val with desc := (e.dma d.val).desc % 2 ^ 32 + v.toNat * 2 ^ 32 })) ∧
    (off.toNat = 0x1008 → Becomes (.registerWrite off v) s
      { e with host.mb.op := v.toNat % 256, host.mb.sub := v.toNat / 256 % 256, host.mb.index := v.toNat / 65536 % 65536 }) ∧
    (off.toNat = 0x100C → Becomes (.registerWrite off v) s { e with host.mb.offset := v.toNat }) ∧
    (off.toNat = 0x1010 → Becomes (.registerWrite off v) s
      { e with host.mb.length := v.toNat % 8192, host.mb.more := v.getLsbD 31 }) ∧
    (off.toNat = 0x40000 → s.e.host.ringEnable = false → Becomes (.registerWrite off v) s
      { s.e with host.ringBase := s.e.host.ringBase / 2 ^ 32 * 2 ^ 32 + v.toNat / 64 * 64 }) ∧
    (off.toNat = 0x40000 → s.e.host.ringEnable = true → Becomes (.registerWrite off v) s s.e) ∧
    (off.toNat < 0x1000 → Becomes (.registerWrite off v) s s.e)

/-- Plain, clearing and write-1-to-clear registers of BAR0. -/
def Obligations.HostRegisters : Prop := Says.ClearingReads ∧ Says.Rw1cClears ∧ Says.RegisterWriteStores

/-! DMA channels -/

/-- R63: START in Idle or Stopped runs: with a chain it fetches the descriptor at DESC, 32-byte aligned; directly it executes the
registers' descriptor where that is legal, and returns to Idle when it is done; in any other state it only sets START_IGNORED. -/
def Obligations.DmaStartRuns : Prop :=
  ∀ (s : State) (e : Engine) (d : Fin 32), s.e.live = true → e = s.e.wake 1 →
    (((e.dma d.val).st = .idle ∨ (e.dma d.val).st = .stopped) →
      (e.dma d.val).chain = true → (e.dma d.val).desc % 32 = 0 →
      Completes (.dmaStart d) s (fun t =>
        t.e.dma d.val = { e.dma d.val with
          st := .running, doneCount := 0, dbPending := false, direct := false, rereading := false,
          fetching := some (e.dma d.val).desc } ∧
        t.e.out = .hostRead (e.dma d.val).desc 32 :: e.out ∧
        (∀ j, j ≠ d.val → t.e.dma j = e.dma j) ∧
        t = { s with e := { e with host.dma := t.e.host.dma, out := t.e.out } })) ∧
    (((e.dma d.val).st = .idle ∨ (e.dma d.val).st = .stopped) →
      (e.dma d.val).chain = false →
      (e.dma d.val).mode = 0 → (e.dma d.val).dst + (e.dma d.val).count ≤ e.mem.usable →
      SetsDma (.dmaStart d) s e d.val
        { e.dma d.val with st := .running, doneCount := 0, dbPending := false, direct := true, cur := 0, fetching := none, waiting := false, remain := (e.dma d.val).count, exec := some { src := (e.dma d.val).src, dst := (e.dma d.val).dst, count := (e.dma d.val).count, ctrl := 0, next := 0 } }) ∧
    ((e.dma d.val).st ≠ .idle → (e.dma d.val).st ≠ .stopped →
      SetsDma (.dmaStart d) s e d.val
        { e.dma d.val with startIgnored := true }) ∧
    (∀ desc, (s.e.dma d.val).exec = some desc → (s.e.dma d.val).remain = 0 → (s.e.dma d.val).st = .running →
      (s.e.dma d.val).direct = true → desc.ctrl = 0 → Completes (.descriptorComplete d) s (fun t =>
        (t.e.dma d.val).st = .idle ∧ (t.e.dma d.val).exec = none))

/-- R61, R66, R67: STOP while a descriptor executes waits for its boundary; DOORBELL while running latches DB_PENDING and in
AT_END re-reads CTRL and NEXT of the tail; RESET takes Error or Stopped to Idle and clears STATUS. -/
def Says.DmaStopDoorbellReset : Prop :=
  ∀ (s : State) (e : Engine) (d : Fin 32), s.e.live = true → e = s.e.wake 1 →
    ((e.dma d.val).st = .running → (e.dma d.val).fetching = none →
      (e.dma d.val).rereading = false →
      SetsDma (.dmaStop d) s e d.val
        { e.dma d.val with st := .stopping }) ∧
    ((e.dma d.val).st = .atEnd → (e.dma d.val).irqEn = false →
      SetsDma (.dmaStop d) s e d.val
        { e.dma d.val with st := .stopped, stoppedEvt := true, fetching := none, rereading := false, dbPending := false, waiting := false, exec := none }) ∧
    ((e.dma d.val).st = .running →
      SetsDma (.dmaDoorbell d) s e d.val
        { e.dma d.val with dbPending := true }) ∧
    ((e.dma d.val).st = .atEnd → (e.dma d.val).rereading = false →
      Completes (.dmaDoorbell d) s (fun t =>
        t.e.dma d.val = { e.dma d.val with rereading := true, dbPending := false } ∧
        t.e.out = .hostRead ((e.dma d.val).cur + 0x14) 12 :: e.out ∧
        (∀ j, j ≠ d.val → t.e.dma j = e.dma j) ∧
        t = { s with e := { e with host.dma := t.e.host.dma, out := t.e.out } })) ∧
    (((e.dma d.val).st = .error ∨ (e.dma d.val).st = .stopped) →
      SetsDma (.dmaReset d) s e d.val
        { e.dma d.val with st := .idle, dbPending := false, waiting := false, done := false, atEndEvt := false, stoppedEvt := false, errorEvt := false, errCode := 0, startIgnored := false, exec := none }) ∧
    ((e.dma d.val).st ≠ .error → (e.dma d.val).st ≠ .stopped →
      Becomes (.dmaReset d) s e)

/-- R62, R64, R65: a descriptor read that fails is error 1 at its address; a legal copy descriptor begins to execute; a burst of a
copy to DRAM moves its bytes and lowers what remains; at 0 the descriptor completes: a direct transfer leaves the channel Idle
with one more done. -/
def Says.DmaDescriptorFlow : Prop :=
  ∀ (s : State) (d : Fin 32), s.e.live = true →
    (∀ a, (s.e.dma d.val).fetching = some a → (s.e.dma d.val).irqEn = false →
      SetsDma (.descriptorFetch d none) s s.e d.val
        { s.e.dma d.val with st := .error, errorEvt := true, errCode := 1, errAddr := a, cur := a, waiting := false, fetching := none, rereading := false }) ∧
    (∀ a bs, (s.e.dma d.val).fetching = some a → (parseDesc bs).ctrl = 0 →
      (parseDesc bs).dst + (parseDesc bs).count ≤ s.e.mem.usable →
      SetsDma (.descriptorFetch d (some bs)) s s.e d.val
        { s.e.dma d.val with cur := a, fetching := none, exec := some (parseDesc bs), remain := (parseDesc bs).count, waiting := false }) ∧
    (∀ desc data late, (s.e.dma d.val).exec = some desc → desc.ctrl = 0 → data.length ≤ 4096 →
      data.length ≤ (s.e.dma d.val).remain → (s.e.dma d.val).remain ≤ desc.count →
      s.e.badPartial (desc.dst + (desc.count - (s.e.dma d.val).remain)) data.length = none →
      Completes (.dmaBurstComplete (d.castLE (by omega)) data late .ok) s (fun t =>
        (t.e.dma d.val).remain = (s.e.dma d.val).remain - data.length ∧ (t.e.dma d.val).exec = some desc ∧
        t.e.mem = (s.e.dramWrite (desc.dst + (desc.count - (s.e.dma d.val).remain)) data).mem ∧
        (∀ j, j ≠ d.val → t.e.dma j = s.e.dma j))) ∧
    (∀ desc, (s.e.dma d.val).exec = some desc → (s.e.dma d.val).remain = 0 → (s.e.dma d.val).st = .running →
      (s.e.dma d.val).direct = true → desc.ctrl = 0 →
      SetsDma (.descriptorComplete d) s s.e d.val
        { s.e.dma d.val with st := .idle, exec := none, doneCount := ((s.e.dma d.val).doneCount + 1) % 2 ^ 32 })

/-- R64, R66, R67: a chained descriptor whose END is clear is followed by a read of its NEXT; with END set the channel parks in
AT_END; a re-read that still shows END leaves the channel there, one that shows NEXT follows it. A withdrawn request that
returns lets a channel go on (R69). -/
def Says.DmaChainFollows : Prop :=
  ∀ (s : State) (d : Fin 36), s.e.live = true →
    (∀ (c : Fin 32) desc, (s.e.dma c.val).exec = some desc → (s.e.dma c.val).remain = 0 → (s.e.dma c.val).st = .running →
      (s.e.dma c.val).direct = false → desc.ctrl = 0 → desc.next % 32 = 0 →
      Completes (.descriptorComplete c) s (fun t =>
        (t.e.dma c.val).fetching = some desc.next ∧ (t.e.dma c.val).st = .running ∧
        (t.e.dma c.val).doneCount = ((s.e.dma c.val).doneCount + 1) % 2 ^ 32 ∧ t.e.out = .hostRead desc.next 32 :: s.e.out ∧
        (∀ j, j ≠ c.val → t.e.dma j = s.e.dma j) ∧
        t = { s with e := { s.e with host.dma := t.e.host.dma, out := t.e.out } })) ∧
    (∀ (c : Fin 32) desc, (s.e.dma c.val).exec = some desc → (s.e.dma c.val).remain = 0 → (s.e.dma c.val).st = .running →
      (s.e.dma c.val).direct = false → (s.e.dma c.val).dbPending = false → (s.e.dma c.val).irqEn = false → desc.ctrl = 2 ^ 31 →
      Completes (.descriptorComplete c) s (fun t =>
        (t.e.dma c.val).st = .atEnd ∧ (t.e.dma c.val).atEndEvt = true ∧
        (∀ j, j ≠ c.val → t.e.dma j = s.e.dma j) ∧ t = { s with e := { s.e with host.dma := t.e.host.dma } })) ∧
    (∀ (c : Fin 32) bs, (s.e.dma c.val).rereading = true → (s.e.dma c.val).st = .atEnd → (s.e.dma c.val).dbPending = false →
      (le (bs.take 4)).testBit 31 = true →
      SetsDma (.doorbellReread c (some bs)) s s.e c.val
        { s.e.dma c.val with rereading := false }) ∧
    (∀ (c : Fin 32) bs, (s.e.dma c.val).rereading = true → (le (bs.take 4)).testBit 31 = false →
      le ((bs.drop 4).take 8) % 32 = 0 →
      Completes (.doorbellReread c (some bs)) s (fun t =>
        (t.e.dma c.val).fetching = some (le ((bs.drop 4).take 8)) ∧ (t.e.dma c.val).st = .running ∧
        (∀ j, j ≠ c.val → t.e.dma j = s.e.dma j))) ∧
    (∀ data late st, 32 ≤ d.val → d.val < 34 →
      SetsDma (.dmaBurstComplete d data late st) s s.e d.val
        { s.e.dma d.val with surplus := min (2 ^ 32 - 1) ((s.e.dma d.val).surplus + late) }) ∧
    ((s.e.dma d.val).exec = none →
      SetsDma (.peripheralRequestReturn d) s s.e d.val
        { s.e.dma d.val with waiting := false }) ∧
    (∀ desc, (s.e.dma d.val).exec = some desc → desc.kind = 1 → s.e.ctxState (desc.dst % 256) = 1 →
      s.e.intakeReady (desc.dst % 256) (s.e.dma d.val).remain = true →
      SetsDma (.peripheralRequestReturn d) s s.e d.val
        { s.e.dma d.val with waiting := false })

/-- What a DMA channel does after its start: stop, doorbell, reset, descriptors, bursts, chains. -/
def Obligations.DmaCommandsAndDescriptors : Prop := Says.DmaStopDoorbellReset ∧ Says.DmaDescriptorFlow ∧ Says.DmaChainFollows

/-! Event ring, resets from the host, BAR2, mailbox, link -/

/-- R77: ENABLE begins at record 0 with the phase set; RD frees ring space; the end of a holdoff without a record in it ends the
spacing, and with one signals vector 0. -/
def Says.EventRingCommands : Prop :=
  ∀ s : State, s.e.live = true →
    (s.e.host.ringEnable = false → s.e.host.lostSince = 0 →
      Becomes .eventRingEnable s { s.e with host.ringEnable := true, host.wr := 0, host.phase := true }) ∧
    (s.e.host.ringEnable = true → Becomes .eventRingEnable s s.e) ∧
    (∀ v : BitVec 16, s.e.host.lostSince = 0 → Becomes (.eventRingRdWrite v) s { s.e with host.rd := v.toNat }) ∧
    (s.e.host.holdoffOn = true → s.e.host.unsignalled = false →
      Becomes .eventHoldoffExpiry s { s.e with host.holdoffOn := false }) ∧
    (s.e.host.holdoffOn = true → s.e.host.unsignalled = true → s.e.host.ringEnable = true → s.e.msixWord 3 % 2 = 0 →
      Becomes .eventHoldoffExpiry s
        { s.e with host.unsignalled := false, host.holdoffOn := s.e.host.holdoff != 0, out := .msix 0 :: s.e.out })

/-- R78, R405: a function-level reset returns host channels, event ring and MSI-X to their reset values and keeps the mailbox and
the internal channels; a conventional reset begins Dawn with the job Idle. Log entries 6, 63: the model's readings. -/
def Says.HostResets : Prop :=
  ∀ s : State, s.e.live = true →
    ((∀ c, c < 256 → s.e.ctxState c ≠ 1) → s.e.idle = 0 → Completes .functionLevelReset s (fun t =>
      (∀ d, d < 32 → t.e.dma d = {}) ∧ t.e.host.ringEnable = false ∧ t.e.host.ringBase = 0 ∧ t.e.host.wr = 0 ∧
      t.e.host.rd = 0 ∧ t.e.host.msix = [] ∧ t.e.host.pba = [] ∧ t.e.host.mb = s.e.host.mb ∧
      t = { s with e := { s.e with host := t.e.host } })) ∧
    Completes .conventionalReset s (fun t =>
      t.e.mode = .dawn ∧ t.e.get 0x2200 2 = 0 ∧ t.e.flt.log = [] ∧ (∀ d, t.e.dma d = {}) ∧ t.e.now = s.e.now ∧
      t.pending = s.pending ∧ t.nv.fuses = s.nv.fuses ∧ t.nv.images = s.nv.images)

/-- The event ring, and the resets that come from the host. -/
def Obligations.EventRingAndResets : Prop := Says.EventRingCommands ∧ Says.HostResets

/-- R59: a BAR2 read of data returns it; beyond usable capacity it is an unsupported request and counted; of a line without data
it is a completer abort; a write stores its bytes and no other byte changes. Log entry 40: the model's reading. -/
def Says.Bar2Accesses : Prop :=
  ∀ (s : State) (e : Engine) (a : BitVec 36) (n : Nat) (data : List Byte), s.e.live = true → e = s.e.wake 2 →
    (e.dramServing = true → e.inDram a.toNat n = true → a.toNat + n ≤ 2 ^ 36 →
      e.busError a.toNat n = none →
      Becomes (.bar2Access false a n []) s
        { e with out := .bar2 0 ((List.range n).map (fun i => e.dramByte (a.toNat + i))) :: e.out }) ∧
    (e.inDram a.toNat n = false →
      Becomes (.bar2Access false a n data) s
        { e with host.bar2Err := min (2 ^ 32 - 1) (e.host.bar2Err + 1), out := .bar2 1 [] :: e.out }) ∧
    (e.dramServing = true → e.inDram a.toNat n = true → a.toNat + n ≤ 2 ^ 36 →
      e.busError a.toNat n ≠ none →
      Becomes (.bar2Access false a n data) s
        { e with host.bar2Err := min (2 ^ 32 - 1) (e.host.bar2Err + 1), out := .bar2 2 [] :: e.out }) ∧
    (e.dramServing = true → e.inDram a.toNat n = true → a.toNat + n ≤ 2 ^ 36 → data.length = n →
      e.badPartial a.toNat n = none →
      Completes (.bar2Access true a n data) s (fun t =>
        (∀ i, i < n → t.e.dramByte (a.toNat + i) = data.getD i 0) ∧
        (∀ b, b < a.toNat ∨ a.toNat + n ≤ b → t.e.dramByte b = e.dramByte b) ∧
        (∀ l, l ∈ linesOf a.toNat n → t.e.lineOk l = true) ∧ t.e.host = e.host))

/-- R402-R405: GO takes the request registers; while BUSY it only sets GO_IGNORED; CANCEL and 10 s without a segment abandon an
open transfer and snapshot; an operation other than 1 or 2 is answered 0800 0000h, with DONE and one more SEQ.
Log entries 15, 18: the model's readings. -/
def Obligations.MailboxCommands : Prop :=
  ∀ (s : State) (e : Engine), s.e.live = true → e = s.e.wake 1 →
    (e.host.mb.busy = false → Completes .mailboxGo s (fun t =>
      t.e.host.mb.busy = true ∧
      t.e.host.mb.taken = some (e.host.mb.op, e.host.mb.index, e.host.mb.sub,
        e.host.mb.offset, e.host.mb.length, e.host.mb.more) ∧
      t.e.host.mb.result = e.host.mb.result ∧ t = { s with e := { e with host.mb := t.e.host.mb } })) ∧
    (e.host.mb.busy = true → Becomes .mailboxGo s { e with host.mb.goIgnored := true }) ∧
    Becomes .mailboxCancel s { e with host.mb.wrOpen := none, host.mb.wrBytes := [], host.mb.snapOpen := none, host.mb.snap := [] } ∧
    Becomes .segmentTimeout s { s.e with host.mb.wrOpen := none, host.mb.wrBytes := [], host.mb.snapOpen := none, host.mb.snap := [] } ∧
    (∀ op idx sub off len more, s.e.host.mb.taken = some (op, idx, sub, off, len, more) → op ≠ 1 → op ≠ 2 →
      s.e.flag 0x2001 2 = true → s.e.idle = 0 → s.e.host.mb.irqEn = false →
      Completes .mailboxResponse s (fun t =>
        t.e.host.mb.result = 0x08000000 ∧ t.e.host.mb.busy = false ∧ t.e.host.mb.done = true ∧ t.e.host.mb.taken = none ∧
        t.e.host.mb.seq = (s.e.host.mb.seq + 1) % 2 ^ 32 ∧
        t = { s with e := { s.e with host.mb := t.e.host.mb, d.dict := t.e.d.dict } })) ∧
    (∀ idx sub len more (r : Engine), s.e.host.mb.taken = some (1, idx, sub, 0, len, more) →
      r = Engine.serveRead { s.e with host.mb := s.e.host.mb.narrow (idx, sub) false } idx sub →
      idx ≠ 0x2600 → s.e.flag 0x2001 2 = true → s.e.idle = 0 → s.e.host.mb.irqEn = false →
      Completes .mailboxResponse s (fun t =>
        t.e.host.mb.result = r.sdo ∧ t.e.host.mb.busy = false ∧ t.e.host.mb.done = true ∧ t.e.host.mb.taken = none ∧
        t.e.host.mb.seq = (s.e.host.mb.seq + 1) % 2 ^ 32 ∧
        (r.sdo = 0 → t.e.host.mb.total = r.sdoData.length ∧ t.e.host.mb.respLength = min 4096 r.sdoData.length ∧
          ∀ i, i < min 4096 r.sdoData.length → cellGet (fun _ => 0) t.e.host.mb.data i = r.sdoData.getD i 0)))

/-- R57, R353: a D-state change and an L1 exit act on the link and wake the engine; training sets speed and width alone.
Log entry 6: the model's reading. -/
def Says.PcieLink : Prop :=
  ∀ s : State, s.e.live = true →
    Becomes (.pcieLinkEvent .l1Exit) s (Engine.wake { s.e with host.inL1 := false } 3) ∧
    Becomes (.pcieLinkEvent .l1Entry) s { s.e with host.inL1 := true } ∧
    (∀ d3, s.e.host.d3hot ≠ d3 → Becomes (.pcieLinkEvent (.dState d3)) s (Engine.wake { s.e with host.d3hot := d3 } 3)) ∧
    (∀ d3, s.e.host.d3hot = d3 → Becomes (.pcieLinkEvent (.dState d3)) s s.e) ∧
    (∀ speed width, Becomes (.pcieLinkEvent (.trained speed width)) s
      { s.e with host.linkSpeed := speed.val, host.linkWidth := width.val })

/-- BAR2 and the PCI Express link. -/
def Obligations.HostBusAccesses : Prop := Says.Bar2Accesses ∧ Says.PcieLink

/-! Partitions and the job -/

/-- R26, R27, R29: the watchdog of a serving partition stops it, and message 0Bh:01h is raised; a restarted partition that
reports ready serves again; an image that was switched to becomes the running one; an image that is not ready in time is
replaced by the previous slot, the fallback counted and 0Bh:02h raised. -/
def Says.PartitionLife : Prop :=
  ∀ (s : State) (p : Fin 4), s.e.live = true →
    (bit s.e.dawn.partUp p.val = true →
      Raises (.partitionWatchdogExpiry p) s (fun e => e.get (0x4400 + p.val) 4 = 3 ∧ e.serving p.val = false ∧
        (∀ k, k ≠ ekey (0x4400 + p.val) 4 → e.ent k = s.e.ent k)) 0x0B 1 p.val) ∧
    (bit s.e.dawn.partUp p.val = false → 7 ≤ s.e.get 0x2001 1 → s.e.pan.holder = none → p.val ≠ 2 →
      s.e.starting p.val = 0 →
      Completes (.partitionReady p) s (fun t =>
        t.e.serving p.val = true ∧ t.e.get (0x4400 + p.val) 4 = (if s.e.get (0x4400 + p.val) 3 = 0 then 0 else 1) ∧
        (∀ k, k ≠ ekey (0x4400 + p.val) 4 → t.e.ent k = s.e.ent k) ∧ t.pending = s.pending ∧ t.nv.fuses = s.nv.fuses)) ∧
    (bit s.e.dawn.partUp p.val = false → 7 ≤ s.e.get 0x2001 1 → s.e.pan.holder = none → p.val ≠ 2 →
      s.e.starting p.val = 1 →
      Completes (.partitionReady p) s (fun t =>
        t.e.serving p.val = true ∧ t.e.get (0x4400 + p.val) 2 = s.e.get (0x4400 + p.val) 3 ∧
        t.e.get (0x4400 + p.val) 3 = 0 ∧ t.e.get (0x4400 + p.val) 4 = 0 ∧
        cellGet (fun _ => false) t.nv.trial p.val = false)) ∧
    (bit s.e.dawn.partUp p.val = false → 6 ≤ s.e.get 0x2001 1 → s.e.mode = .running → s.e.starting p.val = 1 →
      Completes (.partitionFallback p) s (fun t => ∃ e : Engine, t.e = e.raise 0x0B 2 p.val ∧
        e.get (0x4400 + p.val) 1 = 1 - s.e.get (0x4400 + p.val) 1 ∧
        e.get (0x4400 + p.val) 6 = min 65535 (s.e.get (0x4400 + p.val) 6 + 1) ∧
        e.get (0x4400 + p.val) 3 = 0 ∧ e.get (0x4400 + p.val) 4 = 3))

/-- R27, R30, R375: an image that verifies is stored in the inactive slot and becomes staged; one that does not is stored, leaves
nothing staged and is answered 0800 0020h; a switch is requested or cancelled where an image is staged.
Log entry 67: the model's reading. -/
def Says.PartitionImages : Prop :=
  ∀ (s : State) (p : Fin 4) (img : List Byte), s.serves 3 → img.length ≤ 4194304 → s.e.get (0x4400 + p.val) 4 ≤ 1 → s.e.stage < 5 →
    (s.e.verifies p.val img = true →
      Completes (.partitionImageWrite p img) s (fun t =>
        t.nv = { s.nv with images := t.nv.images } ∧
        cellGet (fun _ => []) t.nv.images (2 * p.val + (1 - s.e.get (0x4400 + p.val) 1)) = img ∧
        (∀ k, k ≠ 2 * p.val + (1 - s.e.get (0x4400 + p.val) 1) →
          cellGet (fun _ => []) t.nv.images k = cellGet (fun _ => []) s.nv.images k) ∧
        t.e.get (0x4400 + p.val) 3 = imageVersion img ∧ t.e.get (0x4400 + p.val) 4 = 1 ∧ t.e.sdo = 0)) ∧
    (s.e.verifies p.val img = false →
      Completes (.partitionImageWrite p img) s (fun t =>
        t.e.get (0x4400 + p.val) 3 = 0 ∧ t.e.get (0x4400 + p.val) 4 = 0 ∧ t.e.get (0x4400 + p.val) 5 = 0 ∧
        t.e.sdo = 0x08000020)) ∧
    (s.e.get (0x4400 + p.val) 3 ≠ 0 → Serves (.switchRequest p 1) s [(ekey (0x4400 + p.val) 5, 1)]) ∧
    (s.e.get (0x4400 + p.val) 3 = 0 → Refuses (.switchRequest p 1) s 0x08000022) ∧
    Serves (.switchRequest p 0) s [(ekey (0x4400 + p.val) 5, 0)]

/-- The partitions and their images. -/
def Obligations.FirmwarePartitions : Prop := Says.PartitionLife ∧ Says.PartitionImages

/-- R51, R52, R45: command 1 is refused outside Idle and on inconsistent job parameters, and else takes the job to Boundary with
the store being cleared; 2 sets hold cause 0; 3 clears causes 0 and 1, and is refused where neither is set; 4 makes the panel
the last; the job length is taken in every state. Log entries 36, 37: the model's readings. -/
def Says.JobCommands : Prop :=
  ∀ s : State, s.serves 0 →
    (s.e.jobState ≠ 0 → Refuses .jobStart s 0x08000022) ∧
    (s.e.jobState = 0 → s.e.startRefused = true → Refuses .jobStart s 0x06090030) ∧
    (s.e.jobState = 0 → s.e.startRefused = false → Completes .jobStart s (fun t =>
      t.e.jobState = 1 ∧ t.e.get 0x2200 3 = 0 ∧ t.e.get 0x2430 9 = 1 ∧ t.e.get 0x2430 8 = 0 ∧ t.e.get 0x2200 0x0A = 0 ∧
      t.e.get 0x2200 0x0B = 0 ∧ t.e.get 0x3000 2 = 6 ∧ t.e.get 0x3010 2 = 6 ∧ t.e.pan.due = true ∧ t.e.sdo = 0 ∧
      t.nv = s.nv ∧ t.e.mem = s.e.mem ∧ t.e.host = s.e.host)) ∧
    (s.e.jobState = 0 → Refuses .jobPause s 0x08000022) ∧
    (s.e.jobState = 2 → Serves .jobPause s [(ekey 0x2200 3, setBit (s.e.get 0x2200 3) 0 true)]) ∧
    (s.e.jobState = 1 → Completes .jobPause s (fun t => t.e.jobState = 3 ∧ t.e.hold 0 = true ∧ t.e.sdo = 0)) ∧
    (s.e.hold 0 = false → s.e.hold 1 = false → Refuses .jobResume s 0x08000022) ∧
    (s.e.jobState = 2 → s.e.hold 0 = true → s.e.hold 1 = false →
      Serves .jobResume s [(ekey 0x2200 3, setBit (setBit (s.e.get 0x2200 3) 0 false) 1 false)]) ∧
    (s.e.jobState = 2 → s.e.hold 1 = true → s.e.stopDemand = true → Refuses .jobResume s 0x08000022) ∧
    (s.e.jobState = 0 → Refuses .jobEndAfterPanel s 0x08000022) ∧
    (s.e.jobState ≠ 0 → Becomes .jobEndAfterPanel s { s.e with pan.endAfter := true, sdo := 0, sdoData := [] }) ∧
    (∀ v : BitVec 32, Serves (.jobLengthWrite v) s [(ekey 0x2200 9, v.toNat)])

/-- R51, R33: command 5 during a launched transit blanks the heads and lets the transit complete; outside one the job goes to
Idle. -/
def Says.JobAbortBlanks : Prop :=
  ∀ s : State, s.serves 0 →
    (s.e.jobState = 0 → Becomes .jobAbort s { s.e with sdo := 0, sdoData := [] }) ∧
    (∀ f, s.e.jobState ≠ 0 → s.e.pan.flight = some f → f.aborted = false →
      Becomes .jobAbort s { s.e with pan.flight := some { f with aborted := true }, flt.reactions := s.e.flt.reactions + 1,
                                     sdo := 0, sdoData := [] } ∧
      Engine.blankDemand { s.e with pan.flight := some { f with aborted := true } } = true) ∧
    (s.e.jobState ≠ 0 → s.e.pan.flight = none → Completes .jobAbort s (fun t => t.e.pan.flight = none ∧ t.e.sdo = 0 ∧
      t.e.sup.encodeQ = [] ∧ t.e.pan.endAfter = false ∧ t.nv = s.nv))

/-- The commands of the job. -/
def Obligations.JobStateCommands : Prop := Says.JobCommands ∧ Says.JobAbortBlanks

/-- R47: an arm whose values are inconsistent is refused and applies nothing; in a job it arms the staged writes for the next
boundary; in Idle they are applied at once and none stays held. Log entry 16: the model's reading. -/
def Obligations.StagedWritesArm : Prop :=
  ∀ s : State, s.serves 0 →
    (s.e.armRefused = true → Refuses .applyStaged s 0x06090030) ∧
    (s.e.armRefused = false → s.e.jobState ≠ 0 → Serves .applyStaged s [(ekey 0x2201 6, 1)]) ∧
    (s.e.armRefused = false → s.e.jobState = 0 → Completes .applyStaged s (fun t =>
      t.e.d.staged = [] ∧ t.e.d.stagedDom = [] ∧ t.e.get 0x2201 6 = 0 ∧ t.e.sdo = 0 ∧ t.nv = s.nv))

/-- R32, R34, R36: a launch check with nothing to launch does nothing; one that passes launches the transit, or the return sweep;
one that fails its restriction of stage 3 cuts the panel. At the axis-1 gate an axis at rest lets the transit print; else its
lines print BLANK and the fault 03h:04h is raised. -/
def Obligations.LaunchAndGate : Prop :=
  ∀ s : State, s.e.live = true →
    (s.e.jobState ≠ 2 → Becomes .launchCheck s s.e) ∧
    (s.e.jobState = 2 → s.e.pan.flight = none → s.e.pan.launched < s.e.get 0x2202 5 → s.e.pan.returning = false →
      s.e.atRest 0 = true → s.e.feedOk = true → s.e.stopDemand = false → s.e.stage < 3 → s.e.pllsLocked = true →
      s.e.gateFails = [] →
      Completes .launchCheck s (fun t => ∃ f, t.e.pan.flight = some f ∧ f.t = s.e.pan.nextT ∧ f.ret = false ∧ f.line = 0 ∧
        f.gatePassed = false ∧ t.nv = s.nv)) ∧
    (s.e.jobState = 2 → s.e.pan.flight = none → s.e.pan.returning = true →
      s.e.atRest 0 = true → s.e.feedOk = true → s.e.stopDemand = false → s.e.stage < 3 → s.e.pllsLocked = true →
      s.e.gateFails = [] →
      Completes .launchCheck s (fun t =>
        t.e.pan.flight = some { t := s.e.pan.nextT, ret := true, reverse := true } ∧ t.e.pan.returning = false ∧
        (t.e.enc 0).active = true ∧ (t.e.enc 0).reverse = true ∧ t.e.d = s.e.d)) ∧
    (s.e.jobState = 2 → s.e.pan.flight = none → s.e.pan.launched < s.e.get 0x2202 5 →
      s.e.atRest 0 = true → s.e.feedOk = true → 3 ≤ s.e.stage →
      Completes .launchCheck s (fun t => t.e.pan.flight = none ∧ t.e.pan.cut = true ∧ t.e.pan.due = true)) ∧
    (∀ f, s.e.pan.flight = some f → f.ret = false → f.gatePassed = false → s.e.atRest 1 = true →
      Becomes .axis1Gate s { s.e with pan.flight := some { f with gatePassed := true, gated := false } }) ∧
    (∀ f, s.e.pan.flight = some f → f.ret = false → f.gatePassed = false → s.e.atRest 1 = false →
      Raises .axis1Gate s (fun e => e = { s.e with pan.flight := some { f with gatePassed := true, gated := true } }) 3 4
        (2 ^ 37 + s.e.get 0x3010 6 % 2 ^ 32))

/-- R33, R129: the end of a return sweep and of a printing transit that is not the panel's last: the next transit follows, and
2200h:0Ah and the flight say so. -/
def Says.TransitEnds : Prop :=
  ∀ s : State, s.e.live = true →
    (s.e.pan.flight = none → Becomes .transitEnd s s.e) ∧
    (∀ f, s.e.pan.flight = some f → f.ret = true → f.aborted = false → f.stopped = false →
      Completes .transitEnd s (fun t => t.e.pan.flight = none ∧ t.e.flt.blankTransit = false ∧ t.e.mot.tail = true ∧
        (t.e.enc 0).active = false ∧ t.e.pan.nextT = s.e.pan.nextT)) ∧
    (∀ f, s.e.pan.flight = some f → f.ret = false → f.aborted = false → f.stopped = false → s.e.linesC ≤ f.line →
      s.e.pan.launched < s.e.get 0x2202 5 →
      Completes .transitEnd s (fun t => t.e.pan.flight = none ∧ t.e.pan.nextT = f.t + 1 ∧
        t.e.get 0x2200 0x0A = (f.t + 1) % 2 ^ 32 ∧ t.e.pan.lastEnd.isSome = true ∧ t.nv = s.nv))

/-- R41, R46: a boundary that is due takes what was armed; with no hold cause the forecast commits a panel at the step and length
it chooses; while the job is held for STARVED a forecast that commits nothing only publishes itself.
Log entries 33, 35: the model's readings. -/
def Says.BoundaryAndForecast : Prop :=
  ∀ s : State, s.e.live = true →
    (s.e.jobState ≠ 1 → s.e.jobState ≠ 3 → Completes .panelBoundary s (fun t => t.e = s.e)) ∧
    (∀ (e : Engine) st n, s.e.jobState = 1 → s.e.pan.due = false → s.e.pan.holder = none → s.e.jobOver = false →
      e = (s.e.returnHeads.peerRules (s.e.pan.panels == 0)).evalHolds → e.jobState = 1 → e.flag 0x2430 9 = false →
      e.forecastInputs.choose = some (st, n) →
      Completes .panelBoundary s (fun t =>
        t.e.jobState = 2 ∧ t.e.get 0x2202 2 = st ∧ t.e.get 0x2202 3 = stepHz st ∧ t.e.get 0x2202 5 = n ∧
        t.e.get 0x2202 6 = 0 ∧ t.e.pan.panels = e.pan.panels + 1 ∧ t.e.pan.launched = 0)) ∧
    (∀ (e : Engine), s.e.jobState = 1 → s.e.pan.due = false → s.e.pan.holder = none → s.e.jobOver = false →
      e = (s.e.returnHeads.peerRules (s.e.pan.panels == 0)).evalHolds → e.jobState = 1 → e.flag 0x2430 9 = false →
      e.forecastInputs.choose = none →
      Completes .panelBoundary s (fun t => t.e.jobState = 3 ∧ t.e.hold 3 = true ∧ t.e.get 0x2203 5 = 3)) ∧
    (s.e.jobState ≠ 3 → Becomes .forecastRetry s s.e) ∧
    (s.e.jobState = 3 → s.e.hold 3 = true → s.e.flag 0x2430 9 = false → s.e.forecastInputs.choose = none →
      Completes .forecastRetry s (fun t => t.e.get 0x2203 5 = 3 ∧ t.e.jobState = 3 ∧
        (∀ k, k ∉ [0x220301, 0x220302, 0x220303, 0x220304, 0x220305] → t.e.ent k = s.e.ent k) ∧
        t = { s with e := { s.e with d.dict := t.e.d.dict } }))

/-- The end of a transit, the panel boundary and the forecast. -/
def Obligations.TransitEndsAndBoundaries : Prop := Says.TransitEnds ∧ Says.BoundaryAndForecast

/-! Stream contexts, decode engines, the proof encoder -/

/-- R71, R74: open needs a Closed context with consistent settings and begins it empty; close is accepted in Ended and Fault and
in Open with an empty ring; abort in every state but Closed; retry takes a context from Fault to Open.
Log entries 22, 39: the model's readings. -/
def Obligations.ContextCommands : Prop :=
  ∀ (s : State) (c : Fin 256), s.serves 0 →
    (s.e.ctxState c.val ≠ 0 → Refuses (.contextOpen c) s 0x08000022) ∧
    (s.e.ctxState c.val = 0 → s.e.openRefused c.val = true → Refuses (.contextOpen c) s 0x06090030) ∧
    (s.e.ctxState c.val = 0 → s.e.openRefused c.val = false → Completes (.contextOpen c) s (fun t =>
      t.e.ctxState c.val = 1 ∧ t.e.ctx c.val = {} ∧
      (∀ sub, 0x0C ≤ sub → sub ≤ 0x11 → t.e.get (0x2300 + c.val) sub = 0) ∧
      (∀ k, k ≠ 0x240007 → k / 256 ≠ 0x2300 + c.val → t.e.ent k = s.e.ent k) ∧
      (∀ j, j ≠ c.val → t.e.ctx j = s.e.ctx j) ∧
      t = { s with e := { s.e with d.dict := t.e.d.dict, sup.ctxs := t.e.sup.ctxs, sdo := 0, sdoData := [] } })) ∧
    (s.e.ctxState c.val = 0 → Refuses (.contextClose c) s 0x08000022) ∧
    (s.e.ctxState c.val = 1 → (s.e.ctx c.val).wpos ≠ (s.e.ctx c.val).rpos → Refuses (.contextClose c) s 0x08000022) ∧
    (s.e.ctxState c.val = 2 ∨ s.e.ctxState c.val = 3 ∨ (s.e.ctxState c.val = 1 ∧ (s.e.ctx c.val).wpos = (s.e.ctx c.val).rpos) →
      Completes (.contextClose c) s (fun t =>
        t.e.ctxState c.val = 0 ∧ t.e.ctx c.val = {} ∧ t.e.sdo = 0 ∧ t.nv = s.nv ∧ t.pending = s.pending)) ∧
    (s.e.ctxState c.val = 0 → Refuses (.contextAbort c) s 0x08000022) ∧
    (s.e.ctxState c.val ≠ 0 → Completes (.contextAbort c) s (fun t =>
      t.e.ctxState c.val = 0 ∧ t.e.ctx c.val = {} ∧ t.e.sdo = 0 ∧ t.nv = s.nv ∧ t.pending = s.pending)) ∧
    (s.e.ctxState c.val ≠ 3 → Refuses (.contextRetry c) s 0x08000022) ∧
    (s.e.ctxState c.val = 3 → (s.e.ctx c.val).lastPassed = false → Completes (.contextRetry c) s (fun t =>
      t.e.ctxState c.val = 1 ∧ (∀ k, k ≠ 0x240007 → k ≠ ekey (0x2300 + c.val) 2 → t.e.ent k = s.e.ent k) ∧
      t = { s with e := { s.e with d.dict := t.e.d.dict, sdo := 0, sdoData := [] } }))

/-- R73, R89, R91, R112: the lowest free decode engine takes the oldest block of the next eligible context; nothing is taken while
supply does not run. A block that decodes and whose CRC agrees commits its bytes and frees its ring space; one whose CRC does not
agree changes no byte that was committed. A stalled engine resumes and its cycles are counted. -/
def Obligations.DecodeBlocks : Prop :=
  ∀ s : State, s.e.live = true →
    (s.e.supplyRuns = false → Becomes .decodeBlockTake s s.e) ∧
    (∀ (j c : Nat), s.e.supplyRuns = true → firstIdx (fun j => (s.e.decEng j).isNone) (List.range 16) = some j →
      firstIdx s.e.eligible ((List.range 256).map (fun k => (s.e.sup.served + 1 + k) % 256)) = some c →
      Completes .decodeBlockTake s (fun t => ∃ d, t.e.decEng j = some d ∧ d.ctx = c ∧ d.block = (s.e.ctx c).blocks.headD {} ∧
        t.e.sup.served = c ∧ (∀ i, i ≠ j → t.e.decEng i = s.e.decEng i) ∧
        t = { s with e := { s.e with sup := t.e.sup } })) ∧
    (∀ (j : Fin 16) p, s.e.decEng j.val = none → Becomes (.decodeBlockComplete j p) s s.e) ∧
    (∀ (j : Fin 16) (d : DecEng) (x : Ctx) (h : BlockHeader) (hist : List Byte) (produced : Nat),
      s.e.decEng j.val = some d → d.stalled = none → x = s.e.ctx d.ctx →
      h = parseHeader (s.e.ringBytes d.ctx d.block.off 16) →
      (∀ i, i < d.block.len → s.e.lineOk (s.e.ringAddr d.ctx (d.block.off + i) / 64) = true) →
      decodeBlock (s.e.get (0x2300 + d.ctx) 9) h (s.e.ringBytes d.ctx (d.block.off + 16) h.coded) x.hist x.produced =
        .ok hist produced →
      crc32c ((hist.take h.raw).reverse) = h.crc → h.flags = 0 → x.skipPad = 0 →
      Completes (.decodeBlockComplete j false) s (fun t =>
        t.e.decEng j.val = none ∧
        t.e.ctx d.ctx = { x with rpos := d.block.off + d.block.len, blocks := x.blocks.tail, hist := hist.take 16384,
                                 produced := produced, checked := x.checked ++ (hist.take h.raw).reverse } ∧
        (∀ k, k ≠ ekey (0x2300 + d.ctx) 0x0C → t.e.ent k = s.e.ent k) ∧ t.e.mem = s.e.mem)) ∧
    (∀ (j : Fin 16) (d : DecEng) (x : Ctx) (h : BlockHeader) (hist : List Byte) (produced : Nat),
      s.e.decEng j.val = some d → d.stalled = none → x = s.e.ctx d.ctx →
      h = parseHeader (s.e.ringBytes d.ctx d.block.off 16) →
      (∀ i, i < d.block.len → s.e.lineOk (s.e.ringAddr d.ctx (d.block.off + i) / 64) = true) →
      decodeBlock (s.e.get (0x2300 + d.ctx) 9) h (s.e.ringBytes d.ctx (d.block.off + 16) h.coded) x.hist x.produced =
        .ok hist produced →
      crc32c ((hist.take h.raw).reverse) ≠ h.crc →
      Becomes (.decodeBlockComplete j false) s
        (Engine.ctxFault ((s.e.setDecEng j.val none).bump 0x2472 5 1) d.ctx 1 0 d.block.off)) ∧
    (∀ (j : Fin 16) d t0, s.e.decEng j.val = some d → d.stalled = some t0 →
      s.e.buffered j.val + s.e.rawLenAt d.ctx d.block.off ≤ 98304 →
      Completes (.decodeResume j) s (fun t => t.e.decEng j.val = some { d with stalled := none } ∧
        t.e.get 0x2472 6 = satAdd (entBits 0x2472 6) (s.e.get 0x2472 6) (32 * (s.e.now - t0)) ∧
        (∀ k, k ≠ 0x247206 → t.e.ent k = s.e.ent k) ∧ (∀ i, i ≠ j.val → t.e.decEng i = s.e.decEng i)))

/-- R104, R106, R107, R109: arming is refused while a proof is armed, running or held and where its ring or bands do not fit, and
else sets state 1; the end commands latch for the block in progress and do nothing without one; cancel returns to state 0; the
read offset moves between itself and the write offset and lets a held encoder resume; a block that does not end its unit leaves
the encoder running where its ring has room. Log entry 23: the model's reading. -/
def Obligations.ProofEncoder : Prop :=
  ∀ s : State, s.serves 0 →
    (1 ≤ s.e.get 0x2471 2 → s.e.get 0x2471 2 ≤ 3 → Refuses .proofArm s 0x08000022) ∧
    ((s.e.get 0x2471 2 = 0 ∨ 3 < s.e.get 0x2471 2) → s.e.proofRefused = true → Refuses .proofArm s 0x06090030) ∧
    ((s.e.get 0x2471 2 = 0 ∨ 3 < s.e.get 0x2471 2) → s.e.proofRefused = false → Completes .proofArm s (fun t =>
      t.e.get 0x2471 2 = 1 ∧ t.e.get 0x2471 6 = s.e.get 0x2471 6 % s.e.get 0x2471 5 ∧
      t.e.get 0x2471 7 = s.e.get 0x2471 7 % s.e.get 0x2471 5 ∧ t.e.sup.proof = {} ∧ t.e.sdo = 0 ∧
      (∀ k, k ∉ [0x247102, 0x247106, 0x247107] → t.e.ent k = s.e.ent k))) ∧
    (s.e.get 0x2471 2 = 2 → s.e.sup.proof.units ≠ [] → s.e.sup.proof.ended = none →
      Becomes .proofEndBlock s { s.e with sup.proof.ended := some false, sdo := 0, sdoData := [] } ∧
      Becomes .proofEndBlockFlush s { s.e with sup.proof.ended := some true, sdo := 0, sdoData := [] }) ∧
    (s.e.get 0x2471 2 = 0 →
      Becomes .proofEndBlock s { s.e with sdo := 0, sdoData := [] } ∧
      Becomes .proofEndBlockFlush s { s.e with sdo := 0, sdoData := [] }) ∧
    Completes .proofCancel s (fun t => t.e.get 0x2471 2 = 0 ∧ t.e.sup.proof = {} ∧ (∀ k, k ≠ 0x247102 → t.e.ent k = s.e.ent k) ∧
      t = { s with e := { s.e with d.dict := t.e.d.dict, sup.proof := {}, sdo := 0, sdoData := [] } }) ∧
    (∀ v : BitVec 32, s.e.get 0x2471 5 ≤ v.toNat → Refuses (.proofReadOffsetWrite v) s 0x06090030) ∧
    (∀ v : BitVec 32, v.toNat < s.e.get 0x2471 5 → s.e.get 0x2471 7 ≤ v.toNat → v.toNat ≤ s.e.get 0x2471 6 →
      s.e.get 0x2471 6 < s.e.get 0x2471 5 → s.e.get 0x2471 2 = 3 →
      Serves (.proofReadOffsetWrite v) s [(0x247107, v.toNat), (0x247102, 2)]) ∧
    (s.e.sup.proof.units = [] → Becomes .proofBlockWritten s s.e) ∧
    (∀ (u : ProofUnit) us bs blk, s.e.sup.proof.units = u :: us → s.e.get 0x2471 2 = 2 → bs = s.e.unitBytes u →
      s.e.sup.proof.ended = none → s.e.sup.proof.off + s.e.get 0x2471 8 < bs.length → 0 < s.e.get 0x2471 8 →
      blk = proofBlock u.stream 0 bs ((u.width + 3) / 4) s.e.sup.proof.off (s.e.sup.proof.off + s.e.get 0x2471 8)
        s.e.sup.proof.start → blk.length ≤ s.e.proofRoom → s.e.mem.bad = [] →
      Completes .proofBlockWritten s (fun t => t.e.get 0x2471 2 = 2 ∧
        t.e.sup.proof.off = s.e.sup.proof.off + s.e.get 0x2471 8 ∧
        t.e.get 0x2471 6 = (s.e.get 0x2471 6 + blk.length) % s.e.get 0x2471 5 ∧ t.e.mem.bad = []))

/-! Screening and the swath store -/

/-- R110, R115, R126: while supply does not run, or the ring row is not released, a row waits; a row of an 8-bit contone context
that neither ends its group nor its context is screened with the bank's tables: its levels join the open group, its bytes leave
the buffer, the row counters advance. Log entries 21, 39: the model's readings. -/
def Says.ScreenRows : Prop :=
  ∀ (s : State) (c : Fin 256) (i : Nat) (x : Ctx) (y : Nat), s.e.live = true → i = 0x2300 + c.val → x = s.e.ctx c.val →
    y = s.e.get i 7 + x.row →
    (∀ p, s.e.supplyRuns = false → Becomes (.screenRow c p) s s.e) ∧
    (∀ p, s.e.supplyRuns = true → s.e.ctxState c.val ≠ 0 → s.e.rowsWaiting c.val ≠ 0 → s.e.unreleased (y / 64) = true →
      Completes (.screenRow c p) s (fun t =>
        t.e.ctx c.val = { x with heldSince := x.heldSince.or (some s.e.now) } ∧ (∀ j, j ≠ c.val → t.e.ctx j = s.e.ctx j) ∧
        t = { s with e := { s.e with sup.ctxs := t.e.sup.ctxs } })) ∧
    (s.e.supplyRuns = true → s.e.ctxState c.val = 1 → s.e.rowsWaiting c.val ≠ 0 → s.e.unreleased (y / 64) = false →
      x.heldSince = none → x.merging = false → y % 4 ≠ 3 → s.e.get i 8 = 8 → s.e.isLevel c.val = false →
      s.e.sup.proof.units = [] → s.e.flag (0x2410 + s.e.get i 3) 2 = false → s.e.get i 3 < 8 →
      s.e.combinerUse + s.e.get i 6 ≤ 2 ^ 21 →
      Completes (.screenRow c false) s (fun t =>
        t.e.ctx c.val = { x with
          checked := x.checked.drop (s.e.get i 9), skipPad := s.e.get i 9 - x.checked.length, row := x.row + 1,
          group := x.group ++ [(y, (List.range (s.e.get i 6)).map (fun k =>
            (s.e.tablesAt (s.e.get i 3) y).level true
              (((List.range (s.e.get i 6)).map (fun m => ((x.checked.take (s.e.rowBytes c.val)).getD m 0).toNat)).getD k 0)
              (s.e.get i 5 + k) y))] } ∧
        t.e.get i 0x0D = (s.e.get i 0x0D + 1) % 2 ^ 32 ∧
        (∀ k, k ≠ ekey i 0x0D → k ≠ 0x240001 → t.e.ent k = s.e.ent k) ∧ t.e.mem = s.e.mem ∧
        (∀ j, j ≠ c.val → t.e.ctx j = s.e.ctx j)))

/-- R99, R102, R109, R128: with nothing to encode nothing happens; else the block at the front leaves the queue, and with verify
and check off its stored form and its tag are written and counted. -/
def Says.EncodePasses : Prop :=
  ∀ (s : State) (dd rd : Bool), s.e.live = true →
    (s.e.sup.encodeQ = [] → Becomes (.encodePass dd rd) s s.e) ∧
    (∀ b bx by_ lane rest rawBytes, s.e.sup.encodeQ = (b, bx, by_, lane) :: rest →
      cellGet (fun _ => false) s.e.sup.bad (s.e.pan.slot b bx by_) = false →
      s.e.dramRead (s.e.pan.slotAddr (s.e.pan.slot b bx by_)) 1024 = some rawBytes → s.e.get 0x2470 (lane + 1) = 0 →
      lane < 16 → s.e.mem.bad = [] →
      Completes (.encodePass dd rd) s (fun t => ∃ raw units bs, storeForm (rawLevels rawBytes) = (raw, units, bs) ∧
        t.e.sup.encodeQ = rest ∧
        t.e.mem = (s.e.storeBlock (s.e.pan.slot b bx by_) raw false false (s.e.pan.gen by_) units (crc16 rawBytes) bs).mem))

/-- Rows screened into blocks, and blocks encoded. -/
def Obligations.ScreeningAndEncoding : Prop := Says.ScreenRows ∧ Says.EncodePasses

/-- R116, R117, R120, R125: tables are checked in order and staged for the next boundary of a job; while a changeover is pending
they are refused. Clearing of the store ends with its regions zero and 2430h:09h FALSE. -/
def Says.ScreeningTables : Prop :=
  ∀ (s : State) (b : Fin 8), s.serves 0 →
    (∀ data : List Byte, 2048 < data.length → Refuses (.toneCurveWrite b data) s 0x06070010) ∧
    (∀ data : List Byte, data.length ≤ 2048 → s.e.flag (0x2410 + b.val) 2 = true → Refuses (.toneCurveWrite b data) s 0x08000022) ∧
    (∀ data : List Byte, data.length < 2048 → s.e.flag (0x2410 + b.val) 2 = false → Refuses (.toneCurveWrite b data) s 0x06090030) ∧
    (∀ data : List Byte, data.length = 2048 → s.e.flag (0x2410 + b.val) 2 = false → s.e.jobState ≠ 0 →
      (curveEntries data).all (fun v => decide (v ≤ 1023)) = true →
      Completes (.toneCurveWrite b data) s (fun t =>
        cellGet (fun _ => none) t.e.d.stagedDom (ekey (0x2410 + b.val) 1) = some data ∧
        (∀ k, k ≠ ekey (0x2410 + b.val) 1 → cellGet (fun _ => none) t.e.d.stagedDom k = cellGet (fun _ => none) s.e.d.stagedDom k) ∧
        t = { s with e := { s.e with d.stagedDom := t.e.d.stagedDom, sdo := 0, sdoData := [] } })) ∧
    (s.e.flag (0x2410 + b.val) 2 = true → Answers (.arrayLoad b) s 0x08000022 [(ekey (0x2420 + b.val) 4, 5)]) ∧
    (s.e.flag (0x2410 + b.val) 2 = false → s.e.dramRead (s.e.get (0x2420 + b.val) 1) 262144 = none →
      Answers (.arrayLoad b) s 0x08000020 [(ekey (0x2420 + b.val) 4, 4)]) ∧
    (∀ bs, s.e.flag (0x2410 + b.val) 2 = false → s.e.dramRead (s.e.get (0x2420 + b.val) 1) 262144 = some bs →
      crc32c bs ≠ s.e.get (0x2420 + b.val) 2 → Answers (.arrayLoad b) s 0x06090030 [(ekey (0x2420 + b.val) 4, 2)]) ∧
    (∀ bs, s.e.flag (0x2410 + b.val) 2 = false → s.e.dramRead (s.e.get (0x2420 + b.val) 1) 262144 = some bs →
      crc32c bs = s.e.get (0x2420 + b.val) 2 → (imageWords 65536 bs).all cellOk = true → s.e.jobState ≠ 0 →
      Completes (.arrayLoad b) s (fun t =>
        t.e.get (0x2420 + b.val) 4 = 1 ∧ t.e.sdo = 0 ∧ (t.e.bankScr b.val).cur = (s.e.bankScr b.val).cur ∧
        (t.e.bankScr b.val).stagedThr = some (asCells (fun _ => 0x3fffffff) (imageWords 65536 bs), s.e.get (0x2420 + b.val) 2))) ∧
    (s.e.flag 0x2430 9 = false → Becomes .storeClearComplete s s.e) ∧
    (s.e.flag 0x2430 9 = true → Completes .storeClearComplete s (fun t =>
      t.e.get 0x2430 9 = 0 ∧ (∀ r, r ∈ s.e.pan.regions → ∀ a, r.1 ≤ a → a < r.1 + r.2 → t.e.dramByte a = 0) ∧
      (∀ k, k ≠ 0x243009 → t.e.ent k = s.e.ent k) ∧ t = { s with e := { s.e with mem := t.e.mem, d.dict := t.e.d.dict } }))

/-! Masks, the Catalogue, Eclipse -/

/-- R136, R138: a mask load is refused while the mask is in use, and reports what fails; a mask that passes is loaded and its
highest cell published. -/
def Says.MaskLoads : Prop :=
  ∀ (s : State) (m : Fin 16), s.serves 0 →
    (s.e.maskInUse m.val = true → Answers (.maskLoad m) s 0x08000022 [(ekey (0x2510 + m.val) 4, 5)]) ∧
    (s.e.maskInUse m.val = false → s.e.dramRead (s.e.get (0x2510 + m.val) 1) 65536 = none →
      Answers (.maskLoad m) s 0x08000020 [(ekey (0x2510 + m.val) 4, 4)]) ∧
    (∀ bs, s.e.maskInUse m.val = false → s.e.dramRead (s.e.get (0x2510 + m.val) 1) 65536 = some bs →
      crc32c bs ≠ s.e.get (0x2510 + m.val) 2 → Answers (.maskLoad m) s 0x06090030 [(ekey (0x2510 + m.val) 4, 2)]) ∧
    (∀ bs, s.e.maskInUse m.val = false → s.e.dramRead (s.e.get (0x2510 + m.val) 1) 65536 = some bs →
      crc32c bs = s.e.get (0x2510 + m.val) 2 → (∀ b, b ∈ bs → b.toNat < 8) →
      Completes (.maskLoad m) s (fun t =>
        t.e.get (0x2510 + m.val) 4 = 1 ∧ t.e.get (0x2510 + m.val) 6 = crc32c bs ∧
        t.e.get (0x2510 + m.val) 5 = (bs.map (·.toNat)).foldl max 0 ∧ t.e.sdo = 0 ∧
        (∀ k, k < 65536 → t.e.maskCell m.val k = (bs.getD k 0).toNat) ∧
        (∀ n k, n ≠ m.val → k < 65536 → t.e.maskCell n k = s.e.maskCell n k)))

/-- Tone curves, threshold arrays and pass masks. -/
def Obligations.ScreeningData : Prop := Says.ScreeningTables ∧ Says.MaskLoads

/-- R142: the window stores a masked value in the staging entry and reads it, advancing its index where auto-increment is set; an
index or a value out of range is refused. Log entry 26: the model's reading. -/
def Says.CatalogueWindow : Prop :=
  ∀ (s : State) (v : BitVec 32) (i w : Nat), s.serves 0 → i = s.e.get 0x2600 1 →
    w = maskWrite (s.e.stagingEntry i) v.toNat (s.e.get 0x2600 5) 32 →
    (262143 < i → Refuses (.catalogueWindowWrite v) s 0x06090030 ∧ Refuses .catalogueStagingRead s 0x06090030) ∧
    (i ≤ 262143 → bits w 15 11 ≠ 0 → Refuses (.catalogueWindowWrite v) s 0x06090030) ∧
    (i ≤ 262143 → bits w 15 11 = 0 → cellGet (fun _ => false) s.e.img.poisonS i = false → s.e.flag 0x2600 4 = true →
      Completes (.catalogueWindowWrite v) s (fun t =>
        t.e.stagingEntry i = w ∧ (∀ j, j ≠ i → t.e.stagingEntry j = s.e.stagingEntry j) ∧
        t.e.img.working = s.e.img.working ∧ t.e.get 0x2600 1 = (i + 1) % 262144 ∧
        (∀ k, k ≠ 0x260001 → t.e.ent k = s.e.ent k) ∧ t.e.sdo = 0)) ∧
    (i ≤ 262143 → cellGet (fun _ => false) s.e.img.poisonS i = false → s.e.flag 0x2600 4 = false →
      Becomes .catalogueStagingRead s { s.e with sdo := 0, sdoData := toLe 4 (s.e.stagingEntry i) }) ∧
    (i ≤ 262143 → cellGet (fun _ => false) s.e.img.poisonS i = false → s.e.flag 0x2600 4 = true →
      Completes .catalogueStagingRead s (fun t =>
        t.e.sdoData = toLe 4 (s.e.stagingEntry i) ∧ t.e.get 0x2600 1 = (i + 1) % 262144 ∧
        (∀ k, k ≠ 0x260001 → t.e.ent k = s.e.ent k) ∧ t.e.img = s.e.img))

/-- R143: an image of heads beyond 127 is status 5; one that cannot be read is 4, one whose CRC differs is 2; a good one fills the
staging entries of its heads. A dump writes the working entries and their CRC. -/
def Says.CatalogueImages : Prop :=
  ∀ (s : State) (h0 n a : Nat), s.serves 0 → h0 = s.e.get 0x2601 3 → n = s.e.get 0x2601 4 → a = s.e.get 0x2601 1 →
    (128 < h0 + n → Answers .catalogueLoad s 0x06090030 [(0x260106, 5)] ∧ Answers .catalogueDump s 0x06090030 [(0x260106, 5)]) ∧
    (h0 + n ≤ 128 → s.e.dramRead a (n * 8192) = none → Answers .catalogueLoad s 0x08000020 [(0x260106, 4)]) ∧
    (∀ bs, h0 + n ≤ 128 → s.e.dramRead a (n * 8192) = some bs → crc32c bs ≠ s.e.get 0x2601 2 →
      Answers .catalogueLoad s 0x06090030 [(0x260106, 2)]) ∧
    (∀ bs, h0 + n ≤ 128 → s.e.dramRead a (n * 8192) = some bs → crc32c bs = s.e.get 0x2601 2 →
      (imageWords (n * 2048) bs).all (fun w => bits w 15 11 == 0) = true →
      Completes .catalogueLoad s (fun t =>
        t.e.get 0x2601 6 = 1 ∧ t.e.sdo = 0 ∧ t.e.img.working = s.e.img.working ∧
        (∀ i, i < n * 2048 → t.e.stagingEntry (h0 * 2048 + i) = (imageWords (n * 2048) bs).getD i 0) ∧
        (∀ j, j < h0 * 2048 ∨ (h0 + n) * 2048 ≤ j → t.e.stagingEntry j = s.e.stagingEntry j))) ∧
    (h0 + n ≤ 128 → ((List.range (n * 2048)).map (· + h0 * 2048)).any s.e.poisonedW = false →
      s.e.inDram a (n * 8192) = true → s.e.mem.bad = [] →
      Completes .catalogueDump s (fun t => ∃ bs,
        bs = ((List.range (n * 2048)).map (· + h0 * 2048)).flatMap (fun i => toLe 4 (s.e.work i)) ∧
        t.e.mem = (s.e.dramWrite a bs).mem ∧ t.e.get 0x2601 2 = crc32c bs ∧ t.e.get 0x2601 6 = 6 ∧ t.e.sdo = 0 ∧
        t.e.img = s.e.img))

/-- The Catalogue by its window and by images. -/
def Obligations.CatalogueAccess : Prop := Says.CatalogueWindow ∧ Says.CatalogueImages

/-- R148: command 1 is taken for a head In service and command 2 for a draining one, for the next launch check; a head in another
state refuses them. -/
def Obligations.EclipseCommands : Prop :=
  ∀ (s : State) (h : Fin 128), s.serves 0 →
    (s.e.svc h.val ≠ 0 → Refuses (.headEclipse h) s 0x08000022) ∧
    (s.e.svc h.val = 0 → s.e.passes ≠ 1 → Completes (.headEclipse h) s (fun t =>
      t.e.head h.val = { s.e.head h.val with drainReq := true } ∧ (∀ j, j ≠ h.val → t.e.head j = s.e.head j) ∧
      t = { s with e := { s.e with care.heads := t.e.care.heads, sdo := 0, sdoData := [] } })) ∧
    (s.e.svc h.val ≠ 1 → Refuses (.headCancelDrain h) s 0x08000022) ∧
    (s.e.svc h.val = 1 → Completes (.headCancelDrain h) s (fun t =>
      t.e.head h.val = { s.e.head h.val with drainCancel := true } ∧ (∀ j, j ≠ h.val → t.e.head j = s.e.head j) ∧
      t = { s with e := { s.e with care.heads := t.e.care.heads, sdo := 0, sdoData := [] } }))

/-! Fetch, compose, frames and firing -/

/-- R163, R99: an unwritten block whose tag is read again is requested once the tag names a stored form of its generation; the
payload of a requested block that passes its checks makes it accepted, and one that fails them refused; without a transit
neither happens. -/
def Says.FetchBlocks : Prop :=
  ∀ (s : State) (b : Fin 8) (bx by_ slot : Nat), s.e.live = true → slot = s.e.pan.slot b.val bx by_ →
    (s.e.pan.flight = none → Becomes (.fetchTagReread b bx by_) s s.e ∧ Becomes (.fetchBlockAccept b bx by_) s s.e) ∧
    (∀ w, s.e.pan.flight.isSome = true → cellFind slot s.e.path.fetch = some .unwritten → s.e.tagOf slot = some w →
      2 ≤ tagLen w → tagGen w = s.e.pan.gen by_ →
      Completes (.fetchTagReread b bx by_) s (fun t =>
        cellFind slot t.e.path.fetch = some .requested ∧
        (∀ k, k ≠ slot → cellFind k t.e.path.fetch = cellFind k s.e.path.fetch) ∧
        t = { s with e := { s.e with path.fetch := t.e.path.fetch } })) ∧
    (∀ bs l, s.e.pan.flight.isSome = true → cellFind slot s.e.path.fetch = some .requested →
      s.e.dramRead (s.e.pan.slotAddr slot) (8 * min 128 (tagLen ((s.e.tagOf slot).getD 0))) = some bs →
      acceptBlock ((s.e.tagOf slot).getD 0) bs = some l →
      Completes (.fetchBlockAccept b bx by_) s (fun t =>
        cellFind slot t.e.path.fetch = some (.accepted l) ∧
        (∀ k, k ≠ slot → cellFind k t.e.path.fetch = cellFind k s.e.path.fetch) ∧
        t = { s with e := { s.e with path.fetch := t.e.path.fetch } })) ∧
    (∀ bs, s.e.pan.flight.isSome = true → cellFind slot s.e.path.fetch = some .requested →
      s.e.dramRead (s.e.pan.slotAddr slot) (8 * min 128 (tagLen ((s.e.tagOf slot).getD 0))) = some bs →
      acceptBlock ((s.e.tagOf slot).getD 0) bs = none →
      Completes (.fetchBlockAccept b bx by_) s (fun t =>
        cellFind slot t.e.path.fetch = some .refused ∧
        t.e.get 0x2470 0x15 = satAdd (entBits 0x2470 0x15) (s.e.get 0x2470 0x15) 1 ∧
        (∀ k, k ≠ 0x247015 → t.e.ent k = s.e.ent k)))

/-- R162, R163: at the fetch deadline of a compose line the slice-lines that lack a block fail, with cause 3 before cause 4, and
at its compose deadline a line that is not written is written as failed with cause 4 and counted.
Log entry 46: the model's reading. -/
def Says.ComposeDeadlines : Prop :=
  ∀ s : State, s.e.live = true →
    (s.e.composing = none → Becomes .fetchDeadline s s.e) ∧
    (∀ f, s.e.composing = some f → s.e.path.cutFor = some f.composed → Becomes .fetchDeadline s s.e) ∧
    (∀ f, s.e.composing = some f → s.e.path.cutFor ≠ some f.composed → Completes .fetchDeadline s (fun t =>
      t.e.path.cutFor = some f.composed ∧
      (∀ h, h ∈ s.e.storeHeads → ∀ i, i < 32 →
        cellGet (fun _ => 0) t.e.path.fails (32 * h + i) =
          (if (List.range 64).any (fun k => s.e.elemLack f h (64 * i + k) f.composed == 3 ||
              s.e.elemLack f h (64 * i + k) f.composed == 13) then 3
           else if (List.range 64).any (fun k => s.e.elemLack f h (64 * i + k) f.composed == 4) then 4 else 0)) ∧
      (∀ k, k ≠ 0x270004 → k ≠ 0x270007 → k ≠ 0x411005 → k ≠ 0x411009 → t.e.ent k = s.e.ent k) ∧ t.e.pan = s.e.pan)) ∧
    (s.e.pan.flight = none → Becomes .composeDeadline s s.e) ∧
    (∀ f, s.e.pan.flight = some f → f.ret = false → f.composed < s.e.linesC → f.composed ≤ f.line → s.e.get 0x4281 1 = 2 →
      Completes .composeDeadline s (fun t =>
        t.e.path.started = none ∧ t.e.pan.flight = some { f with composed := f.composed + 1 } ∧
        t.e.get 0x2700 5 = satAdd (entBits 0x2700 5) (s.e.get 0x2700 5) 1 ∧ (∀ k, k ≠ 0x270005 → t.e.ent k = s.e.ent k) ∧
        (∀ h, h ∈ s.e.storeHeads → ∀ i, i < 32 → ∃ x,
          cellFind ((32 * h + i) * 64 + f.composed % 64) t.e.path.lines = some x ∧ x.line = f.composed ∧ x.cause4 = 2)))

/-- Blocks fetched for compose, and compose deadlines. -/
def Obligations.FetchAndCompose : Prop := Says.FetchBlocks ∧ Says.ComposeDeadlines

/-- R162, R167, R170: compose of a line begins once with the bands of its heads; a line that is complete holds the check word of
its codes in every slice-line, and cause 3 where main and twin differ. The memories are free of poison here.
Log entry 43: the model's reading. -/
def Obligations.ComposeLines : Prop :=
  ∀ s : State, s.e.live = true →
    (s.e.composing = none → Becomes .composeLineStart s s.e) ∧
    (∀ f, s.e.composing = some f → s.e.path.started.isSome = true → Becomes .composeLineStart s s.e) ∧
    (∀ f, s.e.composing = some f → s.e.path.started = none → s.e.path.cutFor = some f.composed →
      s.e.enabledLoops 0 128 = [] →
      Completes .composeLineStart s (fun t => t.e.path.started = some f.composed ∧ t.e.pan = s.e.pan ∧
        (∀ h, h ∈ s.e.storeHeads → t.e.get (0x2780 + h) 4 =
          (if (s.e.head h).tempValid then
            nextBand (fun k => s.e.get (0x2440 + h / 16) (k + 1)) (s.e.get (0x2440 + h / 16) 5) (s.e.get (0x2100 + h) 6)
              (s.e.get (0x2780 + h) 4) else 0)))) ∧
    (∀ twin poison, s.e.path.started = none → Becomes (.composeLineComplete twin poison) s s.e) ∧
    (∀ f twin poison, s.e.pan.flight = some f → s.e.path.started = some f.composed →
      s.e.img.poisonB = [] → s.e.img.poisonM = [] → s.e.img.poisonW = [] → s.e.img.poisonD = [] →
      (∀ k, (cellGet (fun _ => ({} : RowPlan)) s.e.img.plans k).poisoned = false) →
      Completes (.composeLineComplete twin poison) s (fun t =>
        t.e.path.started = none ∧ t.e.pan.flight = some { f with composed := f.composed + 1 } ∧
        t.e.get 0x2700 1 = (s.e.get 0x2700 1 + 128) % 2 ^ 64 ∧
        (∀ h, h ∈ s.e.storeHeads → ∀ i, i < 32 → ∃ x,
          cellFind ((32 * h + i) * 64 + f.composed % 64) t.e.path.lines = some x ∧ x.line = f.composed ∧
          x.check = checkWord x.codes ∧
          x.codes = (List.range 64).map (fun k =>
            s.e.codeOf f.t h (64 * i + k) ((s.e.geo f.t).column h (64 * i + k) f.composed)) ∧
          x.twin = twin.any (fun p => p.1.val == h && p.2.val == i) ∧ (x.twin = true → x.cause3 = true))))

/-- R171, R172, R173: the next frame of a serving head with nothing to blank is sent with its codes, and its echo is awaited; a
head that does not serve is sent BLANK; a frame beyond its deadline is cut and counted, and a serving head's line is blanked
with cause 4. Log entry 42: the model's reading. -/
def Says.FramesSent : Prop :=
  ∀ (s : State) (h : Fin 128) (f : Flight) (x : Head) (ls : List (Option SliceLine)), s.e.live = true →
    s.e.pan.flight = some f → x = s.e.head h.val → ls = (List.range 32).map (fun i => s.e.carried f.t h.val i x.frame) →
    f.ret = false → s.e.storeHeads.contains h.val = true →
    (s.e.linesC ≤ x.frame → Becomes (.frameSerialize h []) s s.e) ∧
    (x.frame < s.e.linesC → x.frame ≤ f.line → s.e.get 0x4282 1 = 2 → x.serving = true →
      (∀ y, some y ∈ ls → y.check = checkWord y.codes) →
      s.e.frameCause f h.val x.frame ls false = 0 →
      Completes (.frameSerialize h []) s (fun t =>
        t.e.out = .line h.val (lineFrame (s.e.flag (0x3100 + h.val) 0x0C && s.e.get (0x3100 + h.val) 0x0E != 1) false f.reverse
          ((x.portLine + x.frame) % 65536) ((List.range 32).map (fun i => (s.e.geo f.t).tt h.val i % 32))
          (ls.map (fun l => match l with
            | some y => if y.codes = [] then List.replicate 64 0 else y.codes
            | none => List.replicate 64 0))) :: s.e.out ∧
        (t.e.head h.val).frame = x.frame + 1 ∧ (t.e.head h.val).echoes.length = x.echoes.length + 1 ∧
        (∀ j, j ≠ h.val → t.e.head j = s.e.head j) ∧ t.e.d = s.e.d ∧ t.e.pan = s.e.pan)) ∧
    (x.frame < s.e.linesC → x.frame ≤ f.line → s.e.get 0x4282 1 = 2 → x.serving = false →
      (∀ y, some y ∈ ls → y.check = checkWord y.codes) →
      Completes (.frameSerialize h []) s (fun t => ∃ fr, t.e.out = .line h.val fr :: s.e.out ∧
        fr.getD 1 0 = (if (s.e.flag (0x3100 + h.val) 0x0C && s.e.get (0x3100 + h.val) 0x0E != 1) then 1 else 0) + 2 +
          (if f.reverse then 4 else 0) ∧
        (t.e.head h.val).frame = x.frame + 1 ∧ t.e.d = s.e.d ∧ t.e.pan = s.e.pan)) ∧
    (f.line < s.e.linesC → x.cut ≠ some f.line → x.frame ≤ f.line + 1 → x.serving = false →
      Completes (.serializeDeadline h) s (fun t =>
        t.e.head h.val = { x with cut := some f.line, frame := max x.frame (f.line + 1),
                                  echoes := x.echoes.filter (fun c => c.line != f.line) } ∧
        t.e.get 0x2700 6 = satAdd (entBits 0x2700 6) (s.e.get 0x2700 6) 1 ∧
        (∀ k, k ≠ 0x270006 → t.e.ent k = s.e.ent k) ∧ (∀ j, j ≠ h.val → t.e.head j = s.e.head j))) ∧
    (f.line < s.e.linesC → x.cut ≠ some f.line → x.frame ≤ f.line → x.serving = true → x.echoes = [] →
      s.e.blankDemand = false → f.gated = false → s.e.svc h.val < 3 →
      Completes (.serializeDeadline h) s (fun t => ∃ e : Engine,
        t.e = e.blankLine f.t h.val f.line 4 3 ∧ (e.head h.val).cut = some f.line ∧ (e.head h.val).frame = f.line + 1 ∧
        e.get 0x2700 6 = satAdd (entBits 0x2700 6) (s.e.get 0x2700 6) 1))

/-- R160, R177, R178: without a transit, or before the position reaches the next line, there is no tick; a tick raises the strobe
of every head whose frame is there and sound, and moves to the next line; the strobes of a bank fall at the end of its pulse; a
strobe that stays high is forced low, the head is Lost and 05h:0Ah is raised. Log entry 46: the model's reading. -/
def Says.FiringTicks : Prop :=
  ∀ s : State, s.e.live = true →
    (s.e.pan.flight = none → Becomes .meridianTick s s.e) ∧
    (∀ f, s.e.pan.flight = some f → s.e.tickReady f = false → Becomes .meridianTick s s.e) ∧
    (∀ f, s.e.pan.flight = some f → s.e.tickReady f = true → 0 < f.line →
      (∀ h, h ∈ s.e.storeHeads → f.line < (s.e.head h).frame ∧ s.e.withheld f h f.line = none) →
      Completes .meridianTick s (fun t =>
        t.e.pan.flight = some { f with line := f.line + 1 } ∧
        (∀ h, h ∈ s.e.storeHeads → (t.e.head h).strobeHigh = true) ∧
        (∀ h, h ∉ s.e.storeHeads → t.e.head h = s.e.head h) ∧
        (∀ k, k ≠ 0x27000C → k ≠ 0x411007 → k ≠ 0x41100B → t.e.ent k = s.e.ent k))) ∧
    (∀ b : Fin 8, Completes (.firePulseEnd b) s (fun t =>
      (∀ h, h / 16 = b.val → t.e.head h = { s.e.head h with strobeHigh := false }) ∧
      (∀ h, h / 16 ≠ b.val → t.e.head h = s.e.head h) ∧
      t = { s with e := { s.e with care.heads := t.e.care.heads, out := t.e.out } })) ∧
    (∀ h : Fin 128, (s.e.head h.val).strobeHigh = false → Becomes (.strobeWatchdogTrip h) s s.e) ∧
    (∀ h : Fin 128, (s.e.head h.val).strobeHigh = true → s.e.svc h.val = 0 → s.e.pan.flight = none →
      Raises (.strobeWatchdogTrip h) s (fun e => (e.head h.val).strobeHigh = false ∧ (e.head h.val).wdHold = true ∧
        e.svc h.val = 3 ∧ e.get 0x2700 9 = satAdd (entBits 0x2700 9) (s.e.get 0x2700 9) 1) 5 0x0A
        (h.val * 2 ^ 33 + (s.e.head h.val).portLine % 65536))

/-- Frames sent, strobes and ticks. -/
def Obligations.FramesAndFiring : Prop := Says.FramesSent ∧ Says.FiringTicks

/-! The head link and heads in service -/

/-- R193, R194: a STATUS frame that fails its check is only counted; a good one leaves its flags and a valid temperature; a line
whose echo has not come by its deadline is an echo failure. -/
def Obligations.StatusAndEcho : Prop :=
  ∀ (s : State) (h : Fin 128), s.e.live = true →
    (∀ fr : List Byte, fr.length ≠ 12 →
      Writes (.statusReceived h fr) s s.e [(ekey (0x2100 + h.val) 4, satAdd (entBits (0x2100 + h.val) 4) (s.e.get (0x2100 + h.val) 4) 1)]) ∧
    (∀ (fr : List Byte) (fl temp : Nat), fr.length = 12 → le (fr.take 1) = 0x81 → le (fr.drop 10) = crc16 (fr.take 10) →
      fl = le ((fr.drop 1).take 1) → temp = le ((fr.drop 8).take 2) % 1024 → bit fl 3 = true → bit fl 4 = true →
      temp < s.e.get (0x2180 + h.val / 16) 2 → s.e.care.fires = [] →
      Completes (.statusReceived h fr) s (fun t => ∃ e : Engine, t.e = e.reEval.idleWarm h.val ∧
        e.get (0x2100 + h.val) 5 = fl ∧ e.get (0x2100 + h.val) 6 = temp ∧ (e.head h.val).tempValid = true ∧
        (e.head h.val).tempAt = s.e.now ∧ (e.head h.val).stale = false ∧
        (s.e.get (0x2180 + h.val / 16) 1 ≤ temp → (e.head h.val).soft = true) ∧
        (∀ k, k ≠ ekey (0x2100 + h.val) 5 → k ≠ ekey (0x2100 + h.val) 6 → e.ent k = s.e.ent k))) ∧
    ((s.e.head h.val).echoes.find? (fun c => c.fired) = none → Becomes (.echoDeadline h) s s.e) ∧
    (∀ c, (s.e.head h.val).echoes.find? (fun c => c.fired) = some c →
      Completes (.echoDeadline h) s (fun t => ∃ e : Engine, t.e = e.echoFailed h.val c ∧
        e.get 0x4110 4 = satAdd (entBits 0x4110 4) (s.e.get 0x4110 4) 1 ∧ c ∉ (e.head h.val).echoes ∧
        (∀ k, k ≠ 0x411004 → e.ent k = s.e.ent k)))

/-- R184, R185, R209: a receiver that comes up is a detection: counted, state up, and a head that was not In service goes to
Quarantined; one that realigns after PLL-B resumes; one that goes down takes a head In service to Lost with 06h:05h. -/
def Obligations.Receivers : Prop :=
  ∀ (s : State) (h : Fin 128) (i : Nat), s.e.live = true → i = 0x2100 + h.val → s.e.idle = 0 →
    (s.e.get i 1 = 2 → Becomes (.retReceiverUp h) s s.e) ∧
    (s.e.get i 1 = 0 → (s.e.head h.val).suspended = 0 → (s.e.svc h.val = 0 ∨ s.e.svc h.val = 1) →
      Completes (.retReceiverUp h) s (fun t => ∃ e : Engine, t.e = e.reEval.idleWarm h.val ∧ e.get i 1 = 2 ∧
        e.get i 2 = satAdd (entBits i 2) (s.e.get i 2) 1 ∧ e.check h.val 4 = true ∧ e.svc h.val = s.e.svc h.val)) ∧
    (s.e.get i 1 = 0 → (s.e.head h.val).suspended = 0 → 2 ≤ s.e.svc h.val →
      Completes (.retReceiverUp h) s (fun t => ∃ e : Engine, t.e = e.reEval.idleWarm h.val ∧ e.get i 1 = 2 ∧ e.svc h.val = 5)) ∧
    (s.e.get i 1 = 0 → (s.e.head h.val).suspended = 3 →
      Completes (.retReceiverUp h) s (fun t => ∃ e : Engine, t.e = e.reEval ∧ e.get i 1 = 2 ∧
        e.head h.val = { s.e.head h.val with suspended := 0 })) ∧
    (∀ n, s.e.get i 1 ≠ 2 → Writes (.retReceiverDown h n) s s.e [(ekey i 3, satAdd (entBits i 3) (s.e.get i 3) n)]) ∧
    (∀ n, s.e.get i 1 = 2 → s.e.svc h.val = 0 →
      Completes (.retReceiverDown h n) s (fun t => ∃ e : Engine, t.e = (e.raise 6 5 (detailH h.val 0 (e.lastLine h.val))).reEval ∧
        e.get i 1 = 0 ∧ e.svc h.val = 3 ∧ e.get i 3 = satAdd (entBits i 3) (s.e.get i 3) n)) ∧
    (∀ n, s.e.get i 1 = 2 → s.e.svc h.val = 2 →
      Completes (.retReceiverDown h n) s (fun t => ∃ e : Engine, t.e = e.reEval ∧ e.get i 1 = 0 ∧ e.svc h.val = 2)) ∧
    ((s.e.head h.val).suspended ≠ 3 → Becomes (.retRealignTimeout h) s s.e) ∧
    ((s.e.head h.val).suspended = 3 → s.e.get i 1 = 0 → s.e.svc h.val = 2 →
      Completes (.retRealignTimeout h) s (fun t => ∃ e : Engine, t.e = e.reEval ∧ e.get i 1 = 0 ∧
        (e.head h.val).suspended = 0))

/-- R195, R197, R198: the first command of a head's queue that may go is sent with a new TAG; a RESP that does not match the
outstanding command is discarded; a RESP to a host command leaves its result; a command without a RESP is sent again with the
same TAG until the retries are used up, and is then given up with 06h:01h. -/
def Says.HeadCommandLink : Prop :=
  ∀ (s : State) (h : Fin 128) (x : Head), s.e.live = true → x = s.e.head h.val →
    (∀ c, x.waiting = none → x.queue.find? s.e.mayIssue = some c → s.e.get 0x4282 1 = 2 →
      Completes (.headCommandIssue h) s (fun t =>
        t.e.head h.val = { x with waiting := some (c, 0, s.e.now), tag := (x.tag + 1) % 256, queue := x.queue.erase c } ∧
        t.e.out = .command h.val (commandFrame ((x.tag + 1) % 256) c) :: s.e.out ∧
        (∀ j, j ≠ h.val → t.e.head j = s.e.head j) ∧
        t = { s with e := { s.e with care.heads := t.e.care.heads, out := t.e.out } })) ∧
    (x.waiting.isSome = true → Becomes (.headCommandIssue h) s s.e) ∧
    (∀ fr, x.waiting = none → Becomes (.respReceived h fr) s s.e) ∧
    (∀ fr : List Byte, le ((fr.drop 1).take 1) ≠ x.tag → Becomes (.respReceived h fr) s s.e) ∧
    (∀ (fr : List Byte) c n t0 r, x.waiting = some (c, n, t0) → fr.length = 6 + le ((fr.drop 3).take 1) → le (fr.take 1) = 0x82 →
      le (fr.drop (4 + le ((fr.drop 3).take 1))) = crc16 (fr.take (4 + le ((fr.drop 3).take 1))) →
      le ((fr.drop 1).take 1) = x.tag → c.host = true → c.ty = 0x13 → r = le ((fr.drop 2).take 1) → r ≤ 5 →
      Completes (.respReceived h fr) s (fun t =>
        t.e.head h.val = { x with waiting := none } ∧ t.e.get 0x2704 6 = r + 1 ∧ t.e.sdo = 0 ∧
        (∀ k, k ≠ 0x270406 → t.e.ent k = s.e.ent k) ∧ (∀ j, j ≠ h.val → t.e.head j = s.e.head j))) ∧
    (∀ c n t0, x.waiting = some (c, n, t0) → n < s.e.get 0x2703 4 →
      Completes (.headCommandTimeout h) s (fun t =>
        t.e.head h.val = { x with waiting := some (c, n + 1, s.e.now) } ∧
        t.e.out = .command h.val (commandFrame x.tag c) :: s.e.out ∧ (∀ j, j ≠ h.val → t.e.head j = s.e.head j) ∧
        t = { s with e := { s.e with care.heads := t.e.care.heads, out := t.e.out } })) ∧
    (∀ c n t0, x.waiting = some (c, n, t0) → s.e.get 0x2703 4 ≤ n → c.host = false → c.ty ≠ 0x10 →
      Raises (.headCommandTimeout h) s (fun e => e.head h.val = { x with waiting := none } ∧
        e.get (0x2100 + h.val) 9 = satAdd (entBits (0x2100 + h.val) 9) (s.e.get (0x2100 + h.val) 9) 1) 6 1
        (detailH h.val c.addr (s.e.lastLine h.val)))

/-- R200, R208: the window of head memory is refused where the head's receiver is down, for a field that the engine owns, and for
a staged waveform of a head that prints; else the head is asked and 2704h:06h reads 0 until it answers.
Log entry 48: the model's reading. -/
def Says.HeadMemoryWindow : Prop :=
  ∀ (s : State) (h : Nat), s.serves 0 → h = s.e.get 0x2704 1 →
    (s.e.rxUp h = false → Refuses .headMemRead s 0x08000022 ∧ Refuses .headMemWrite s 0x08000022 ∧
      Refuses .headMemCommit s 0x08000022 ∧ Refuses .headPing s 0x08000022) ∧
    (s.e.rxUp h = true → engineOwned (s.e.get 0x2704 2) (s.e.get 0x2704 3) = true → Refuses .headMemWrite s 0x06010002) ∧
    (s.e.rxUp h = true → s.e.jobState ≠ 0 → s.e.svc h = 0 → Refuses .headMemCommit s 0x08000022) ∧
    (s.e.rxUp h = true → 32 < s.e.get 0x2704 3 → Refuses .headMemRead s 0x06090030) ∧
    (s.e.rxUp h = true → s.e.get 0x2704 3 ≤ 32 → Completes .headMemRead s (fun t =>
      t.e.get 0x2704 6 = 0 ∧ (∀ k, k ≠ 0x270406 → t.e.ent k = s.e.ent k) ∧
      t.e.head h = { s.e.head h with queue := (s.e.head h).queue ++
        [{ ty := 0x10, addr := s.e.get 0x2704 2, len := s.e.get 0x2704 3, data := [], host := true }] } ∧
      t = { s with e := { s.e with d.dict := t.e.d.dict, care.heads := t.e.care.heads } })) ∧
    (s.e.rxUp h = true → engineOwned (s.e.get 0x2704 2) (s.e.get 0x2704 3) = false →
      s.e.get 0x2704 3 ≤ (s.e.dom 0x2704 4).length → s.e.jobState = 0 → Completes .headMemWrite s (fun t =>
      t.e.get 0x2704 6 = 0 ∧ t.e.head h = { s.e.head h with queue := (s.e.head h).queue ++
        [{ ty := 0x11, addr := s.e.get 0x2704 2, len := s.e.get 0x2704 3,
           data := (s.e.dom 0x2704 4).take (s.e.get 0x2704 3), host := true }] } ∧
      t = { s with e := { s.e with d.dict := t.e.d.dict, care.heads := t.e.care.heads } })) ∧
    (s.e.rxUp h = true → s.e.jobState = 0 → Completes .headMemCommit s (fun t =>
      t.e.get 0x2704 6 = 0 ∧ t.e.head h = { s.e.head h with queue := (s.e.head h).queue ++
        [{ ty := 0x12, addr := s.e.get 0x2704 2, len := 0, data := [], host := true }] } ∧
      t = { s with e := { s.e with d.dict := t.e.d.dict, care.heads := t.e.care.heads } })) ∧
    (s.e.rxUp h = true → Completes .headPing s (fun t =>
      t.e.get 0x2704 6 = 0 ∧ t.e.head h = { s.e.head h with queue := (s.e.head h).queue ++
        [{ ty := 0x13, addr := 0, len := 0, data := [], host := true }] } ∧
      t = { s with e := { s.e with d.dict := t.e.d.dict, care.heads := t.e.care.heads } }))

/-- The head command link and the window of head memory. -/
def Obligations.HeadCommandsAndMemory : Prop := Says.HeadCommandLink ∧ Says.HeadMemoryWindow

/-- R211, R212, R221, R255: return begins from Eclipsed or a detected Lost head and needs every check for release; a cooled head
goes to Quarantined after 2 s; a head without a valid temperature is stale with 06h:04h after 1 ms and over-temperature with
06h:03h after 100 ms; IDLE_WARM is written where it differs from the loop's output. -/
def Obligations.HeadServiceChanges : Prop :=
  ∀ (s : State) (h : Fin 128) (x : Head), s.e.live = true → x = s.e.head h.val →
    (s.e.serving 0 = true → s.e.svc h.val = 2 → Completes (.headBeginReturn h) s (fun t => ∃ e : Engine,
      t.e = e.reEval.done ∧ e.svc h.val = 5)) ∧
    (s.e.serving 0 = true → s.e.svc h.val ≠ 2 → s.e.svc h.val ≠ 3 → Refuses (.headBeginReturn h) s 0x08000022) ∧
    (s.e.serving 0 = true → s.e.svc h.val ≠ 5 → Refuses (.headRelease h) s 0x08000022) ∧
    (s.e.serving 0 = true → s.e.svc h.val = 5 → s.e.check h.val 0 = true → s.e.check h.val 1 = true →
      s.e.check h.val 2 = true → s.e.jobState ≠ 0 →
      Completes (.headRelease h) s (fun t =>
        t.e.get (0x2100 + h.val) 0x0E = setBit (s.e.get (0x2100 + h.val) 0x0E) 3 true ∧
        (∀ k, k ≠ ekey (0x2100 + h.val) 0x0E → t.e.ent k = s.e.ent k) ∧
        t = { s with e := { s.e with d.dict := t.e.d.dict, sdo := 0, sdoData := [] } })) ∧
    (s.e.svc h.val ≠ 4 → Becomes (.headCooldownExpiry h) s s.e) ∧
    (s.e.svc h.val = 4 → x.coolSince.isSome = true → Completes (.headCooldownExpiry h) s (fun t => ∃ e : Engine,
      t.e = e.reEval ∧ e.svc h.val = 5)) ∧
    (s.e.rxUp h.val = true → x.stale = false → Completes (.temperatureStale h) s (fun t => ∃ e : Engine,
      t.e = (e.raise 6 4 (detailH h.val 0 (e.lastLine h.val))).reEval.idleWarm h.val ∧ e.head h.val = { x with stale := true } ∧
      e.d = s.e.d)) ∧
    (s.e.rxUp h.val = false → Becomes (.temperatureStale h) s s.e) ∧
    (x.stale = false → Becomes (.temperatureStaleLimit h) s s.e) ∧
    (x.stale = true → s.e.svc h.val = 0 → s.e.care.watch = false → Completes (.temperatureStaleLimit h) s (fun t => ∃ e : Engine,
      t.e = (e.raise 6 3 (detailH h.val 0 (s.e.lastLine h.val))).reEval ∧ e.svc h.val = 4)) ∧
    (s.e.pan.flight = none → s.e.care.watch = false → x.meas = false → s.e.rxUp h.val = true →
      s.e.flag (0x3100 + h.val) 0x0C ≠ x.idleWarm → Completes (.idleWarmRetry h) s (fun t =>
        t.e.head h.val = { x with idleWarm := s.e.flag (0x3100 + h.val) 0x0C, queue := x.queue ++
          [{ ty := 0x11, addr := 0x24, len := 1, data := toLe 1 (2 * ofBool (s.e.flag (0x3100 + h.val) 0x0C)) }] } ∧
        (∀ j, j ≠ h.val → t.e.head j = s.e.head j) ∧ t = { s with e := { s.e with care.heads := t.e.care.heads } })) ∧
    (s.e.flag (0x3100 + h.val) 0x0C = x.idleWarm → Becomes (.idleWarmRetry h) s s.e)

/-! Care of the heads: resistance, drop-watch, fire counts -/

/-- R215: in a turnaround a measurement window opens where 3420h:01h allows it, in Idle and Held on the timer or by command; it
puts every eligible head into the sweep. Its close takes the heads out of measurement mode. -/
def Says.MeasurementWindows : Prop :=
  ∀ s : State, s.e.live = true →
    (s.e.jobState = 0 → Becomes .measurementWindowOpen s s.e) ∧
    (s.e.jobState ≠ 0 → s.e.midTransit = false → s.e.flag 0x3420 1 = true → s.e.care.window = false → s.e.care.watch = false →
      Completes .measurementWindowOpen s (fun t => ∃ e : Engine, t.e = e.reEval ∧ e.care.window = true ∧ e.care.sweep = true ∧
        (∀ h, h < 128 → s.e.sweepable h = true → (e.head h).inSweep = true))) ∧
    (s.e.care.window = false → Becomes .measurementWindowClose s s.e) ∧
    (s.e.care.window = true → Completes .measurementWindowClose s (fun t =>
      t.e.care.window = false ∧ (∀ h, h < 128 → (t.e.head h).meas = false))) ∧
    (s.e.get 0x3420 9 = 0 → Becomes .idleSweepTimer s s.e) ∧
    ((s.e.jobState = 0 ∨ s.e.jobState = 3) → s.e.care.sweep = false → s.e.care.watch = false → s.e.get 0x3420 9 ≠ 0 →
      Completes .idleSweepTimer s (fun t => ∃ e : Engine, t.e = e.reEval ∧ e.care.window = true ∧ e.care.sweep = true ∧
        e.get 0x3420 7 = 0)) ∧
    (s.e.serving 1 = true → s.e.jobState ≠ 0 → s.e.jobState ≠ 3 → Refuses .sweepCommand s 0x08000022) ∧
    (s.e.serving 1 = true → s.e.jobState = 0 → s.e.care.sweep = false →
      Completes .sweepCommand s (fun t => ∃ e : Engine, t.e = e.reEval.done ∧ e.care.window = true ∧ e.care.sweep = true)) ∧
    (s.e.serving 1 = true → Completes .verdictListClear s (fun t =>
      t.e.get 0x3420 0x0C = 0 ∧ (∀ k, k ≠ 0x34200C → t.e.ent k = s.e.ent k) ∧
      t = { s with e := { s.e with d.dict := t.e.d.dict, care.verdictList := [], sdo := 0, sdoData := [] } }))

/-- R213, R214: outside a window a slot does nothing; a missed slot is counted and its element comes last; a slot that measures
leaves the resistance code in the element's staging entry and the element's verdict. Log entry 50: the model's reading. -/
def Says.ResistanceSlots : Prop :=
  ∀ (s : State) (h : Fin 128) (uv : Nat), s.e.live = true →
    (∀ m, s.e.care.window = false → Becomes (.resistanceSlot h uv m) s s.e) ∧
    (∀ n rest, s.e.care.sweep = true → s.e.care.window = true → s.e.sweepable h.val = true →
      (∀ j, j < 128 → s.e.sweepable j = true → (s.e.head j).inSweep = true ∧ (s.e.head j).meas = true) →
      (s.e.head h.val).todo = n :: rest →
      Completes (.resistanceSlot h uv true) s (fun t =>
        (t.e.head h.val).todo = rest ++ [n] ∧ t.e.get 0x3420 8 = satAdd (entBits 0x3420 8) (s.e.get 0x3420 8) 1 ∧
        (∀ k, k ≠ 0x342008 → t.e.ent k = s.e.ent k) ∧ t.e.img = s.e.img)) ∧
    (∀ n m rest, s.e.care.sweep = true → s.e.care.window = true → s.e.sweepable h.val = true →
      (∀ j, j < 128 → s.e.sweepable j = true → (s.e.head j).inSweep = true ∧ (s.e.head j).meas = true) →
      (s.e.head h.val).todo = n :: m :: rest → cellGet (fun _ => false) s.e.img.poisonS (h.val * 2048 + n) = false →
      Completes (.resistanceSlot h uv false) s (fun t =>
        (t.e.head h.val).todo = m :: rest ∧ t.e.get 0x3420 7 = (n + 1) % 2048 ∧
        t.e.stagingEntry (h.val * 2048 + n) = maskWrite (s.e.stagingEntry (h.val * 2048 + n))
          (resCode uv (s.e.get 0x3420 3) (s.e.get (0x2100 + h.val) 0x0F) * 65536) 0xff0000 32 ∧
        cellGet (fun _ => 0) (t.e.head h.val).verdicts n =
          verdictOf (resCode uv (s.e.get 0x3420 3) (s.e.get (0x2100 + h.val) 0x0F))
            (cellGet (fun _ => 0) (s.e.head h.val).means (n / 64)) (s.e.get 0x3420 4) (s.e.get 0x3420 5)))

/-- Measurement windows and resistance slots. -/
def Obligations.ResistanceMeasurement : Prop := Says.MeasurementWindows ∧ Says.ResistanceSlots

/-- R216-R219: a drop-watch run is refused outside rest at the service position, and starts on the heads its command names;
its tick fires one element a bank; the window of a fired element that sees no drop counts a missing one; abandon ends the run
with state 3. Log entry 51: the model's reading. -/
def Says.DropWatch : Prop :=
  ∀ s : State, s.serves 1 →
    (s.e.stage ≠ 0 → Refuses .watchAllHeads s 0x08000022 ∧ Refuses .watchQuarantinedHeads s 0x08000022) ∧
    ((s.e.jobState = 0 ∨ s.e.jobState = 3) → s.e.atService = true → s.e.stage = 0 → s.e.care.watch = false →
      (∃ h, h < 128 ∧ s.e.svc h = 5) →
      Completes .watchAllHeads s (fun t => t.e.care.watch = true ∧ t.e.get 0x3440 2 = 1 ∧ t.e.get 0x3440 8 = 0 ∧
        t.e.get 0x3440 9 = 0 ∧ t.e.sdo = 0 ∧
        t.e.care.watchHeads = (List.range 128).filter (fun h => s.e.svc h == 5 || s.e.svc h == 0 || s.e.svc h == 2)) ∧
      Completes .watchQuarantinedHeads s (fun t => t.e.care.watch = true ∧ t.e.get 0x3440 2 = 1 ∧ t.e.sdo = 0 ∧
        t.e.care.watchHeads = (List.range 128).filter (fun h => s.e.svc h == 5))) ∧
    (s.e.care.watch = true → Completes .watchAbandon s (fun t => t.e.get 0x3440 2 = 3 ∧ t.e.care.watch = false ∧
      t.e.ctl.dwEn = [] ∧ t.e.sdo = 0 ∧ (∀ k, k ≠ 0x344002 → t.e.ent k = s.e.ent k))) ∧
    (s.e.care.watch = false → Refuses .watchAbandon s 0x08000022) ∧
    (s.e.care.watch = false → Becomes .dropwatchTick s s.e ∧ ∀ b a, Becomes (.dropWindowEnd b a) s s.e) ∧
    (s.e.care.watch = true → s.e.care.openWins = [] → s.e.care.watchLine < 32768 → s.e.get 0x4282 1 = 2 →
      s.e.enabledLoops 0 128 = [] →
      Completes .dropwatchTick s (fun t =>
        t.e.care.openWins = (s.e.care.watchHeads.filter (fun h => posOf h == s.e.care.watchLine / 2048)).map bankOf ∧
        (∀ h, h < 128 → s.e.svc h ≠ 6 → h ∈ s.e.care.watchHeads → (s.e.head h).wdHold = false → s.e.haltDemand = false →
          (t.e.head h).strobeHigh = true ∧ (t.e.head h).portLine = (s.e.head h).portLine + 1))) ∧
    (∀ b : Fin 8, s.e.care.watch = true → s.e.care.openWins.contains b.val = true →
      s.e.care.openWins.filter (· != b.val) ≠ [] →
      s.e.care.watchHeads.contains (16 * b.val + s.e.care.watchLine / 2048) = true →
      Completes (.dropWindowEnd b none) s (fun t =>
        t.e.get 0x3440 8 = satAdd (entBits 0x3440 8) (s.e.get 0x3440 8) 1 ∧
        (t.e.head (16 * b.val + s.e.care.watchLine / 2048)).missing = true ∧
        t.e.care.watchLine = s.e.care.watchLine ∧ (∀ k, k ≠ 0x344008 → t.e.ent k = s.e.ent k)) ∧
      ∀ a, Completes (.dropWindowEnd b (some a)) s (fun t =>
        t.e.care.arrivals = s.e.care.arrivals ++
          [(elemNo (16 * b.val + s.e.care.watchLine / 2048) (s.e.care.watchLine % 2048), a)] ∧ t.e.d = s.e.d))

/-- R222, R224, R225: the write-back timer sends the counts of every head whose receiver is up, and nothing without a table; the
table is set in Idle only, over a region that is free, and is cleared before the heads are read. -/
def Says.FireCountTable : Prop :=
  ∀ s : State, s.serves 1 →
    (s.e.get 0x3460 2 = 0 → Becomes .fireCountWritebackTimer s s.e) ∧
    (s.e.get 0x3460 2 ≠ 0 → Completes .fireCountWritebackTimer s (fun t =>
      (∀ h, h < 128 → s.e.rxUp h = true → (t.e.head h).queue.length = (s.e.head h).queue.length + 32) ∧
      (∀ h, s.e.rxUp h = false → t.e.head h = s.e.head h) ∧ t = { s with e := { s.e with care.heads := t.e.care.heads } })) ∧
    (∀ v : BitVec 64, s.e.jobState ≠ 0 → Refuses (.fireCountTableSet v) s 0x08000022) ∧
    (∀ v : BitVec 64, s.e.jobState = 0 → v.toNat % 4096 ≠ 0 → Refuses (.fireCountTableSet v) s 0x06090030) ∧
    (s.e.jobState = 0 → Serves (.fireCountTableSet 0) s [(0x346002, 0)]) ∧
    (∀ v : BitVec 64, s.e.jobState = 0 → v.toNat ≠ 0 → s.e.tableRefused v.toNat = false →
      Completes (.fireCountTableSet v) s (fun t =>
        t.e.get 0x3460 2 = v.toNat ∧ (∀ k, k ≠ 0x346002 → t.e.ent k = s.e.ent k) ∧ t.e.sdo = 0 ∧
        (∀ a, v.toNat ≤ a → a < v.toNat + 0x100000 → t.e.dramByte a = 0) ∧
        (∀ a, a < v.toNat ∨ v.toNat + 0x100000 ≤ a → t.e.dramByte a = s.e.dramByte a) ∧
        (∀ h, h < 128 → s.e.rxUp h = true → (s.e.head h).identLeft = 0 → (t.e.head h).identLeft = 256)))

/-- Drop-watch runs and the fire-count table. -/
def Obligations.DropWatchAndFireCounts : Prop := Says.DropWatch ∧ Says.FireCountTable

/-! Motion, encoders and digital inputs -/

/-- R229, R230: each servo period every axis with a role sends its set-point frame with the next SEQ; here the axes are Disabled
and at rest, and no trace unit records. Log entries 10, 52: the model's readings. -/
def Says.ServoPeriods : Prop :=
  ∀ s : State, s.e.live = true →
    (∀ a, a < 8 → s.e.get (0x3000 + 16 * a) 2 = 0 ∧ (s.e.axis a).stopNext = false ∧ (s.e.axis a).seg = none ∧
      (s.e.axis a).start = none ∧ (s.e.axis a).plan = [] ∧ (s.e.axis a).target = none) →
    (∀ u, u < 4 → s.e.tracing u = false) →
    Completes .servoPeriod s (fun t => ∃ e : Engine, t.e = e.evalHolds ∧ e.mot.period = s.e.mot.period + 1 ∧ e.d = s.e.d ∧
      (∀ a, a < 8 → s.e.get (0x3000 + 16 * a) 1 ≠ 0 →
        (e.axis a).seq = ((s.e.axis a).seq + 1) % 256 ∧ (e.axis a).awaiting = true ∧ (e.axis a).faultReset = false ∧
        .axisFrame a (axisFrame a (((s.e.axis a).seq + 1) % 256)
          (ofBool ((s.e.axis a).enable && !(s.e.axis a).faultReset) + 2 * ofBool (s.e.axis a).hold +
            4 * ofBool (s.e.axis a).stopping + 8 * ofBool (s.e.axis a).faultReset)
          ((s.e.axis a).sendPos.getD (s.e.getI 32 (0x3000 + 16 * a) 5)) (s.e.axis a).v) ∈ e.out) ∧
      (∀ a, s.e.get (0x3000 + 16 * a) 1 = 0 → e.axis a = s.e.axis a))

/-- R230, R231, R232: a reply that is not awaited does nothing; a damaged one is counted once a period; a good one brings the
link up and leaves status and actual position; a missing one counts towards the limit, at which the link is lost. -/
def Says.AxisReplies : Prop :=
  ∀ (s : State) (a : Fin 8) (i : Nat) (x : Axis), s.e.live = true → i = 0x3000 + 16 * a.val → x = s.e.axis a.val →
    (∀ fr, x.awaiting = false → Becomes (.axisReply a fr) s s.e) ∧
    (∀ fr : List Byte, x.awaiting = true → fr.length ≠ 14 → x.discarded = false → Completes (.axisReply a fr) s (fun t =>
      t.e.axis a.val = { x with discarded := true } ∧ t.e.get (i + 2) 2 = satAdd (entBits (i + 2) 2) (s.e.get (i + 2) 2) 1 ∧
      (∀ k, k ≠ ekey (i + 2) 2 → t.e.ent k = s.e.ent k) ∧ (∀ j, j ≠ a.val → t.e.axis j = s.e.axis j))) ∧
    (∀ (fr : List Byte), x.awaiting = true → fr.length = 14 → le (fr.take 1) = 0x5A → le (fr.drop 12) = crc16 (fr.take 12) →
      le ((fr.drop 1).take 1) = a.val → le ((fr.drop 2).take 1) = x.seq → bit (le ((fr.drop 3).take 1)) 2 = false →
      s.e.get i 7 = 0 →
      Completes (.axisReply a fr) s (fun t =>
        t.e.axis a.val = { x with awaiting := false, missedRun := 0, driveFault := false } ∧
        t.e.get (i + 2) 1 = 1 ∧ t.e.get (i + 2) 5 = le ((fr.drop 3).take 1) ∧ t.e.get (i + 2) 6 = le ((fr.drop 10).take 2) ∧
        t.e.get (i + 2) 7 = le ((fr.drop 8).take 2) ∧ t.e.get i 6 = le ((fr.drop 4).take 4) ∧
        (∀ j, j ≠ a.val → t.e.axis j = s.e.axis j))) ∧
    (x.awaiting = false → Becomes (.axisReplyDeadline a) s s.e) ∧
    (x.awaiting = true → x.discarded = false → x.missedRun + 1 < s.e.get (i + 2) 4 → Completes (.axisReplyDeadline a) s (fun t =>
      t.e.axis a.val = { x with awaiting := false, missedRun := x.missedRun + 1 } ∧
      t.e.get (i + 2) 2 = satAdd (entBits (i + 2) 2) (s.e.get (i + 2) 2) 1 ∧
      (∀ k, k ≠ ekey (i + 2) 2 → t.e.ent k = s.e.ent k))) ∧
    (x.awaiting = true → s.e.get (i + 2) 1 = 1 → s.e.get (i + 2) 4 ≤ x.missedRun + 1 →
      Completes (.axisReplyDeadline a) s (fun t => ∃ e : Engine, t.e = e.motionFault a.val 3 ∧ e.get (i + 2) 1 = 2 ∧
        (e.axis a.val).awaiting = false))

/-- Set-point frames and drive replies. -/
def Obligations.ServoPeriodsAndReplies : Prop := Says.ServoPeriods ∧ Says.AxisReplies

/-- R237-R239, R243: enable, disable, move, stop and set-position act in the states their rule names and are refused in others;
while transit control holds an axis, commands 3 to 5 raise cause 6. Log entries 30, 55: the model's readings. -/
def Says.AxisCommands : Prop :=
  ∀ (s : State) (a : Fin 8) (i : Nat) (x : Axis), s.serves 1 → i = 0x3000 + 16 * a.val → x = s.e.axis a.val →
    (s.e.get i 2 ≠ 0 → Refuses (.axisEnable a) s 0x08000022) ∧
    (s.e.get i 2 = 0 → s.e.get (i + 2) 1 = 1 → Completes (.axisEnable a) s (fun t => ∃ e : Engine, t.e = e.evalHolds.done ∧
      e.get i 2 = 1 ∧ e.get i 5 = s.e.get i 6 ∧ e.axis a.val = { x with enable := true, hold := false, v := 0 })) ∧
    (s.e.get i 2 ≠ 1 → s.e.get i 2 ≠ 2 → Refuses (.axisDisable a) s 0x08000022) ∧
    ((s.e.get i 2 = 1 ∨ s.e.get i 2 = 2) → Completes (.axisDisable a) s (fun t => ∃ e : Engine, t.e = e.evalHolds.done ∧
      e.get i 2 = 0 ∧ e.axis a.val = { x with enable := false, hold := false, start := none })) ∧
    (s.e.jobControls a.val = true →
      Becomes (.axisMove a) s ((s.e.motionFault a.val 6).refuse 0x08000022) ∧
      Becomes (.axisStop a) s ((s.e.motionFault a.val 6).refuse 0x08000022) ∧
      Becomes (.axisSetPosition a) s ((s.e.motionFault a.val 6).refuse 0x08000022)) ∧
    (s.e.jobControls a.val = false → s.e.get i 2 = 1 → s.e.get i 8 = 0 → x.stopNext = false → x.stopping = false →
      s.e.haltDemand = false → s.e.stage < 4 → (s.e.inp (2 + a.val)).active = false → (s.e.inp (10 + a.val)).active = false →
      Completes (.axisMove a) s (fun t =>
        t.e.axis a.val = { x with start := some (s.e.getI 32 i 4) } ∧ (∀ j, j ≠ a.val → t.e.axis j = s.e.axis j) ∧
        t = { s with e := { s.e with mot.axes := t.e.mot.axes, sdo := 0, sdoData := [] } })) ∧
    (s.e.jobControls a.val = false → s.e.get i 2 = 0 → Refuses (.axisMove a) s 0x08000022 ∧ Refuses (.axisStop a) s 0x08000022) ∧
    (s.e.jobControls a.val = false → s.e.get i 2 = 3 → s.e.get i 1 ≠ 0 → x.v ≠ 0 → Completes (.axisStop a) s (fun t =>
      t.e.axis a.val = { x with target := none, start := none, plan := [], stopNext := !x.stopping } ∧ t.e.get i 2 = 4 ∧
      t.e.sdo = 0 ∧ (∀ k, k ≠ ekey i 2 → t.e.ent k = s.e.ent k) ∧ (∀ j, j ≠ a.val → t.e.axis j = s.e.axis j))) ∧
    (s.e.jobControls a.val = false → s.e.get i 2 = 1 → s.e.get i 7 = 0 → Completes (.axisSetPosition a) s (fun t =>
      t.e.getI 32 i 5 = s.e.getI 32 i 4 ∧ t.e.getI 32 i 6 = s.e.getI 32 i 4 ∧
      t.e.axis a.val = { x with sendPos := some (s.e.getI 32 i 4) } ∧
      (∀ k, k ≠ ekey i 5 → k ≠ ekey i 6 → t.e.ent k = s.e.ent k) ∧ t.e.sdo = 0))

/-- R237, R239: fault reset leaves Fault at standstill once the cause has cleared; the follow ratio takes both bases and belongs
to roles 3 and 4; the hold delay takes a Ready axis to Holding. Log entries 54, 55: the model's readings. -/
def Says.AxisFaultsAndFollow : Prop :=
  ∀ (s : State) (a : Fin 8) (i : Nat) (x : Axis), s.serves 1 → i = 0x3000 + 16 * a.val → x = s.e.axis a.val →
    (s.e.get i 2 ≠ 5 → Refuses (.axisFaultReset a) s 0x08000022) ∧
    (s.e.get i 2 = 5 → s.e.causeHolds a.val = true → Refuses (.axisFaultReset a) s 0x08000022) ∧
    (s.e.get i 2 = 5 → x.v = 0 → x.seg = none → x.stopNext = false → s.e.causeHolds a.val = false → s.e.get i 7 = 0 →
      Completes (.axisFaultReset a) s (fun t => ∃ e : Engine, t.e = e.release.evalHolds.done ∧ e.get i 2 = 1 ∧ e.get i 9 = 0 ∧
        (e.axis a.val).enable = true ∧ (e.axis a.val).faultReset = true)) ∧
    (∀ g : BitVec 32, g.toNat ≠ 0 → s.e.get i 1 ≠ 3 → s.e.get i 1 ≠ 4 → Refuses (.followRatioWrite a g) s 0x06090030) ∧
    (∀ g : BitVec 32, (s.e.get i 1 = 3 ∨ s.e.get i 1 = 4 ∨ g.toNat = 0) → Completes (.followRatioWrite a g) s (fun t =>
      t.e.get i 8 = g.toNat ∧
      t.e.axis a.val = { x with ownBase := s.e.getI 32 i 5, leadBase := s.e.getI 32 0x3010 5 } ∧
      (∀ k, k ≠ ekey i 8 → t.e.ent k = s.e.ent k) ∧ (∀ j, j ≠ a.val → t.e.axis j = s.e.axis j) ∧ t.e.sdo = 0)) ∧
    (s.e.get i 2 ≠ 1 → Becomes (.holdDelayExpiry a) s s.e) ∧
    (s.e.get i 2 = 1 → x.v = 0 → x.seg = none → x.start = none → x.target = none → Completes (.holdDelayExpiry a) s (fun t =>
      t.e.get i 2 = 2 ∧ t.e.axis a.val = { x with hold := true } ∧ (∀ k, k ≠ ekey i 2 → t.e.ent k = s.e.ent k) ∧
      t = { s with e := { s.e with d.dict := t.e.d.dict, mot.axes := t.e.mot.axes } }))

/-- Commands and states of an axis. -/
def Obligations.AxisStates : Prop := Says.AxisCommands ∧ Says.AxisFaultsAndFollow

/-- R234: levels that do not change give no count; one line that changes counts by one, the filtered count and the axes that use
the input follow; both at once are an illegal transition. The index latches the filtered count.
Log entry 53: the model's reading. -/
def Says.EncoderCounts : Prop :=
  ∀ (s : State) (n : Fin 4) (k : Nat) (x : Encoder), s.e.live = true → k = 0x300F + 16 * n.val → x = s.e.enc n.val →
    (∀ dt, Becomes (.encoderCount n x.a x.b dt) s s.e) ∧
    (∀ (dt : Nat) (c : Int), (s.e.inp (26 + n.val)).unstable = false → (s.e.inp (30 + n.val)).unstable = false → n.val ≠ 0 →
      x.active = false → 4000000000 ≤ dt * 5 * s.e.get k 6 →
      c = signed 32 (unsigned 32 (s.e.getI 32 k 1 + (if (x.a == x.b) != s.e.flag k 7 then -1 else 1))) →
      Completes (.encoderCount n x.a (!x.b) dt) s (fun t =>
        t.e.getI 32 k 1 = c ∧ t.e.getI 32 k 2 = c ∧ (∀ a, a < 8 → s.e.get (0x3000 + 16 * a) 7 = n.val + 1 →
          t.e.getI 32 (0x3000 + 16 * a) 6 = c) ∧ (t.e.enc n.val).b = !x.b ∧ (∀ j, j ≠ n.val → t.e.enc j = s.e.enc j))) ∧
    (∀ dt, (s.e.inp (26 + n.val)).unstable = false → (s.e.inp (30 + n.val)).unstable = false →
      Completes (.encoderCount n (!x.a) (!x.b) dt) s (fun t => ∃ e : Engine, t.e = e.glitch (.encA n) ∧
        e.get k 0x0A = satAdd (entBits k 0x0A) (s.e.get k 0x0A) 1 ∧ e.getI 32 k 1 = s.e.getI 32 k 1)) ∧
    ((s.e.inp (34 + n.val)).unstable = true → Becomes (.encoderIndex n) s s.e) ∧
    ((s.e.inp (34 + n.val)).unstable = false → Writes (.encoderIndex n) s s.e [(ekey k 0x0C, s.e.get k 2)])

/-- R233, R241: a level that does not change does nothing; STOP_L becoming active is 07h:0Bh; a home input only reports; a glitch
is counted, and too many make the input unstable with cause 9, until 10 ms without one; an input that stays active is stuck. -/
def Says.DigitalInputs : Prop :=
  ∀ s : State, s.e.live = true →
    (∀ d, Becomes (.inputChange d (s.e.inp (inputNo d)).active) s s.e) ∧
    ((s.e.inp 0).unstable = false → (s.e.inp 0).active = false → Completes (.inputChange .stop true) s (fun t => ∃ e : Engine,
      t.e = (e.wake 5).raise 7 0x0B 0 ∧ (e.inp 0).active = true ∧ (∀ k, k ≠ 0x307F01 → e.ent k = s.e.ent k))) ∧
    (∀ (a : Fin 8) (v : Bool), (s.e.inp (18 + a.val)).unstable = false → (s.e.inp (18 + a.val)).active = !v →
      Completes (.inputChange (.home a) v) s (fun t =>
        (t.e.inp (18 + a.val)).active = v ∧ (∀ k, k ≠ ekey (0x3004 + 16 * a.val) 1 → t.e.ent k = s.e.ent k) ∧
        bit (t.e.get (0x3004 + 16 * a.val) 1) 2 = v ∧ (∀ j, j ≠ 18 + a.val → t.e.inp j = s.e.inp j))) ∧
    (∀ d, (s.e.inp (inputNo d)).unstable = false → Becomes (.inputStableTimeout d) s s.e) ∧
    (∀ d, (s.e.inp (inputNo d)).unstable = true → Completes (.inputStableTimeout d) s (fun t =>
      t.e.inp (inputNo d) = { s.e.inp (inputNo d) with unstable := false, recent := [] } ∧
      (∀ j, j ≠ inputNo d → t.e.inp j = s.e.inp j) ∧ t = { s with e := { s.e with d.dict := t.e.d.dict, mot.inputs := t.e.mot.inputs } })) ∧
    (∀ d, (s.e.inp (inputNo d)).active = false → Becomes (.inputStuckTimeout d) s s.e) ∧
    ((s.e.inp 0).active = true → (s.e.inp 0).stuck = false → s.e.get 0x307F 4 ≠ 0 →
      Raises (.inputStuckTimeout .stop) s (fun e => e.inp 0 = { s.e.inp 0 with stuck := true } ∧
        (∀ k, k ≠ 0x307F01 → e.ent k = s.e.ent k)) 7 10 0) ∧
    (∀ a : Fin 8, (s.e.inp (18 + a.val)).recent = [] → 1 ≤ s.e.get (0x3004 + 16 * a.val) 5 →
      Completes (.inputGlitch (.home a)) s (fun t =>
        t.e.get (0x3004 + 16 * a.val) 4 = satAdd (entBits (0x3004 + 16 * a.val) 4) (s.e.get (0x3004 + 16 * a.val) 4) 1 ∧
        t.e.inp (18 + a.val) = { s.e.inp (18 + a.val) with recent := [s.e.now] } ∧
        (∀ k, k ≠ ekey (0x3004 + 16 * a.val) 4 → t.e.ent k = s.e.ent k))) ∧
    (∀ a : Fin 8, s.e.get (0x3004 + 16 * a.val) 5 = 0 → (s.e.inp (18 + a.val)).unstable = false →
      Completes (.inputGlitch (.home a)) s (fun t => ∃ e : Engine, t.e = e.motionFault a.val 9 ∧
        (e.inp (18 + a.val)).unstable = true))

/-- Encoder and digital inputs. -/
def Obligations.EncodersAndInputs : Prop := Says.EncoderCounts ∧ Says.DigitalInputs

/-! Loops, high voltage, analog inputs, trace units -/

/-- R254, R249, R250: with no tick for 100 µs the warming loops are evaluated: here one loop with no restriction and no
supervision, in a transit. It publishes PV, SP and error and switches beyond its hysteresis once its minimum time has passed.
Log entry 56: the model's reading. -/
def Says.WarmingLoops : Prop :=
  ∀ (s : State) (l i : Nat) (pv sp err : Int) (out age : Nat), s.e.live = true → s.e.pan.flight.isSome = true →
    s.e.enabledLoops 0 128 = [l] → s.e.restr l = 0 → i = 0x3100 + l → s.e.get i 9 = 0 → (∀ u, u < 4 → s.e.tracing u = false) →
    pv = s.e.pvOf l → sp = s.e.getI 16 i 2 → err = sat16 (sp - pv) → age = s.e.now - (s.e.loop l).changedAt →
    out = (if s.e.flag i 0x0C = false ∧ (s.e.get i 3 : Int) < err ∧ s.e.get i 6 * 50 ≤ age then 1
      else if s.e.flag i 0x0C = true ∧ err < -(s.e.get i 4 : Int) ∧ s.e.get i 5 * 50 ≤ age then 0 else s.e.get i 0x0C) →
    Completes .warmingTimer s (fun t =>
      t.e.get i 0x0E = 0 ∧ t.e.get i 0x0D = unsigned 16 pv ∧ t.e.getI 16 i 0x10 = sp ∧ t.e.getI 16 i 0x0F = err ∧
      t.e.get i 0x0C = out ∧ (out ≠ s.e.get i 0x0C → (t.e.loop l).changedAt = s.e.now) ∧ (∀ j, j ≠ l → t.e.loop j = s.e.loop j) ∧
      (∀ k, k / 256 ≠ i → t.e.ent k = s.e.ent k) ∧
      t = { s with e := { s.e with d.dict := t.e.d.dict, ctl.loops := t.e.ctl.loops } })

/-- R249, R259, R260, R256: each millisecond the mean of every input's conversions is formed, half up; then each enabled zone loop
checks its input and is evaluated. No HV channel is on here. Log entries 29, 56: the model's readings. -/
def Says.ZoneLoops : Prop :=
  ∀ s : State, s.e.live = true → (∀ c, c < 4 → s.e.hvOn c = false) → (∀ u, u < 4 → s.e.tracing u = false) →
    Completes .zoneEvaluation s (fun t => ∃ e : Engine,
      t.e = e.each (s.e.enabledLoops 128 64) (fun e l => (e.zoneInput l).evalTimed l) ∧ e.ctl.sums = [] ∧ e.ctl.counts = [] ∧
      (∀ i, i < 64 → e.get 0x3407 (i + 1) =
        if cellGet (fun _ => 0) s.e.ctl.counts i = 0 then s.e.get 0x3407 (i + 1)
        else (cellGet (fun _ => 0) s.e.ctl.sums i + cellGet (fun _ => 0) s.e.ctl.counts i / 2) / cellGet (fun _ => 0) s.e.ctl.counts i) ∧
      (∀ i, i < 64 → bit (e.get 0x3408 (i + 1)) 0 =
        (decide (e.get 0x3407 (i + 1) < s.e.get 0x3404 (i + 1)) || decide (s.e.get 0x3405 (i + 1) < e.get 0x3407 (i + 1)))) ∧
      (∀ k, k / 256 ≠ 0x3406 → k / 256 ≠ 0x3407 → k / 256 ≠ 0x3408 → e.ent k = s.e.ent k))

/-- Warming and zone loops. -/
def Obligations.HeatingLoops : Prop := Says.WarmingLoops ∧ Says.ZoneLoops

/-- R251, R260, R258, R259: sticky flags clear where a 1 is written, an input's range bit stays; a trip clears unless PV is still
above the limit; a conversion joins its millisecond, and none counts in Dusk or deeper. -/
def Obligations.FlagsTripsConversions : Prop :=
  ∀ (s : State) (idx : BitVec 16) (sub v : Byte) (c : Fin 4) (i : Fin 64) (code : BitVec 12), s.serves 1 →
    (0x3100 ≤ idx.toNat → idx.toNat < 0x31C0 → sub.toNat = 0x11 →
      Serves (.stickyFlagClear idx sub v) s [(ekey idx.toNat 0x11, s.e.get idx.toNat 0x11 &&& (255 ^^^ v.toNat))]) ∧
    (idx.toNat = 0x3408 → 1 ≤ sub.toNat → sub.toNat ≤ 64 → Serves (.stickyFlagClear idx sub v) s
      [(ekey 0x3408 sub.toNat, s.e.get 0x3408 sub.toNat &&& (255 ^^^ (v.toNat &&& 2)))]) ∧
    (0x3000 ≤ idx.toNat → idx.toNat < 0x3100 → Refuses (.stickyFlagClear idx sub v) s 0x06020000) ∧
    (s.e.hvTripped c.val = true → s.e.getI 16 (0x3200 + c.val) 5 < s.e.pvOf (188 + c.val) →
      Refuses (.hvClearTrip c) s 0x08000022) ∧
    (s.e.hvTripped c.val = true → s.e.pvOf (188 + c.val) ≤ s.e.getI 16 (0x3200 + c.val) 5 →
      Completes (.hvClearTrip c) s (fun t => ∃ e : Engine, t.e = e.release.done ∧ e.hvTripped c.val = false ∧
        e.get (0x3200 + c.val) 6 = 0 ∧ (∀ k, k ≠ ekey (0x3200 + c.val) 6 → e.ent k = s.e.ent k) ∧
        (∀ j, j ≠ c.val → e.hvTripped j = s.e.hvTripped j))) ∧
    (s.e.hvTripped c.val = false → Serves (.hvClearTrip c) s []) ∧
    (1 ≤ s.e.idle → Becomes (.analogConversion i code) s s.e) ∧
    (s.e.idle = 0 → (∀ u, u < 4 → s.e.tracing u = false) → Completes (.analogConversion i code) s (fun t =>
      cellGet (fun _ => 0) t.e.ctl.sums i.val = cellGet (fun _ => 0) s.e.ctl.sums i.val + code.toNat ∧
      cellGet (fun _ => 0) t.e.ctl.counts i.val = cellGet (fun _ => 0) s.e.ctl.counts i.val + 1 ∧
      (∀ j, j ≠ i.val → cellGet (fun _ => 0) t.e.ctl.sums j = cellGet (fun _ => 0) s.e.ctl.sums j) ∧
      t = { s with e := { s.e with ctl.sums := t.e.ctl.sums, ctl.counts := t.e.ctl.counts } }))

/-- R262, R263: arming clears the counts and records, triggered at once in mode 0; it is refused while the unit records. A trigger
keeps its time; stop ends recording with whole groups of 1,024 and state 4. Log entry 57: the model's reading. -/
def Obligations.TraceUnits : Prop :=
  ∀ (s : State) (u : Fin 4) (i : Nat), s.serves 1 → i = 0x3210 + u.val →
    (s.e.tracing u.val = true ∨ 1 ≤ s.e.stage → Refuses (.traceArm u) s 0x08000022) ∧
    (s.e.tracing u.val = false → s.e.stage = 0 → s.e.traceSource u.val = false → Refuses (.traceArm u) s 0x06090030) ∧
    (s.e.tracing u.val = false → s.e.stage = 0 → s.e.traceSource u.val = true → s.e.get i 7 ≠ 3 →
      s.e.inDram (s.e.get i 0x0A) (s.e.get i 0x0B) = true →
      clash (s.e.get i 0x0A) (s.e.get i 0x0B)
        (s.e.traceRings u.val ++ s.e.openRings 256 ++ [s.e.proofRing] ++ s.e.fireTable ++ s.e.storeRegions) = false →
      Completes (.traceArm u) s (fun t =>
        t.e.get i 2 = (if s.e.get i 7 = 0 then 2 else 1) ∧ t.e.get i 0x0C = 0 ∧ t.e.get i 0x0D = 0 ∧ t.e.get i 0x0E = 0 ∧
        t.e.get i 0x0F = (if s.e.get i 7 = 0 then s.e.now else 0) ∧ t.e.get i 0x10 = 0 ∧
        t.e.trace u.val = { trigDue := s.e.get i 7 == 0 } ∧ t.e.sdo = 0 ∧ (∀ k, k / 256 ≠ i → t.e.ent k = s.e.ent k) ∧
        (∀ j, j ≠ u.val → t.e.trace j = s.e.trace j) ∧
        t = { s with e := { s.e with d.dict := t.e.d.dict, ctl.traces := t.e.ctl.traces, sdo := 0, sdoData := [] } })) ∧
    (s.e.get i 2 = 1 → Completes (.traceTrigger u) s (fun t =>
      t.e.get i 2 = 2 ∧ t.e.get i 0x0F = s.e.now ∧ t.e.trace u.val = { s.e.trace u.val with trigDue := true } ∧ t.e.sdo = 0 ∧
      (∀ k, k ≠ ekey i 2 → k ≠ ekey i 0x0F → t.e.ent k = s.e.ent k))) ∧
    (s.e.get i 2 ≠ 1 → Serves (.traceTrigger u) s []) ∧
    (s.e.tracing u.val = true → Completes (.traceStop u) s (fun t =>
      t.e.get i 2 = 4 ∧ (t.e.trace u.val).taken = (s.e.trace u.val).taken / 1024 * 1024 ∧
      t.e.get i 0x0C = min ((s.e.trace u.val).taken / 1024 * 1024) (s.e.get i 0x0B / 4) ∧ t.e.sdo = 0 ∧
      (∀ k, k ≠ ekey i 2 → k ≠ ekey i 0x0C → k ≠ ekey i 0x0D → t.e.ent k = s.e.ent k))) ∧
    (s.e.tracing u.val = false → Serves (.traceStop u) s [])

/-! DRAM -/

/-- R268, R269, R304: what a read or a patrol finds is counted by its channel; an uncorrectable line is unreadable from then on;
nothing is read where the controller does not serve or beyond usable capacity. The line's rank has no threshold here, or
migrates already. -/
def Obligations.DramFindings : Prop :=
  ∀ (s : State) (addr ch a i : Nat), s.e.live = true → (ch, a) = s.e.mem.place addr → i = 0x4010 + ch →
    (∀ o lat, s.e.dramServing = false ∨ s.e.inDram (addr / 64 * 64) 64 = false → Becomes (.dramReadComplete addr o lat) s s.e) ∧
    (s.e.dramServing = true → s.e.inDram (addr / 64 * 64) 64 = true →
      Becomes (.dramReadComplete addr .clean 0) s (s.e.touchRow ch (s.e.rankAt ch a) a) ∧
      Writes (.dramReadComplete addr .marker 0) s (s.e.touchRow ch (s.e.rankAt ch a) a)
        [(0x40010C, satAdd (entBits 0x4001 0x0C) (s.e.get 0x4001 0x0C) 1)] ∧
      (s.e.get 0x4002 8 = 0 → Completes (.dramReadComplete addr .corrected 0) s (fun t =>
        t.e.get i 4 = satAdd (entBits i 4) (s.e.get i 4) 1 ∧ (∀ k, k ≠ ekey i 4 → t.e.ent k = s.e.ent k) ∧
        t = { s with e := { s.e with d.dict := t.e.d.dict, mem.chans := t.e.mem.chans } })) ∧
      (s.e.migrating ch = true → (s.e.chan ch).migrating = some (s.e.rankAt ch a) →
        Completes (.dramReadComplete addr .uncorrectable 0) s (fun t =>
          t.e.get i 5 = satAdd (entBits i 5) (s.e.get i 5) 1 ∧ t.e.get i 0x0F = addr ∧ t.e.lineOk (addr / 64) = false ∧
          (∀ k, k ≠ ekey i 5 → k ≠ ekey i 0x0F → t.e.ent k = s.e.ent k)))) ∧
    (∀ o, s.e.get 0x4020 2 = 0 → Becomes (.patrolLine addr o) s s.e) ∧
    (s.e.get 0x4020 2 ≠ 0 → s.e.dramServing = true → s.e.inDram (addr / 64 * 64) 64 = true → s.e.get i 1 ≠ 2 →
      Writes (.patrolLine addr .clean) s s.e [(0x402003, addr)] ∧
      (s.e.get 0x4002 8 = 0 → Completes (.patrolLine addr .corrected) s (fun t =>
        t.e.get 0x4020 3 = addr ∧ t.e.get 0x4020 4 = satAdd (entBits 0x4020 4) (s.e.get 0x4020 4) 1 ∧
        (∀ k, k ≠ 0x402003 → k ≠ 0x402004 → t.e.ent k = s.e.ent k))))

/-- R284-R286: an alert is counted, and one that repeats starts the migration of its rank, as the command does of the rank it
names; each copied line advances P by 64, and the last one puts the spare in the rank's place.
Log entry 59: the model's reading. -/
def Obligations.RankMigration : Prop :=
  ∀ (s : State) (ch rank : Fin 4) (i : Nat), s.serves 3 → i = 0x4010 + ch.val →
    ((s.e.chan ch.val).up = false → Becomes (.dramAlert ch rank true) s s.e ∧ Refuses (.migrateCommand ch) s 0x08000022) ∧
    ((s.e.chan ch.val).up = true → Writes (.dramAlert ch rank false) s s.e [(ekey i 6, satAdd (entBits i 6) (s.e.get i 6) 1)]) ∧
    ((s.e.chan ch.val).up = true → s.e.migrating ch.val = false → s.e.get i 0x0A ≠ 0xff →
      Raises (.dramAlert ch rank true) s (fun e => e.get i 0x0D = 0 ∧ e.get i 0x0E = 2 ∧ e.get i 0x0F = 0 ∧ e.get i 1 = 3 ∧
        e.get i 0x0C = (if s.e.get 0x4001 1 = 2 ∨ s.e.get 0x4001 1 = 3 then 2 else 1) ∧
        (e.chan ch.val).migrating = some rank.val) 9 5 (detailM ch.val rank.val 0) ∧
      (∀ r, s.e.get i 0x11 = r → (s.e.chan ch.val).lrank.contains r = false → Refuses (.migrateCommand ch) s 0x06090030) ∧
      (∀ r, s.e.get i 0x11 = r → (s.e.chan ch.val).lrank.contains r = true → Completes (.migrateCommand ch) s (fun t =>
        ∃ e : Engine, t.e = (e.raise 9 5 (detailM ch.val r 0)).done ∧ e.get i 0x0D = 0 ∧ e.get i 0x0E = 4 ∧ e.get i 1 = 3 ∧
          (e.chan ch.val).migrating = some r))) ∧
    (s.e.migrating ch.val = true → Refuses (.migrateCommand ch) s 0x08000022) ∧
    (∀ o, (s.e.chan ch.val).migrating = none → Becomes (.migrationLineCopy ch o) s s.e) ∧
    ((s.e.chan ch.val).migrating = some rank.val → s.e.get i 0x0C = 1 → s.e.get 0x4001 1 = 1 →
      (s.e.get i 0x0D + 64 < s.e.mem.rsize →
        Writes (.migrationLineCopy ch .clean) s s.e [(ekey i 0x0D, s.e.get i 0x0D + 64)] ∧
        Writes (.migrationLineCopy ch .corrected) s s.e
          [(ekey i 0x0D, s.e.get i 0x0D + 64), (ekey i 4, satAdd (entBits i 4) (s.e.get i 4) 1)]) ∧
      (s.e.mem.rsize ≤ s.e.get i 0x0D + 64 → Raises (.migrationLineCopy ch .clean) s (fun e =>
        e.get i 0x0B = rank.val ∧ e.get i 0x0A = 0xff ∧ e.get i 0x0C = 3 ∧ e.get i 1 = 1 ∧
        (e.chan ch.val).migrating = none) 9 6 (detailM ch.val rank.val 0)))

/-- R281, R282, R291: a retrain begins in Idle or Held, or once in a turnaround, with no other channel retraining; it ends with a new
setting, or with the previous one and a Warning. Log entry 59: the model's reading. -/
def Says.Retraining : Prop :=
  ∀ (s : State) (ch : Fin 4) (i : Nat), s.serves 3 → i = 0x4010 + ch.val →
    (s.e.mayRetrain ch.val = false → Becomes (.retrain ch) s s.e ∧ Refuses (.retrainCommand ch) s 0x08000022) ∧
    (s.e.mayRetrain ch.val = true → s.e.jobState ≠ 0 → s.e.jobState ≠ 3 → Refuses (.retrainCommand ch) s 0x08000022) ∧
    (s.e.mayRetrain ch.val = true → s.e.jobState = 0 ∨ s.e.jobState = 3 →
      Writes (.retrain ch) s s.e [(ekey i 1, 2), (0x400109, setBit (s.e.get 0x4001 9) 0 true)] ∧
      Serves (.retrainCommand ch) s [(ekey i 1, 2), (0x400109, setBit (s.e.get 0x4001 9) 0 true)]) ∧
    (s.e.mayRetrain ch.val = true → s.e.jobState = 1 → s.e.pan.flight.isSome = true ∨ s.e.mem.turnaroundRetrained = true →
      Becomes (.retrain ch) s s.e) ∧
    (∀ o, s.e.get i 1 ≠ 2 → Becomes (.retrainComplete ch o) s s.e) ∧
    (s.e.get i 1 = 2 → Completes (.retrainComplete ch .newSetting) s (fun t =>
      t.e.get i 1 = 1 ∧ t.e.get i 7 = wrapAdd (entBits i 7) (s.e.get i 7) 1 ∧ t.e.get i 9 = s.e.now ∧
      t.e.get 0x4001 9 = setBit (s.e.get 0x4001 9) 0 false ∧ (t.e.chan ch.val).retryDue = false ∧
      (t.e.chan ch.val).trainedTemp = s.e.getI 16 0x4211 1 ∧
      (∀ k, k ≠ ekey i 1 → k ≠ ekey i 7 → k ≠ ekey i 9 → k ≠ 0x400109 → t.e.ent k = s.e.ent k))) ∧
    (s.e.get i 1 = 2 → Raises (.retrainComplete ch .fallback) s (fun e =>
      e.get i 1 = 1 ∧ e.get i 7 = wrapAdd (entBits i 7) (s.e.get i 7) 1 ∧ e.get i 8 = satAdd (entBits i 8) (s.e.get i 8) 1 ∧
      e.get i 9 = s.e.get i 9 ∧ (e.chan ch.val).retryDue = true) 9 2 (detailM ch.val 0 0))

/-- R287, R278, R279, R289: the end of marking lets requests be served; a due refresh is issued on an idle bank and at most four
times postponed on a busy one, then closes the rows it needs; an idle row closes; each window publishes the imbalance. -/
def Says.DramUpkeep : Prop :=
  ∀ (s : State) (ch rank bank : Fin 4) (k : Nat), s.e.live = true → k = rank.val * 4 + bank.val →
    (s.e.get 0x4001 1 ≠ 0 → s.e.get 0x4001 1 ≠ 4 → Becomes .markingComplete s s.e) ∧
    (s.e.get 0x4001 1 = 0 → s.e.mem.trained = false → Becomes .markingComplete s s.e) ∧
    ((s.e.get 0x4001 1 = 0 ∧ s.e.mem.trained = true) ∨ s.e.get 0x4001 1 = 4 → Completes .markingComplete s (fun t =>
      ∃ e : Engine, t.e = e.refreshSr.evalHolds.dawnEnds ∧ e.get 0x4001 1 = 1 ∧ e.get 0x4001 5 = 100 ∧
        (∀ j, j ≠ 0x400101 → j ≠ 0x400105 → e.ent j = s.e.ent j))) ∧
    (∀ idle rate, (s.e.chan ch.val).up = false ∨ s.e.get 0x4001 1 ≠ 1 → Becomes (.refreshDue ch rank bank idle rate) s s.e) ∧
    (∀ (rate : Fin 3) n, (s.e.chan ch.val).up = true → s.e.get 0x4001 1 = 1 → rate.val < 2 →
      n = cellGet (fun _ => 0) (s.e.chan ch.val).postponed k →
      (n < 4 → Completes (.refreshDue ch rank bank false rate) s (fun t =>
        t.e.chan ch.val = { s.e.chan ch.val with postponed := cellSet (fun _ => 0) (s.e.chan ch.val).postponed k (n + 1) } ∧
        t.e.get (0x4010 + ch.val) 0x12 = 2 ^ rate.val ∧ (∀ j, j ≠ ch.val → t.e.chan j = s.e.chan j))) ∧
      (∀ idle, idle = true ∨ 4 ≤ n → Completes (.refreshDue ch rank bank idle rate) s (fun t =>
        cellGet (fun _ => 0) (t.e.chan ch.val).postponed k = 0 ∧ t.e.get (0x4010 + ch.val) 0x12 = 2 ^ rate.val ∧
        (t.e.chan ch.val).openRows =
          (s.e.chan ch.val).openRows.filter (fun p => !(p.1 / 32 == rank.val && p.1 % 4 == bank.val)) ∧
        (∀ j, j ≠ ch.val → t.e.chan j = s.e.chan j)))) ∧
    (∀ b : Fin 32, Completes (.pageIdleTimeout ch rank b) s (fun t =>
      t.e.chan ch.val = { s.e.chan ch.val with openRows := cellErase (rank.val * 32 + b.val) (s.e.chan ch.val).openRows } ∧
      (∀ j, j ≠ ch.val → t.e.chan j = s.e.chan j) ∧ t = { s with e := { s.e with mem.chans := t.e.mem.chans } })) ∧
    (∀ (rd wr class0 shares : List Nat) (imb : Nat), shares = s.e.mem.active.map (fun c => rd.getD c 0 + wr.getD c 0) →
      shares.foldl (· + ·) 0 ≠ 0 → imb = min 65535 (imbalanceOf shares) →
      (imb ≤ s.e.get 0x4002 9 → Completes (.bandwidthWindow rd wr class0) s (fun t =>
        t.e.get 0x4001 0x0A = imb ∧ t.e.mem.imbalanceMs = 0 ∧ t.e.mem.imbalanceRaised = false ∧
        bit (t.e.get 0x4001 9) 1 = s.e.mem.active.any (fun c => decide (20480000 < class0.getD c 0)) ∧
        (∀ c, c < 4 → t.e.get (0x4010 + c) 2 = wrapAdd (entBits (0x4010 + c) 2) (s.e.get (0x4010 + c) 2) (rd.getD c 0) ∧
          t.e.get (0x4010 + c) 3 = wrapAdd (entBits (0x4010 + c) 3) (s.e.get (0x4010 + c) 3) (wr.getD c 0)) ∧
        t.e.freeIdx = s.e.freeIdx)) ∧
      (s.e.get 0x4002 9 < imb → s.e.mem.imbalanceRaised = false → 1000 * s.e.get 0x4002 0x0A ≤ s.e.mem.imbalanceMs + 1 →
        Raises (.bandwidthWindow rd wr class0) s (fun e => e.get 0x4001 0x0A = imb ∧ e.mem.imbalanceMs = s.e.mem.imbalanceMs + 1 ∧
          e.mem.imbalanceRaised = true) 9 9 imb))

/-- Retraining, marking, refresh, pages and the bandwidth monitor. -/
def Obligations.DramMaintenance : Prop := Says.Retraining ∧ Says.DramUpkeep

/-- R303, R298, R299: a clean word leaves all but the scrubber's place; a corrected one is counted and becomes a suspect; an
uncorrectable one is counted, named and raised. A remap record that is due goes to boot flash; a failed write is counted and
stays due. Log entries 25, 60: the model's readings. -/
def Obligations.OnChipIntegrity : Prop :=
  ∀ (s : State) (g : Fin 8) (w : BitVec 31) (slot : Fin 16) (k i : Nat), s.e.live = true → k = 16 * g.val + slot.val →
    i = 0x4030 + g.val →
    (∀ o, o = .clean ∨ o = .marker → cellFind g.val s.e.integ.scrubbed = none → Completes (.scrubWord g w o) s (fun t =>
      cellFind g.val t.e.integ.scrubbed = some w.toNat ∧
      t = { s with e := { s.e with integ.scrubbed := t.e.integ.scrubbed } })) ∧
    (∀ p, cellFind g.val s.e.integ.scrubbed = some p → w.toNat ≤ p → Completes (.scrubWord g w .clean) s (fun t =>
      t.e.get i 7 = wrapAdd (entBits i 7) (s.e.get i 7) 1 ∧ (∀ j, j ≠ ekey i 7 → t.e.ent j = s.e.ent j))) ∧
    Completes (.scrubWord g w .corrected) s (fun t => ∃ e : Engine, t.e = e.suspect g.val w.toNat false ∧
      e.get i 1 = satAdd (entBits i 1) (s.e.get i 1) 1 ∧ (∀ j, j ≠ ekey i 1 → j ≠ ekey i 7 → e.ent j = s.e.ent j)) ∧
    Completes (.scrubWord g w .uncorrectable) s (fun t => ∃ e : Engine,
      t.e = (e.raise 0x0A 3 (detailG g.val w.toNat)).suspect g.val w.toNat true ∧
      e.get i 2 = satAdd (entBits i 2) (s.e.get i 2) 1 ∧ e.get i 8 = w.toNat ∧
      (∀ j, j ≠ ekey i 2 → j ≠ ekey i 7 → j ≠ ekey i 8 → e.ent j = s.e.ent j)) ∧
    (s.e.serving 3 = true → s.e.integ.flashDue.contains k = true →
      Completes (.remapRecordWrite g slot true) s (fun t =>
        t.e.integ.flashDue = s.e.integ.flashDue.filter (· != k) ∧
        t.nv.records = cellSet (fun _ => []) s.nv.records k
          (remapRecord g.val slot.val (cellGet (fun _ => 0) s.e.integ.remap k)) ∧
        t = { s with e := { s.e with integ.flashDue := t.e.integ.flashDue }, nv := { s.nv with records := t.nv.records } }) ∧
      Writes (.remapRecordWrite g slot false) s s.e [(0x402006, satAdd (entBits 0x4020 6) (s.e.get 0x4020 6) 1)]) ∧
    (∀ ok, s.e.integ.flashDue.contains k = false → Becomes (.remapRecordWrite g slot ok) s s.e)

/-! Faults -/

/-- R308, R313, R315, R320, R312, R319: a message with nothing logged opens an entry with its class and detail; one that agrees with
an unacknowledged entry is counted there; one of class Stop or above drives FAULT_L low and holds a job at a boundary. -/
def Obligations.FaultMessages : Prop :=
  ∀ (s : State) (src kind : Byte) (detail : BitVec 40) (c : Nat), s.e.live = true → s.e.idle = 0 →
    c = s.e.classOf src.toNat kind.toNat detail.toNat →
    (c < 3 → s.e.flt.log = [] → s.e.flt.windows = [] → s.e.flt.incidents = [] → s.e.flt.nextSeq ≠ 0 →
      Completes (.faultMessage src kind detail) s (fun t => ∃ x : LogEntry, t.e.flt.log = [x] ∧ x.seq = s.e.flt.nextSeq ∧
        x.src = src.toNat ∧ x.kind = kind.toNat ∧ x.cls = c ∧ x.detail = detail.toNat ∧ x.time = s.e.now ∧ x.repeats = 0 ∧
        x.acked = (decide (c ≤ 1) && bit (s.e.get 0x4100 7) c) ∧ t.e.flt.nextSeq = s.e.flt.nextSeq + 1 ∧
        t.e.get 0x4100 1 = 1 ∧ t.e.get 0x4100 4 = (if x.acked then 0xff else c) ∧
        t.e.get 0x4100 0x0D = message src.toNat kind.toNat c detail.toNat ∧ t.e.flt.faultLPin = s.e.flt.faultLPin)) ∧
    (∀ x, findSame src.toNat kind.toNat (keyOf src.toNat kind.toNat (detail.toNat % 2 ^ 40)) s.e.flt.log = some x →
      x.acked = false → x.cls < 3 → Completes (.faultMessage src kind detail) s (fun t =>
        t.e.flt.log = updLog x.seq (fun y => { y with repeats := satAdd 32 y.repeats 1 }) s.e.flt.log ∧
        t.e.flt.nextSeq = s.e.flt.nextSeq ∧ t.e.get 0x4100 0x0D = x.msg)) ∧
    (3 ≤ c → s.e.flt.log = [] → s.e.flt.windows = [] → s.e.flt.incidents = [] →
      Completes (.faultMessage src kind detail) s (fun t =>
        t.e.flt.faultLPin = false ∧ t.e.flt.minimumOn = true ∧ t.e.get 0x4100 9 = 1 ∧
        (s.e.jobState = 1 → t.e.jobState = 3 ∧ t.e.hold 1 = true)))

/-- R318: an acknowledgement names an entry, with its incident, or a class and those below; the demands it held are released. -/
def Says.Acknowledgements : Prop :=
  ∀ (s : State) (q : BitVec 32) (c : Byte), s.serves 3 →
    (s.e.flt.log.find? (fun x => x.seq == q.toNat) = none → Refuses (.acknowledgeEntry q) s 0x06090030) ∧
    (∀ x, s.e.flt.log.find? (fun x => x.seq == q.toNat) = some x → Completes (.acknowledgeEntry q) s (fun t => ∃ e : Engine,
      t.e = e.release.done ∧ e.flt.log.map (·.seq) = s.e.flt.log.map (·.seq) ∧
      e.flt.log.map (·.acked) = s.e.flt.log.map (fun y => y.acked || y.incident == x.incident))) ∧
    (4 < c.toNat → Refuses (.acknowledgeClass c) s 0x06090030) ∧
    (c.toNat ≤ 4 → Completes (.acknowledgeClass c) s (fun t => ∃ e : Engine,
      t.e = e.release.done ∧ e.flt.log.map (·.seq) = s.e.flt.log.map (·.seq) ∧
      e.flt.log.map (·.acked) = s.e.flt.log.map (fun y => y.acked || decide (y.cls ≤ c.toNat))))

/-- R314, R317, R321, R319: an incident and a shadow window end with their time; a growing entry is recorded again; FAULT_L is held
and released by its bit, not before its minimum is over. -/
def Says.FaultTimers : Prop :=
  ∀ s : State, s.serves 3 →
    (∀ q, Becomes (.incidentWindowEnd q) s { s.e with flt.incidents := s.e.flt.incidents.filter (fun i => i.seq != q) }) ∧
    (∀ w, Becomes (.shadowWindowEnd w) s { s.e with flt.windows := s.e.flt.windows.filter (fun x => !(x.id == w && x.ended)) }) ∧
    (∀ q, s.e.flt.log.find? (fun x => x.seq == q) = none → Becomes (.repeatRecordTimer q) s s.e) ∧
    (∀ q x, s.e.flt.log.find? (fun x => x.seq == q) = some x → x.repeats = x.recorded → Becomes (.repeatRecordTimer q) s s.e) ∧
    (∀ q x, s.e.flt.log.find? (fun x => x.seq == q) = some x → x.repeats ≠ x.recorded → s.e.host.ringEnable = false →
      Becomes (.repeatRecordTimer q) s
        { s.e with flt.log := updLog q (fun y => { y with recorded := y.repeats }) s.e.flt.log }) ∧
    Completes (.faultLHoldWrite true) s (fun t => t.e.get 0x4100 9 = 1 ∧ t.e.flt.faultLPin = false ∧ t.e.sdo = 0 ∧
      (∀ k, k ≠ 0x410009 → t.e.ent k = s.e.ent k)) ∧
    (s.e.flt.minimumOn = true → Becomes (.faultLHoldWrite false) s
      { s.e with flt.clearPending := true, sdo := 0, sdoData := [] }) ∧
    (s.e.flt.minimumOn = false → s.e.mode = .running → Completes (.faultLHoldWrite false) s (fun t =>
      t.e.get 0x4100 9 = 0 ∧ t.e.flt.faultLPin = true ∧ t.e.flt.clearPending = false ∧ t.e.sdo = 0)) ∧
    (s.e.flt.minimumOn = false → Becomes .faultLMinimumExpiry s s.e) ∧
    (s.e.flt.minimumOn = true → s.e.flt.clearPending = false →
      Becomes .faultLMinimumExpiry s { s.e with flt.minimumOn := false }) ∧
    (s.e.flt.minimumOn = true → s.e.flt.clearPending = true → s.e.mode = .running → Completes .faultLMinimumExpiry s (fun t =>
      t.e.get 0x4100 9 = 0 ∧ t.e.flt.faultLPin = true ∧ t.e.flt.minimumOn = false ∧ t.e.flt.clearPending = false))

/-- Acknowledgement, incidents, windows and FAULT_L. -/
def Obligations.FaultBookkeeping : Prop := Says.Acknowledgements ∧ Says.FaultTimers

/-! Clocks -/

/-- R334, R335: losing lock or CLK_IN is counted, puts the PLL's domains on REF and raises 0Ch:01h; 1 µs after a loss of lock, or
1 ms of good CLK_IN after a loss of reference, a new lock begins. -/
def Says.ClockLosses : Prop :=
  ∀ (s : State) (x : Fin 3) (i : Nat), s.e.live = true → i = 0x4281 + x.val →
    (s.e.get i 1 ≠ 2 → Becomes (.pllLossOfLock x) s s.e) ∧
    (s.e.get i 1 = 2 → Raises (.pllLossOfLock x) s (fun e => e.get i 1 = 3 ∧ e.get i 6 = satAdd (entBits i 6) (s.e.get i 6) 1 ∧
      (∀ d, d ∈ pllDomains x.val → bit (e.get 0x4280 2) d = true)) 0x0C 1 (4 + x.val)) ∧
    ((s.e.pll x.val).clkIn = false → Becomes (.pllLossOfReference x) s s.e) ∧
    ((s.e.pll x.val).clkIn = true → 1 ≤ s.e.get i 1 → s.e.get i 1 ≤ 3 →
      Raises (.pllLossOfReference x) s (fun e => e.get i 1 = 4 ∧ e.get i 7 = satAdd (entBits i 7) (s.e.get i 7) 1 ∧
        e.get 0x4280 5 = 2 ∧ (∀ d, d ∈ pllDomains x.val → bit (e.get 0x4280 2) d = true)) 0x0C 1 (8 + x.val)) ∧
    (s.e.get i 1 ≠ 3 → Becomes (.pllRelockStart x) s s.e) ∧
    (s.e.get i 1 = 3 → Completes (.pllRelockStart x) s (fun t => t.e.get i 1 = 1 ∧
      t.e.pll x.val = { s.e.pll x.val with searching := true, declared := false } ∧
      (∀ d, d ∈ pllDomains x.val → bit (t.e.get 0x4280 2) d = true) ∧ (∀ j, j ≠ x.val → t.e.pll j = s.e.pll j) ∧
      t = { s with e := { s.e with d.dict := t.e.d.dict, pwr.plls := t.e.pwr.plls } })) ∧
    (s.e.get 0x4280 4 = 0 → Becomes (.clkInGood x) s s.e) ∧
    (s.e.get 0x4280 4 ≠ 0 → s.e.get i 1 ≠ 4 → Writes (.clkInGood x) s s.e [(0x428005, 1)]) ∧
    (s.e.get 0x4280 4 ≠ 0 → s.e.get i 1 = 4 → Completes (.clkInGood x) s (fun t => t.e.get i 1 = 1 ∧ t.e.get 0x4280 5 = 1 ∧
      (t.e.pll x.val).searching = true))

/-- R331, R332, R333, R335, R337: a lock attempt fails or declares lock, a declared lock is confirmed and switches the domains back;
commands of the PLLs act in their states and are refused in others. -/
def Says.ClockLocking : Prop :=
  ∀ (s : State) (x o : Fin 3) (i : Nat) (v : Byte), s.serves 3 → i = 0x4281 + x.val →
    (∀ band us, s.e.get i 1 = 1 → (s.e.pll x.val).searching = true → Completes (.pllLockDeclared x band us) s (fun t =>
      t.e.get i 5 = band.val ∧ t.e.get i 0x13 = us.toNat ∧
      t.e.pll x.val = { s.e.pll x.val with searching := false, declared := true } ∧
      (∀ k, k ≠ ekey i 5 → k ≠ ekey i 0x13 → t.e.ent k = s.e.ent k))) ∧
    (∀ band us, (s.e.pll x.val).searching = false → Becomes (.pllLockDeclared x band us) s s.e) ∧
    ((s.e.pll x.val).declared = false → Becomes (.pllLockConfirmed x) s s.e) ∧
    (s.e.get i 1 = 1 → (s.e.pll x.val).declared = true → Completes (.pllLockConfirmed x) s (fun t => ∃ e : Engine,
      t.e = e.evalHolds.clocksUp ∧ e.get i 1 = 2 ∧ (e.pll x.val).declared = false ∧
      (∀ d, d ∈ pllDomains x.val → bit (e.get 0x4280 2) d = false))) ∧
    (s.e.get i 1 = 1 → (s.e.pll x.val).searching = true → Completes (.pllAttemptFailed x) s (fun t =>
      t.e.get i 8 = satAdd (entBits i 8) (s.e.get i 8) 1 ∧ t.e.pll x.val = { s.e.pll x.val with searching := false } ∧
      (∀ k, k ≠ ekey i 8 → t.e.ent k = s.e.ent k))) ∧
    ((s.e.pll x.val).searching = true → Becomes (.pllRetryTimer x) s s.e) ∧
    (s.e.get i 1 = 1 → (s.e.pll x.val).searching = false → (s.e.pll x.val).declared = false →
      Completes (.pllRetryTimer x) s (fun t => t.e.pll x.val = { s.e.pll x.val with searching := true } ∧
        (∀ j, j ≠ x.val → t.e.pll j = s.e.pll j) ∧ t = { s with e := { s.e with pwr.plls := t.e.pwr.plls } })) ∧
    (s.e.jobState ≠ 0 ∨ s.e.idle ≠ 0 → Refuses (.pllRelock x) s 0x08000022) ∧
    (s.e.jobState = 0 → s.e.idle = 0 → s.e.pfdValid x.val = false → Refuses (.pllRelock x) s 0x06090030) ∧
    (s.e.jobState = 0 → s.e.idle = 0 → s.e.pfdValid x.val = true → Completes (.pllRelock x) s (fun t =>
      t.e.get i 1 = 1 ∧ t.e.get i 4 = 9600000 / s.e.twicePfd x.val ∧
      t.e.pll x.val = { searching := true, declared := false, clkIn := s.e.get i 2 == 1 } ∧ t.e.sdo = 0)) ∧
    (s.e.jobState ≠ 0 → Refuses (.pllDelayWrite x o v) s 0x08000022) ∧
    (s.e.jobState = 0 → 63 < v.toNat → Refuses (.pllDelayWrite x o v) s 0x06090030) ∧
    (s.e.jobState = 0 → v.toNat ≤ 63 → Serves (.pllDelayWrite x o v) s [(ekey i (0x0D + o.val), v.toNat)]) ∧
    (s.e.jobState ≠ 0 → Refuses .syncArm s 0x08000022) ∧
    (s.e.jobState = 0 → (∀ y, y < 3 → bit (s.e.get 0x4280 8) y = true → s.e.get (0x4281 + y) 1 = 2) →
      Serves .syncArm s [(0x428007, 1)]) ∧
    (s.e.get 0x4280 7 = 1 → Writes .syncInEdge s s.e [(0x428007, 2)]) ∧
    (s.e.get 0x4280 7 ≠ 1 → Becomes .syncInEdge s s.e)

/-- Losses, locks and commands of the PLLs. -/
def Obligations.ClocksAndPlls : Prop := Says.ClockLosses ∧ Says.ClockLocking

/-- R328, R349, R342, R401: two REF windows in a row out of range, VIN below 6.5 V and a rail out of its window reset the engine; a
reset that is held ends in Dawn with its cause once nothing holds it; the counters outlive what is not removal of power.
Log entry 63: the model's reading. -/
def Obligations.PowerResets : Prop :=
  ∀ (s : State) (n : Nat),
    (s.e.mode = .running → 45000 ≤ n → n ≤ 52500 → Completes (.refMonitorWindow n) s (fun t =>
      t.e.get 0x4280 1 = n ∧ t.e.pwr.refBad = 0 ∧ (∀ k, k ≠ 0x428001 → t.e.ent k = s.e.ent k) ∧ t.e.mode = .running)) ∧
    (s.e.mode = .running → refInRange n = false → s.e.pwr.refBad = 0 → Completes (.refMonitorWindow n) s (fun t =>
      t.e.pwr.refBad = 1 ∧ t.e.mode = .running ∧ t.nv = s.nv)) ∧
    (s.e.mode = .running → refInRange n = false → s.e.pwr.refBad ≠ 0 → Completes (.refMonitorWindow n) s (fun t =>
      t.e.mode = .powerOnReset ∧ t.e.pwr.refHold = true ∧ t.e.pwr.vinLow = false ∧ t.e.get 0x2200 2 = 0 ∧
      t.nv.refLosses = satAdd 16 s.nv.refLosses 1 ∧ t.pending = s.pending)) ∧
    (s.e.mode = .powerOnReset → s.e.pwr.refHold = true → s.e.pwr.vinLow = false → refInRange n = true →
      Completes (.refMonitorWindow n) s (fun t => t.e.mode = .dawn ∧ t.e.get 0x4320 3 = 2 ∧ t.e.get 0x2001 1 = 1 ∧
        t.nv.dawns = satAdd 32 s.nv.dawns 1 ∧ t.e.get 0x4280 9 = s.nv.refLosses)) ∧
    (s.e.mode = .shutdown → Becomes (.refMonitorWindow n) s s.e) ∧
    Completes (.powerOnReset false) s (fun t => t.e.mode = .powerOnReset ∧ t.e.pwr.vinLow = true ∧ t.nv.refLosses = 0 ∧
      t.nv.railResets = 0 ∧ t.nv.dawns = 0 ∧ t.e.mem.written = [] ∧ t.e.flt.log = [] ∧ t.nv.fuses = s.nv.fuses ∧
      t.pending = s.pending) ∧
    (s.e.mode ≠ .powerOnReset → Becomes (.powerOnReset true) s s.e) ∧
    (s.e.mode = .powerOnReset → s.e.pwr.vinLow = true → s.e.pwr.refHold = false → Completes (.powerOnReset true) s (fun t =>
      t.e.mode = .dawn ∧ t.e.get 0x4320 3 = 1 ∧ t.e.get 0x2001 1 = 1 ∧ t.nv.dawns = satAdd 32 s.nv.dawns 1 ∧ t.e.now = 0)) ∧
    (∀ (r : Fin 9) (mv : BitVec 16), s.e.live = true → r.val ≠ 8 → Completes (.railFault r mv) s (fun t =>
      t.e.mode = .dawn ∧ t.e.get 0x4320 3 = 1 ∧ t.nv.railResets = satAdd 16 s.nv.railResets 1 ∧
      t.e.get 0x4202 0x0A = satAdd 16 s.nv.railResets 1 ∧ t.pending = s.pending)) ∧
    (∀ mv : BitVec 16, s.e.live = true → Writes (.railFault 8 mv) s s.e [(0x420209, mv.toNat)]) ∧
    (∀ p, s.e.live = true → Writes (.aux5Overload p) s s.e [(0x42020B, ofBool p)]) ∧
    (s.serves 3 → Serves .lowestVinReset s [(0x420006, s.e.get 0x4200 1)])

/-- R344, R346, R361: a trigger no deeper than the stage in force leaves the stage; a deeper one brings every stage up to it; only the
deepest stage releases, and only when its conditions hold. A first VIN below 16 V is stage 1. Log entry 61: the model's reading. -/
def Obligations.SheddingStages : Prop :=
  ∀ (s : State) (vin iin : BitVec 16) (t0 : Trigger) (q : Power) (k : Fin 5), s.e.live = true →
    q = ((s.e.sampleInput vin.toNat iin.toNat).setTrigger t0 vin.toNat iin.toNat).pwr →
    (q.asked ≤ s.e.stage → Completes (.sheddingStageEntry t0 vin iin) s (fun t =>
      t.e.stage = s.e.stage ∧ t.e.get 0x4200 1 = vin.toNat ∧ t.e.get 0x4200 2 = iin.toNat ∧
      t.e.get 0x4200 3 = vin.toNat * iin.toNat / 1000 ∧ t.e.pwr = q ∧
      (∀ j, j / 256 ≠ 0x4200 → t.e.ent j = s.e.ent j))) ∧
    (s.e.stage < q.asked → Completes (.sheddingStageEntry t0 vin iin) s (fun t => ∃ e : Engine,
      t.e = (e.each ((List.range (q.asked - s.e.stage)).map (· + s.e.stage + 1)) Engine.enterStage).evalHolds ∧
      e.stage = q.asked ∧ e.get 0x4200 1 = vin.toNat ∧ e.pwr = q ∧ (∀ j, j / 256 ≠ 0x4200 → e.ent j = s.e.ent j))) ∧
    (t0 = .voltage → s.e.pwr.sag = 0 → s.e.pwr.current = false → s.e.pwr.pfail = 0 → s.e.pwr.dieHot = false →
      s.e.pwr.dieCrit = false → s.e.pwr.converter = false → s.e.stage = 0 → 13000 ≤ vin.toNat → vin.toNat < 16000 →
      Completes (.sheddingStageEntry t0 vin iin) s (fun t => ∃ e : Engine, t.e = ((e.raise 0x0D 1 1).shed 1).evalHolds ∧
        e.stage = 1 ∧ e.get 0x4200 5 = 1 ∧ e.get 0x4200 7 = satAdd (entBits 0x4200 7) (s.e.get 0x4200 7) 1)) ∧
    (s.e.stage ≠ k.val + 1 ∨ s.e.releases (k.val + 1) vin.toNat iin.toNat = false →
      Completes (.sheddingStageRelease k vin iin) s (fun t => t.e.stage = s.e.stage ∧ t.e.get 0x4200 1 = vin.toNat ∧
        t.e.pwr = s.e.pwr ∧ (∀ j, j / 256 ≠ 0x4200 → t.e.ent j = s.e.ent j))) ∧
    (s.e.stage = k.val + 1 → s.e.releases (k.val + 1) vin.toNat iin.toNat = true →
      Completes (.sheddingStageRelease k vin iin) s (fun t => ∃ e : Engine, t.e = e.reEval.evalHolds ∧ e.stage = k.val ∧
        e.pwr = s.e.pwr.clear (k.val + 1)))

/-- R351, R353, R354: with a blocking condition no idle state is entered; Dusk switches the loops off, deeper states stop PLL-A and
PLL-B, Night PLL-C; Dusk ends with the wake event, Twilight and Night with their exit once the PLLs lock.
Log entry 62: the model's reading. -/
def Obligations.IdleStates : Prop :=
  ∀ (s : State) (cause : Fin 8) (us : BitVec 32), s.e.live = true →
    (s.e.blockers ≠ 0 ∨ s.e.deepestIdle = 0 → Becomes .idleStateEntry s s.e) ∧
    (s.e.mode = .running → s.e.idle = 0 → s.e.blockers = 0 → s.e.deepestIdle = 1 → Completes .idleStateEntry s (fun t =>
      ∃ e : Engine, t.e = e.reEval.each (List.range 128) Engine.idleWarm ∧ e.idle = 1 ∧ e.pwr.idleAt = s.e.now ∧
        (∀ k, k ≠ 0x422001 → e.ent k = s.e.ent k))) ∧
    (s.e.mode = .running → s.e.idle = 0 → s.e.blockers = 0 → 2 ≤ s.e.deepestIdle → Completes .idleStateEntry s (fun t =>
      ∃ e : Engine, t.e = e.refreshSr ∧ e.idle = s.e.deepestIdle ∧ e.get 0x4281 1 = 0 ∧ e.get 0x4282 1 = 0 ∧
        (s.e.deepestIdle = 3 → e.get 0x4283 1 = 0 ∧ bit (e.get 0x4280 2) 5 = true) ∧
        (s.e.host.aspmL1 = true → e.host.inL1 = true))) ∧
    (s.e.idle = 0 → Becomes (.wakeEvent cause) s s.e) ∧
    (2 ≤ s.e.idle → Becomes (.wakeEvent 7) s s.e) ∧
    (s.e.idle = 1 → s.e.pwr.waking = false → Completes (.wakeEvent cause) s (fun t => ∃ e : Engine, t.e = e.reEval ∧ e.idle = 0 ∧
      e.get 0x4220 7 = cause.val + 1 ∧ e.get 0x4220 8 = (s.e.get 0x4220 8 + (s.e.now - s.e.pwr.idleAt) / 50000) % 2 ^ 64)) ∧
    (2 ≤ s.e.idle → s.e.pwr.waking = false → cause.val ≠ 7 → Completes (.wakeEvent cause) s (fun t =>
      t.e.pwr.waking = true ∧ t.e.idle = s.e.idle ∧ t.e.get 0x4220 7 = cause.val + 1 ∧
      (∀ x, x < 3 → s.e.get (0x4281 + x) 1 = 0 → t.e.get (0x4281 + x) 1 = 1 ∧ (t.e.pll x).searching = true))) ∧
    (s.e.pwr.waking = false ∨ s.e.pllsLocked = false → Becomes (.idleExitComplete us) s s.e) ∧
    (s.e.pwr.waking = true → s.e.pllsLocked = true → Completes (.idleExitComplete us) s (fun t => ∃ e : Engine,
      t.e = (e.each ((List.range 128).filter (fun h => decide (e.svc h ≤ 1))) Engine.readIdent).evalHolds ∧ e.idle = 0 ∧
      e.get 0x4220 6 = us.toNat ∧ e.pwr.waking = false)) ∧
    (∀ h : Fin 128, (s.e.head h.val).suspended ≠ 3 → Becomes (.headRealignTimeout h) s s.e) ∧
    (∀ h : Fin 128, (s.e.head h.val).suspended = 3 → s.e.get (0x2100 + h.val) 1 = 1 → s.e.svc h.val = 2 →
      Completes (.headRealignTimeout h) s (fun t => ∃ e : Engine, t.e = e.reEval ∧ e.get (0x2100 + h.val) 1 = 0 ∧
        (e.head h.val).suspended = 0))

/-- R355, R356, R358: a sensor outside −40 to 150 °C, or without a conversion, is excluded and raised; the first reading since Dawn is
the die temperature; thermal shutdown takes strobes, heaters and HV low, with FAULT_L, and logs nothing. -/
def Obligations.DieTemperature : Prop :=
  ∀ (s : State) (n : Fin 12) (x : Int),
    (∀ r, s.e.live = true → bit (s.e.get 0x4211 3) n.val = true → Becomes (.dieSensorSample n r) s s.e) ∧
    (s.e.live = true → bit (s.e.get 0x4211 3) n.val = false → x < -400 ∨ 1500 < x →
      Completes (.dieSensorSample n (some x)) s (fun t => ∃ e : Engine, t.e = (e.raise 0x0D 3 n.val).dieLimits ∧
        bit (e.get 0x4211 3) n.val = true ∧ (∀ k, k ≠ 0x421103 → e.ent k = s.e.ent k)) ∧
      exec (.dieSensorSample n none) s = exec (.dieSensorSample n (some x)) s) ∧
    (s.e.live = true → s.e.get 0x4211 3 = 0 → s.e.pwr.sampled = [] → -400 ≤ x → x ≤ 1500 →
      Completes (.dieSensorSample n (some x)) s (fun t => ∃ e : Engine, t.e = e.dieLimits ∧
        e.getI 16 0x4210 (n.val + 1) = x ∧ e.getI 16 0x4211 2 = x ∧ cellGet (fun _ => false) e.pwr.sampled n.val = true ∧
        e.flt = s.e.flt)) ∧
    (s.e.mode = .powerOnReset → Becomes .thermalShutdown s s.e) ∧
    (s.e.mode ≠ .powerOnReset → Completes .thermalShutdown s (fun t => t.e.mode = .shutdown ∧ t.e.ctl.hz = [] ∧ t.e.ctl.hv = [] ∧
      (∀ c, c < 4 → t.e.get (0x3200 + c) 8 = 0) ∧ (∀ h, h < 128 → (t.e.head h).strobeHigh = false) ∧
      t.e.flt.faultLPin = false ∧ t.e.flt.log = s.e.flt.log ∧ t.nv = s.nv))

/-! Fuses, life-cycle, the debug port -/

/-- R362, R365-R367: the sequencer's refusals write only the result; a program blows the bits of the data that are not blown yet, a
seal the check bits and the seal bit, a lock both for the region's lock word; a sealed word refuses both. No bit fails here.
Log entry 64: the model's reading. -/
def Obligations.FuseCommands : Prop :=
  ∀ (s : State) (sup : Bool) (w r d : Nat), s.serves 3 → w = s.e.get 0x4302 1 → d = s.e.get 0x4302 2 → r = s.e.get 0x4302 4 →
    (sequencerRefuses s.nv s.e (regionOf w) sup ≠ 0 → ∀ fails,
      Answers (.fuseProgram sup fails) s 0x08000022 [(0x430205, sequencerRefuses s.nv s.e (regionOf w) sup)] ∧
      Answers (.fuseSeal sup fails) s 0x08000022 [(0x430205, sequencerRefuses s.nv s.e (regionOf w) sup)]) ∧
    (sequencerRefuses s.nv s.e (regionOf w) sup = 0 → ∀ fails,
      (bit (s.nv.fuse w) 32 = true → Answers (.fuseProgram sup fails) s 0x06090030 [(0x430205, 2)] ∧
        Answers (.fuseSeal sup fails) s 0x06090030 [(0x430205, 2)]) ∧
      (bit (s.nv.fuse w) 32 = false → (s.nv.fuse w % 2 ^ 32 &&& d) ≠ s.nv.fuse w % 2 ^ 32 →
        Answers (.fuseProgram sup fails) s 0x06090030 [(0x430205, 3)])) ∧
    (sequencerRefuses s.nv s.e (regionOf w) sup = 0 → bit (s.nv.fuse w) 32 = false →
      ((s.nv.fuse w % 2 ^ 32 &&& d) = s.nv.fuse w % 2 ^ 32 → Completes (.fuseProgram sup []) s (fun t =>
        (∀ i, i < 32 → bit (t.nv.fuse w) i = bit d i) ∧ (∀ j, j ≠ w → t.nv.fuse j = s.nv.fuse j) ∧ t.e.get 0x4302 5 = 1 ∧
        t.e.sdo = 0 ∧ (∀ k, k ≠ 0x430205 → t.e.ent k = s.e.ent k))) ∧
      ((s.nv.fuse w &&& sealedWord (s.nv.fuse w)) = s.nv.fuse w → Completes (.fuseSeal sup []) s (fun t =>
        (∀ i, i < 40 → bit (t.nv.fuse w) i = bit (sealedWord (s.nv.fuse w)) i) ∧ (∀ j, j ≠ w → t.nv.fuse j = s.nv.fuse j) ∧
        t.e.get 0x4302 5 = 1 ∧ t.e.sdo = 0))) ∧
    (sequencerRefuses s.nv s.e r sup = 0 →
      ((∃ j, (regionWords r).1 ≤ j ∧ j ≤ (regionWords r).2 ∧ bit (s.nv.fuse j) 32 = false) → ∀ fails,
        Answers (.fuseLock sup fails) s 0x06090030 [(0x430205, 7)]) ∧
      ((∀ j, (regionWords r).1 ≤ j → j ≤ (regionWords r).2 → bit (s.nv.fuse j) 32 = true ∧ (fuseDecode (s.nv.fuse j)).bad = false ∧
          (fuseDecode (s.nv.fuse j)).sealed = true) → s.nv.fuse (503 + r) = 0 → r ≤ 8 →
        Completes (.fuseLock sup []) s (fun t =>
          (∀ i, i < 40 → bit (t.nv.fuse (503 + r)) i = bit (sealedWord (lockPattern r)) i) ∧
          (∀ j, j ≠ 503 + r → t.nv.fuse j = s.nv.fuse j) ∧ t.e.get 0x4302 5 = 1 ∧ t.e.sdo = 0)))

/-- R372, R373, R371: a transition that is allowed seals its life-cycle word and begins Dawn, a refused one writes its result; a
revocation whose object is good seals the slot's word, and every evaluation changes the nonce; the debug port answers by
life-cycle state. Log entry 65: the model's reading. -/
def Obligations.LifeCycle : Prop :=
  ∀ (s : State) (k : Byte) (sup : Bool) (a : Nat), s.serves 3 → a = le ((s.e.dom 0x4310 3 |>.drop 4).take 1) →
    (k.toNat = 0 ∨ 4 < k.toNat → Refuses (.lifecycleTransition k sup) s 0x06090030) ∧
    (∀ r, 1 ≤ k.toNat → k.toNat ≤ 4 → s.e.transitionResult k.toNat sup = (r, false) → r ≠ 1 →
      Answers (.lifecycleTransition k sup) s (if r = 4 ∨ r = 5 then 0x06090030 else 0x08000022) [(0x431005, r)]) ∧
    (1 ≤ k.toNat → k.toNat ≤ 4 → (s.e.transitionResult k.toNat sup).1 = 1 → s.nv.fuse (k.toNat - 1) = 0 →
      Completes (.lifecycleTransition k sup) s (fun t =>
        (∀ i, i < 40 → bit (t.nv.fuse (k.toNat - 1)) i = bit (sealedWord (cyclePattern k.toNat)) i) ∧
        (∀ j, j ≠ k.toNat - 1 → t.nv.fuse j = s.nv.fuse j) ∧ t.e.mode = .dawn ∧ t.e.get 0x4320 3 = 4 ∧ t.e.get 0x2001 1 = 1 ∧
        t.pending = s.pending)) ∧
    (s.e.jobState ≠ 0 ∨ s.e.fuseSupply sup = false → Refuses (.keyRevoke sup) s 0x08000022) ∧
    (s.e.jobState = 0 → s.e.fuseSupply sup = true → s.e.get 0x4300 1 = 2 → s.e.get 0x4310 4 < 2 ^ 32 →
      (a ≠ 2 → a ≠ 3 → Completes (.keyRevoke sup) s (fun t => t.e.sdo = 0x06090030 ∧
        t.e.get 0x4310 4 ≠ s.e.get 0x4310 4 ∧ t.nv = s.nv ∧ (∀ j, j ≠ 0x431004 → t.e.ent j = s.e.ent j))) ∧
      (a = 2 ∨ a = 3 → s.e.authorised a = true → s.nv.fuse (2 + a) = 0 → Completes (.keyRevoke sup) s (fun t =>
        (∀ i, i < 40 → bit (t.nv.fuse (2 + a)) i = bit (sealedWord (revokePattern (a - 2))) i) ∧
        (∀ j, j ≠ 2 + a → t.nv.fuse j = s.nv.fuse j) ∧ t.e.sdo = 0 ∧ t.e.get 0x4310 4 ≠ s.e.get 0x4310 4))) ∧
    (∀ x, s.e.dawnStep < 2 → Becomes (.debugPortAccess x) s s.e) ∧
    (2 ≤ s.e.dawnStep →
      Becomes (.debugPortAccess .identity) s
        (s.e.send (.debug (toLe 8 (s.e.get 0x2000 2) ++ toLe 2 (s.e.get 0x2000 3) ++ toLe 1 (s.e.get 0x4300 1)))) ∧
      (∀ p, s.e.get 0x4300 1 = 1 ∨ s.e.get 0x4300 1 = 3 →
        Becomes (.debugPortAccess (.core p)) s (s.e.send (.debug (toLe 1 p.val)))) ∧
      (s.e.get 0x4300 1 = 2 → ∀ p w dat, Becomes (.debugPortAccess (.core p)) s s.e ∧
        Becomes (.debugPortAccess (.fuseProgram w dat)) s s.e ∧ Becomes (.debugPortAccess (.fuseSeal w)) s s.e) ∧
      (s.e.mode = .debugWait → s.e.fuseSupply true = true → s.nv.fuse 0 = 0 → Completes (.debugPortAccess .toDevelop) s (fun t =>
        (∀ i, i < 40 → bit (t.nv.fuse 0) i = bit (sealedWord 0x4C430001) i) ∧ t.e.mode = .dawn ∧ t.e.get 0x4320 3 = 4)))

/-! Dawn -/

/-- R377, R368-R370, R295, R376: each step runs only when it is next. Fuses that give no life-cycle state, or a failed critical word,
hold the engine in reset; a VOID engine stops after its wipe; without a bootable image Dawn stops.
Log entry 66: the model's reading. -/
def Says.DawnFirstSteps : Prop :=
  ∀ (s : State) (weak : List (Nat × Nat)) (rs : List (Nat × FuseRead)) (e0 : Engine), s.e.live = true → s.e.mode = .dawn →
    rs = readFuses s.nv weak → e0 = { s.e with dawn.read := rs.filter (fun p => decide (p.2 ≠ {})) } →
    (s.e.get 0x2001 1 ≠ 1 → Becomes (.dawnFuseRead weak) s s.e) ∧
    (s.e.get 0x2001 1 = 1 → e0.lifeCycle = none → Becomes (.dawnFuseRead weak) s { e0 with mode := .held 1 }) ∧
    (∀ k, s.e.get 0x2001 1 = 1 → e0.lifeCycle = some k → rs.any (fun p => p.2.failed && criticalWord p.1) = true →
      Becomes (.dawnFuseRead weak) s { e0 with mode := .held 1 }) ∧
    (∀ k, s.e.get 0x2001 1 = 1 → e0.lifeCycle = some k → rs.any (fun p => p.2.failed && criticalWord p.1) = false →
      Completes (.dawnFuseRead weak) s (fun t => t.e.get 0x2001 1 = 2 ∧ t.e.get 0x4300 1 = k ∧ t.e.dawn.read = e0.dawn.read ∧
        t.e.mode = .dawn ∧ t.nv = s.nv)) ∧
    (s.e.get 0x2001 1 ≠ 2 → Becomes .dawnWipe s s.e) ∧
    (s.e.get 0x2001 1 = 2 → s.e.dawn.noticesDue = [] → s.e.get 0x4300 1 = 4 →
      Completes .dawnWipe s (fun t => t.e.mode = .held 2 ∧ t.e.get 0x2001 1 = 3)) ∧
    (s.e.get 0x2001 1 = 2 → s.e.dawn.noticesDue = [] → s.e.get 0x4300 1 ≠ 4 →
      Completes .dawnWipe s (fun t => t.e.mode = .dawn ∧ t.e.get 0x2001 1 = 3 ∧
        (∀ x, x < 3 → t.e.get (0x4281 + x) 1 = 1 ∧ (t.e.pll x).searching = true))) ∧
    (s.e.get 0x2001 1 = 4 → s.nv.header = false → Completes .dawnBootRom s (fun t => t.e.mode = .held 6)) ∧
    (s.e.get 0x2001 1 = 4 → s.nv.header = true → (∃ p, p < 4 ∧ (bootChoice s.nv s.e p).ok = false) →
      Completes .dawnBootRom s (fun t => t.e.mode = .held 4)) ∧
    (s.e.get 0x2001 1 = 4 → s.nv.header = true → (∀ p, p < 4 → (bootChoice s.nv s.e p).ok = true) → s.nv.copies = [] →
      s.nv.records = [] →
      Completes .dawnBootRom s (fun t => t.e.get 0x2001 1 = 5 ∧ t.e.mode = .dawn ∧ t.e.net.nodeId = s.e.get 0x5000 1 ∧
        (∀ p, p < 4 → t.e.get (0x4400 + p) 1 = (bootChoice s.nv s.e p).slot ∧
          t.e.get (0x4400 + p) 6 = (bootChoice s.nv s.e p).count ∧
          t.e.get (0x4400 + p) 2 = imageVersion (s.nv.image p (bootChoice s.nv s.e p).slot))))

/-- R280, R287, R377, R387, R209, R409: training leaves the channels that train active and every line UNWRITTEN; the partitions come
up; peer discovery resets communication and scans; head discovery leaves the heads without a receiver absent.
Log entry 66: the model's reading. -/
def Says.DawnLastSteps : Prop :=
  ∀ (s : State) (tr : BitVec 4), s.e.live = true → s.e.mode = .dawn →
    (s.e.get 0x2001 1 ≠ 5 → Becomes (.dawnDramTraining tr) s s.e) ∧
    (s.e.get 0x2001 1 = 5 → (∀ c, c < 4 → s.e.get (0x4010 + c) 1 ≠ 4 ∧
        (bit (s.e.get 0x4000 7) c = true → bit tr.toNat c = true)) → (∃ c, c < 4 ∧ bit (s.e.get 0x4000 7) c = true) →
      Completes (.dawnDramTraining tr) s (fun t => t.e.get 0x2001 1 = 6 ∧ t.e.get 0x4001 1 = 0 ∧ t.e.get 0x4001 5 = 0 ∧
        t.e.mem.written = [] ∧ t.e.mem.trained = true ∧ t.e.mem.ranks = s.e.get 0x4000 3 ∧
        (∀ c, c < 4 → bit (s.e.get 0x4000 7) c = true → t.e.get (0x4010 + c) 1 = 1 ∧ (t.e.chan c).up = true))) ∧
    (s.e.get 0x2001 1 = 5 → (∀ c, c < 4 → s.e.get (0x4010 + c) 1 ≠ 4) → tr.toNat = 0 →
      Raises (.dawnDramTraining tr) s (fun e => e.get 0x2001 1 = 5 ∧
        (∀ c, c < 4 → bit (s.e.get 0x4000 7) c = true → e.get (0x4010 + c) 1 = 4)) 9 4 0) ∧
    (s.e.get 0x2001 1 ≠ 6 → Becomes .dawnPartitionStart s s.e) ∧
    (s.e.get 0x2001 1 = 6 → s.e.dawn.fallbackDue = [] → s.nv.copies = [] → Completes .dawnPartitionStart s (fun t =>
      t.e.get 0x2001 1 = 7 ∧ t.e.get 0x2003 2 = 0 ∧ t.e.get 0x2003 3 = 0xff ∧ (∀ p, p < 4 → bit t.e.dawn.partUp p = true) ∧
      t.nv = s.nv)) ∧
    (s.e.get 0x2001 1 ≠ 7 → Becomes .dawnPeerDiscovery s s.e ∧ Becomes .dawnDiscoveryTimeout s s.e) ∧
    (s.e.get 0x2001 1 = 7 → s.e.dawn.discovery = false → Completes .dawnPeerDiscovery s (fun t => ∃ e : Engine,
      t.e = e.discovered ∧ e.dawn.discovery = true ∧ (∀ p, p ∈ s.e.managed → cellGet (fun _ => false) e.net.scan p = true ∧
        .can p 0 (toLe 1 0x82 ++ toLe 1 0) ∈ e.out))) ∧
    (s.e.get 0x2001 1 = 7 → s.e.dawn.discovery = true → Completes .dawnDiscoveryTimeout s (fun t =>
      t.e.get 0x2001 1 = 8 ∧ t.e.dawn.discovery = false ∧ (∀ k, k ≠ 0x200101 → t.e.ent k = s.e.ent k))) ∧
    (s.e.get 0x2001 1 ≠ 8 → Becomes .dawnHeadDiscovery s s.e) ∧
    (s.e.get 0x2001 1 = 8 → Completes .dawnHeadDiscovery s (fun t => ∃ e : Engine, t.e = e.dawnEnds ∧ e.get 0x2001 1 = 9 ∧
      (∀ h, h < 128 → e.svc h = if s.e.rxUp h then 5 else 6)))

/-- The steps of Dawn. -/
def Obligations.DawnSteps : Prop := Says.DawnFirstSteps ∧ Says.DawnLastSteps

/-! The field network -/

/-- R387, R388: Fastscan gives a node that a profile expects its node-ID and configures it, lists one that none expects, and ends
when no node replies; the identify timer asks for non-configured nodes on each managed port. Log entry 14: the model's reading. -/
def Says.NetworkScan : Prop :=
  ∀ (s : State) (p : Nat) (b : Bool), s.e.live = true → p = ofBool b →
    (∀ found, cellGet (fun _ => false) s.e.net.scan p = false ∨ s.e.serving 2 = false → Becomes (.lssFastscanStep b found) s s.e) ∧
    (cellGet (fun _ => false) s.e.net.scan p = true → s.e.serving 2 = true →
      Completes (.lssFastscanStep b none) s (fun t => cellGet (fun _ => false) t.e.net.scan p = false ∧
        (∀ j, j ≠ p → cellGet (fun _ => false) t.e.net.scan j = cellGet (fun _ => false) s.e.net.scan j) ∧
        t = { s with e := { s.e with net.scan := t.e.net.scan } }) ∧
      (∀ (a : BitVec 128) i, s.e.profiles = [i] → s.e.net.portB = 0 → s.e.get (0x5000 + i) 2 = 0 →
        s.e.expects i [a.toNat % 2 ^ 32, a.toNat / 2 ^ 32 % 2 ^ 32, a.toNat / 2 ^ 64 % 2 ^ 32, a.toNat / 2 ^ 96] = true →
        Completes (.lssFastscanStep b (some a)) s (fun t => ∃ e : Engine, t.e = (e.startConfig i).startScan p ∧
          e = s.e.send (.can p 0x7E5 (toLe 1 0x11 ++ toLe 1 i)))) ∧
      (∀ a : BitVec 128, s.e.profiles = [] → (s.e.dom 0x5000 0x0B).length < 512 →
        Completes (.lssFastscanStep b (some a)) s (fun t => ∃ e : Engine, t.e = (e.raise 0x0F 2 0).startScan p ∧
          e = s.e.setDom 0x5000 0x0B (s.e.dom 0x5000 0x0B ++ toLe 16 a.toNat)))) ∧
    (∀ r, s.e.get 0x2001 1 < 8 ∨ s.e.serving 2 = false → Becomes (.lssIdentifyTimer r) s s.e) ∧
    (8 ≤ s.e.get 0x2001 1 → s.e.serving 2 = true →
      Completes (.lssIdentifyTimer false) s (fun t =>
        (∀ q, q ∈ s.e.managed → .can q 0x7E5 (toLe 1 0x4C ++ List.replicate 7 0) ∈ t.e.out) ∧
        t = { s with e := { s.e with out := t.e.out } }) ∧
      Completes (.lssIdentifyTimer true) s (fun t => ∀ q, q ∈ s.e.managed →
        .can q 0x7E5 (toLe 1 0x4C ++ List.replicate 7 0) ∈ t.e.out ∧ cellGet (fun _ => false) t.e.net.scan q = true))

/-- R388, R389: a configuration reads the identity, step by step; an abort or a second timeout fails it with its code; a mismatched
identity stops it; its last answer brings the peer to Standby. The commands of a peer act in Failed and Mismatched.
Log entry 70: the model's reading. -/
def Says.PeerConfiguration : Prop :=
  ∀ (s : State) (n : Fin 128) (i : Nat) (x : Peer), s.serves 2 → i = 0x5000 + n.val → x = s.e.peer n.val →
    (∀ d a, s.e.get i 2 ≠ 1 ∨ x.cfgStep = 0 → Becomes (.usdoClientResponse n d a) s s.e ∧ Becomes (.usdoClientTimeout n) s s.e) ∧
    (s.e.get i 2 = 1 → 1 ≤ x.cfgStep →
      (∀ d (a : BitVec 32), a.toNat ≠ 0 → Completes (.usdoClientResponse n d a) s (fun t => ∃ e : Engine,
        t.e = (e.raise 0x0F 2 n.val).discovered ∧ e.get i 2 = 5 ∧ e.get i 0x14 = a.toNat ∧
        e.get i 0x13 = satAdd (entBits i 0x13) (s.e.get i 0x13) 1 ∧ (e.peer n.val).cfgStep = 0)) ∧
      (x.cfgStep < 4 → ∀ d : List Byte, Completes (.usdoClientResponse n d 0) s (fun t =>
        t.e.peer n.val = { x with cfgStep := x.cfgStep + 1, retried := false, idRead := x.idRead ++ [le (d.take 4)] } ∧
        t.e.out = .can (s.e.peerPort n.val) (0x600 + n.val) (toLe 1 1 ++ toLe 2 0x1018 ++ toLe 1 (x.cfgStep + 1) ++ []) :: s.e.out ∧
        (∀ j, j ≠ n.val → t.e.peer j = s.e.peer j) ∧
        t = { s with e := { s.e with net.peers := t.e.net.peers, out := t.e.out } })) ∧
      (x.cfgStep = 4 → ∀ d : List Byte, s.e.expects n.val (x.idRead ++ [le (d.take 4)]) = false →
        Completes (.usdoClientResponse n d 0) s (fun t => t.e.get i 2 = 6 ∧ (t.e.peer n.val).cfgStep = 0 ∧
          t.e.dom i 0x0E = (x.idRead ++ [le (d.take 4)]).flatMap (toLe 4) ∧ (∀ k, k ≠ ekey i 2 → t.e.ent k = s.e.ent k))) ∧
      (x.cfgStep = 6 → s.e.jobState = 1 → ∀ d, Completes (.usdoClientResponse n d 0) s (fun t => ∃ e : Engine, t.e = e.discovered ∧
        e.get i 2 = 2 ∧ e.peer n.val = { x with cfgStep := 0, armed := true } ∧
        e.out = .can (s.e.peerPort n.val) 0 (toLe 1 1 ++ toLe 1 n.val) :: s.e.out)) ∧
      (x.retried = false → x.cfgStep ≤ 4 → Completes (.usdoClientTimeout n) s (fun t =>
        t.e.peer n.val = { x with retried := true } ∧
        t.e.out = .can (s.e.peerPort n.val) (0x600 + n.val) (toLe 1 1 ++ toLe 2 0x1018 ++ toLe 1 x.cfgStep ++ []) :: s.e.out)) ∧
      (x.retried = true → Completes (.usdoClientTimeout n) s (fun t => ∃ e : Engine,
        t.e = (e.raise 0x0F 2 n.val).discovered ∧ e.get i 2 = 5 ∧ e.get i 0x14 = 0x05040000))) ∧
    (s.e.peerOn n.val = false ∨ s.e.get i 2 ≠ 5 → Refuses (.peerReconfigure n) s 0x08000022) ∧
    (s.e.jobState = 0 → s.e.peerOn n.val = true → s.e.get i 2 = 5 → Completes (.peerReconfigure n) s (fun t =>
      t.e.get i 2 = 1 ∧ (t.e.peer n.val).cfgStep = 1 ∧ (t.e.peer n.val).idRead = [] ∧ t.e.sdo = 0 ∧
      (∀ k, k ≠ ekey i 2 → k ≠ ekey i 0x15 → t.e.ent k = s.e.ent k))) ∧
    (s.e.peerOn n.val = false ∨ s.e.get i 2 ≠ 6 →
      Refuses (.peerAcceptIdentity n) s 0x08000022 ∧ Refuses (.peerForget n) s 0x08000022) ∧
    (s.e.peerOn n.val = true → s.e.get i 2 = 6 → Serves (.peerForget n) s [(ekey i 2, 0)] ∧
      Completes (.peerAcceptIdentity n) s (fun t => (∀ k, k < 4 → t.e.get i (3 + k) = x.idRead.getD k 0) ∧ t.e.get i 2 = 1 ∧
        (t.e.peer n.val).cfgStep = 1 ∧ t.e.sdo = 0))

/-- Peers found, identified and configured. -/
def Obligations.PeersFoundAndConfigured : Prop := Says.NetworkScan ∧ Says.PeerConfiguration

/-- R383, R389, R390, R393, R382: heartbeats arm and restart the consumer timer, and configure a peer that was absent; a boot-up
configures again, after the loss of one in use; a timer that expires loses the peer; EMCYs and NMT commands are taken in.
Log entry 70: the model's reading. -/
def Obligations.PeerPresence : Prop :=
  ∀ (s : State) (n : Fin 128) (i : Nat) (x : Peer), s.serves 2 → s.e.idle = 0 → i = 0x5000 + n.val → x = s.e.peer n.val →
    (s.e.peerOn n.val = false → (∀ m, Becomes (.heartbeatReceived n m) s s.e) ∧ Becomes (.bootupReceived n) s s.e ∧
      Becomes (.heartbeatLoss n) s s.e ∧ ∀ c d, Becomes (.emcyReceived n c d) s s.e) ∧
    (s.e.peerOn n.val = true →
      (∀ m : Byte, s.e.get i 2 = 1 ∨ s.e.get i 2 = 2 → Completes (.heartbeatReceived n m) s (fun t =>
        t.e.peer n.val = { x with nmt := m.toNat, armed := true } ∧ (∀ j, j ≠ n.val → t.e.peer j = s.e.peer j) ∧
        t = { s with e := { s.e with net.peers := t.e.net.peers } })) ∧
      (∀ m : Byte, s.e.get i 2 = 0 ∨ s.e.get i 2 = 4 → Completes (.heartbeatReceived n m) s (fun t =>
        t.e.get i 2 = 1 ∧ (t.e.peer n.val).nmt = m.toNat ∧ (t.e.peer n.val).armed = true ∧ (t.e.peer n.val).cfgStep = 1)) ∧
      (s.e.get i 2 = 0 ∨ s.e.get i 2 = 1 ∨ s.e.get i 2 = 4 ∨ s.e.get i 2 = 5 → Completes (.bootupReceived n) s (fun t =>
        t.e.get i 2 = 1 ∧ t.e.get i 0x15 = 1 ∧ (t.e.peer n.val).cfgStep = 1 ∧
        (∀ k, k ≠ ekey i 2 → k ≠ ekey i 0x15 → t.e.ent k = s.e.ent k))) ∧
      (s.e.get i 2 = 2 ∨ s.e.get i 2 = 3 → Completes (.bootupReceived n) s (fun t => ∃ e : Engine,
        t.e = (e.raise 0x0F 1 n.val).startConfig n.val ∧ e.get i 2 = 4 ∧ e.get i 0x15 = 1 ∧
        e.get i 0x11 = satAdd (entBits i 0x11) (s.e.get i 0x11) 1)) ∧
      (x.armed = false → Becomes (.heartbeatLoss n) s s.e) ∧
      (x.armed = true → 1 ≤ s.e.get i 2 → s.e.get i 2 ≤ 3 → Raises (.heartbeatLoss n) s (fun e => e.get i 2 = 4 ∧
        e.get i 0x15 = 1 ∧ e.get i 0x11 = satAdd (entBits i 0x11) (s.e.get i 0x11) 1 ∧ (e.peer n.val).armed = false) 0x0F 1 n.val) ∧
      (∀ (c : BitVec 16) (d : BitVec 64), Raises (.emcyReceived n c d) s (fun e => e.get i 0x12 = d.toNat ∧
        (∀ k, k ≠ ekey i 0x12 → e.ent k = s.e.ent k)) 0x0F 3 (n.val * 2 ^ 32 + c.toNat))) ∧
    (s.e.get 0x2001 1 < 7 → Becomes .heartbeatProduce s s.e) ∧
    (7 ≤ s.e.get 0x2001 1 → s.e.net.portB ≠ 2 → Becomes .heartbeatProduce s (s.e.send (.can 0 (0x700 + s.e.net.nodeId) [5]))) ∧
    (7 ≤ s.e.get 0x2001 1 → s.e.net.portB = 2 → Becomes .heartbeatProduce s
      ((s.e.send (.can 0 (0x700 + s.e.net.nodeId) [5])).send (.can 1 (0x700 + s.e.net.nodeId) [5]))) ∧
    (∀ c d, Writes (.nmtCommandReceived c d) s s.e [(0x500008, satAdd (entBits 0x5000 8) (s.e.get 0x5000 8) 1)])

/-- R412, R381: an asynchronous RPDO gives its peer's value at once, a synchronous one waits for SYNC; the producer sends SYNC with its
counter; an event-driven TPDO goes when its timer expires; bus-off is counted by port, and a redundant pair changes over.
Log entries 14, 70: the model's readings. -/
def Obligations.ProcessData : Prop :=
  ∀ (s : State) (n : Fin 16) (data : List Byte), s.serves 2 → s.e.idle = 0 →
    (s.e.pdoValid (0x1400 + n.val) = false → Becomes (.rpdoReceived n data) s s.e) ∧
    (s.e.pdoValid (0x1400 + n.val) = true → s.e.get (0x1400 + n.val) 2 ≤ 240 → Completes (.rpdoReceived n data) s (fun t =>
      cellFind n.val t.e.net.rpdoSync = some data ∧ t = { s with e := { s.e with net.rpdoSync := t.e.net.rpdoSync } })) ∧
    (∀ i sub, s.e.pdoValid (0x1400 + n.val) = true → 240 < s.e.get (0x1400 + n.val) 2 →
      s.e.mapped (0x1600 + n.val) = [(0x5000 + i, sub, 4)] → 1 ≤ i → i < 128 → 0x20 ≤ sub → sub < 0x30 →
      s.e.get (0x5000 + i) 2 = 3 → data.length = 4 → Completes (.rpdoReceived n data) s (fun t => ∃ e : Engine, t.e = e.evalHolds ∧
        e.get (0x5000 + i) sub = le data ∧ e.get (0x5000 + i) 0x15 = 0 ∧
        cellFind (sub - 0x1F) (e.peer i).arrived = some s.e.now ∧
        (∀ k, k ≠ ekey (0x5000 + i) sub → k ≠ ekey (0x5000 + i) 0x15 → e.ent k = s.e.ent k))) ∧
    (∀ c, bit (s.e.get 0x1005 0) 30 = true → s.e.get 0x1006 0 = 0 → Becomes (.syncPeriod c) s s.e) ∧
    ((∀ m, m < 16 → s.e.tpdoOn m = false) → s.e.net.rpdoSync = [] →
      (∀ c : Byte, bit (s.e.get 0x1005 0) 30 = false → Becomes (.syncPeriod c) s { s.e with net.syncCount := c.toNat }) ∧
      (∀ (c : Byte) (k : Nat), bit (s.e.get 0x1005 0) 30 = true → s.e.get 0x1006 0 ≠ 0 → s.e.get 0x1019 0 ≠ 0 → s.e.net.portB = 0 →
        k = (if s.e.net.syncCount < s.e.get 0x1019 0 then s.e.net.syncCount + 1 else 1) →
        Becomes (.syncPeriod c) s { s.e.send (.can 0 (s.e.get 0x1005 0 % 2048) (toLe 1 k)) with net.syncCount := k })) ∧
    (∀ tm : BitVec 16, (∀ m, m < 16 → s.e.tpdoOn m = false) → Becomes (.tpdoEventCheck tm) s s.e) ∧
    (∀ tm : BitVec 16, s.e.tpdoOn n.val = true → (∀ m, m < 16 → m ≠ n.val → s.e.tpdoOn m = false) →
      254 ≤ s.e.get (0x1800 + n.val) 2 → bit tm.toNat n.val = true → s.e.get (0x1800 + n.val) 5 ≠ 0 →
      Completes (.tpdoEventCheck tm) s (fun t =>
        t.e.out = .can (s.e.get 0x5000 0x0D) (s.e.get (0x1800 + n.val) 1 % 2048) (s.e.tpdoBytes n.val) :: s.e.out ∧
        t.e.tpdo n.val = { last := s.e.tpdoBytes n.val, sentAt := some s.e.now, syncs := 0 } ∧
        t = { s with e := { s.e with net.tpdos := t.e.net.tpdos, out := t.e.out } })) ∧
    (s.e.net.portB = 0 → Becomes (.canBusOff true) s s.e ∧ Becomes .activePortSilence s s.e) ∧
    (s.e.net.portB ≠ 2 → Writes (.canBusOff false) s s.e
      [(0x500006, s.e.get 0x5000 6 / 65536 * 65536 + satAdd 16 (s.e.get 0x5000 6 % 65536) 1)]) ∧
    (s.e.net.portB = 2 → Writes .activePortSilence s s.e
      [(0x50000D, 1 - s.e.get 0x5000 0x0D), (0x500007, satAdd (entBits 0x5000 7) (s.e.get 0x5000 7) 1)]) ∧
    (s.e.net.portB = 2 → s.e.get 0x5000 0x0D = 1 → Writes (.canBusOff true) s s.e
      [(0x500006, s.e.get 0x5000 6 % 65536 + satAdd 16 (s.e.get 0x5000 6 / 65536) 1 * 65536), (0x50000D, 0),
        (0x500007, satAdd (entBits 0x5000 7) (s.e.get 0x5000 7) 1)])

/-! The dictionary -/

/-- R399, R400, R47: a write is refused with the code of the first check it fails; a plain entry of partition 0 takes its value when
answered; a staged one is held outside Idle and leaves the value in force. Log entries 16, 17: the model's readings. -/
def Says.DictionaryWrites : Prop :=
  ∀ (s : State) (x : BitVec 16) (y : Byte) (data : List Byte) (idx sub : Nat), s.e.live = true → idx = x.toNat → sub = y.toNat →
    (indexExists idx = false → Refuses (.dictionaryWrite x y data) s 0x06020000) ∧
    (indexExists idx = true → dictRow idx sub = none → Refuses (.dictionaryWrite x y data) s 0x06090011) ∧
    (∀ d, indexExists idx = true → dictRow idx sub = some d →
      (d.acc = .ro ∨ d.acc = .const → Refuses (.dictionaryWrite x y data) s 0x06010002) ∧
      ((d.acc = .rw ∨ d.acc = .wo) → clockEnable idx sub = false → d.ty.numeric = true → data.length ≠ d.ty.bytes →
        Refuses (.dictionaryWrite x y data) s 0x06070010) ∧
      ((d.acc = .rw ∨ d.acc = .wo) → clockEnable idx sub = false → d.ty.numeric = true → data.length = d.ty.bytes →
        (s.e.serving (owner idx) = false → Refuses (.dictionaryWrite x y data) s 0x08000022) ∧
        (s.e.serving 0 = true → 0x2100 ≤ idx → idx < 0x2800 → s.e.command idx sub (le data) data = none →
          (s.e.entryState d idx sub (le data) = false → Refuses (.dictionaryWrite x y data) s 0x08000022) ∧
          (s.e.entryState d idx sub (le data) = true → s.e.valueCode d idx sub (le data) ≠ 0 →
            Refuses (.dictionaryWrite x y data) s (s.e.valueCode d idx sub (le data))) ∧
          (s.e.entryState d idx sub (le data) = true → s.e.valueCode d idx sub (le data) = 0 →
            (d.cls = .now → Serves (.dictionaryWrite x y data) s [(ekey idx sub, le data)]) ∧
            (d.cls = .staged → s.e.jobState ≠ 0 → Becomes (.dictionaryWrite x y data) s
              { s.e with d.staged := cellSet (fun _ => none) s.e.d.staged (ekey idx sub) (some (le data)), sdo := 0,
                         sdoData := [] })))))

/-- R406-R408, R411: a request by USDO is counted and answered on the active port; a store or restore writes the copy not in use and
makes it current, a failed one leaves it invalid; its signature and group are checked; the error list clears with 0.
Log entry 68: the model's reading. -/
def Says.DictionaryStoreAndUsdo : Prop :=
  ∀ (s : State) (op g : Byte) (x : BitVec 16) (y : Byte) (data : List Byte) (r : Engine) (k : Nat), s.serves 2 → s.e.idle = 0 →
    r = Engine.serveRead (s.e.wrap 0x2003 9 1) x.toNat y.toNat → k = (if s.nv.currentCopy = some 0 then 1 else 0) →
    (s.e.usdoSilent x.toNat = true → Becomes (.usdoRequest op x y data) s s.e) ∧
    (s.e.usdoSilent x.toNat = false → op.toNat ≠ 2 → 7 ≤ r.dawnStep → Becomes (.usdoRequest op x y data) s
      (r.send (.can (r.get 0x5000 0x0D) (0x580 + r.net.nodeId)
        (toLe 1 op.toNat ++ toLe 2 x.toNat ++ toLe 1 y.toNat ++ toLe 4 r.sdo ++ r.sdoData)))) ∧
    (s.e.usdoSilent x.toNat = false → op.toNat = 2 → s.e.writeCode x.toNat y.toNat data.length ≠ 0 →
      Completes (.usdoRequest op x y data) s (fun t =>
        t.e.out = .can (s.e.get 0x5000 0x0D) (0x580 + s.e.net.nodeId) (toLe 1 2 ++ toLe 2 x.toNat ++ toLe 1 y.toNat ++
          toLe 4 (s.e.writeCode x.toNat y.toNat data.length) ++ []) :: s.e.out ∧
        t.e.get 0x2003 9 = wrapAdd (entBits 0x2003 9) (s.e.get 0x2003 9) 1 ∧ (∀ j, j ≠ 0x200309 → t.e.ent j = s.e.ent j))) ∧
    (∀ v ok, g.toNat = 0 ∨ 3 < g.toNat →
      Refuses (.dictionaryStore g v ok) s 0x06090011 ∧ Refuses (.dictionaryRestore g v ok) s 0x06090011) ∧
    (1 ≤ g.toNat → g.toNat ≤ 3 → (∀ p, p < 4 → s.e.get (0x4400 + p) 4 ≠ 2) → s.e.integ.flashDue = [] → s.e.stage < 4 →
      (∀ (v : BitVec 32) ok, v.toNat ≠ 0x65766173 → Refuses (.dictionaryStore g v ok) s 0x08000020) ∧
      (∀ (v : BitVec 32) ok, v.toNat ≠ 0x64616F6C → Refuses (.dictionaryRestore g v ok) s 0x08000020) ∧
      (∀ q bs, newCopy true g.toNat s.nv s.e = (q, bs) → bs.length ≤ 2 ^ 20 →
        Completes (.dictionaryStore g 0x65766173 true) s (fun t =>
          t.nv = { s.nv with copies := cellSet (fun _ => []) s.nv.copies k bs } ∧ t.e.get 0x2003 2 = q ∧ t.e.get 0x2003 3 = k ∧
          t.e.get 0x2003 6 = satAdd (entBits 0x2003 6) (s.e.get 0x2003 6) 1 ∧ t.e.sdo = 0 ∧
          (∀ j, j ≠ 0x200302 → j ≠ 0x200303 → j ≠ 0x200306 → t.e.ent j = s.e.ent j)) ∧
        Completes (.dictionaryStore g 0x65766173 false) s (fun t =>
          t.nv = { s.nv with copies := cellErase k s.nv.copies } ∧ t.e.sdo = 0x08000020 ∧
          t.e.get 0x2003 7 = satAdd (entBits 0x2003 7) (s.e.get 0x2003 7) 1 ∧ (∀ j, j ≠ 0x200307 → t.e.ent j = s.e.ent j))) ∧
      (∀ q bs, newCopy false g.toNat s.nv s.e = (q, bs) → bs.length ≤ 2 ^ 20 →
        Completes (.dictionaryRestore g 0x64616F6C true) s (fun t =>
          t.nv = { s.nv with copies := cellSet (fun _ => []) s.nv.copies k bs } ∧ t.e.get 0x2003 2 = q ∧ t.e.get 0x2003 3 = k ∧
          t.e.sdo = 0 ∧ (∀ j, j ≠ 0x200302 → j ≠ 0x200303 → t.e.ent j = s.e.ent j)))) ∧
    (∀ v : Byte, v.toNat ≠ 0 → Refuses (.errorListClear v) s 0x06090030) ∧
    Serves (.errorListClear 0) s ((List.range 9).map (fun i => (ekey 0x1003 i, 0)))

/-- Writes of the dictionary by any path, its store, and USDO. -/
def Obligations.DictionaryAccess : Prop := Says.DictionaryWrites ∧ Says.DictionaryStoreAndUsdo

/-! Three rules of one sentence or two -/

/-- R31: the job parameters 2200h:05h to :08h are written only while the job is Idle; a write in any other state is refused with
0800 0022h and leaves the parameter. -/
def Obligations.JobParametersOnlyInIdle : Prop :=
  ∀ (s : State) (x : BitVec 16) (y : Byte) (data : List Byte), s.serves 0 → x.toNat = 0x2200 → 5 ≤ y.toNat → y.toNat ≤ 8 →
    ∀ d, dictRow 0x2200 y.toNat = some d → data.length = d.ty.bytes →
      (s.e.jobState ≠ 0 → Refuses (.dictionaryWrite x y data) s 0x08000022) ∧
      (s.e.jobState = 0 → d.range.ok d.ty (le data) = true →
        Serves (.dictionaryWrite x y data) s [(ekey 0x2200 y.toNat, le data)])

/-- R348: a stage that releases raises no fault message; the stage in force and the triggers present are published in 4200h:04h and
:05h. -/
def Obligations.StageReleaseIsSilent : Prop :=
  ∀ (s : State) (vin iin : BitVec 16) (k : Fin 5), s.e.live = true → s.e.stage = k.val + 1 →
    s.e.releases (k.val + 1) vin.toNat iin.toNat = true →
    Completes (.sheddingStageRelease k vin iin) s (fun t => t.e.flt.log = s.e.flt.log ∧ t.e.get 0x4100 0x0D = s.e.get 0x4100 0x0D ∧
      t.e.get 0x4200 4 = k.val ∧ t.e.get 0x4200 5 = ofBool (t.e.pwr.sag != 0) + 2 * ofBool t.e.pwr.current +
        4 * ofBool (t.e.pwr.pfail != 0) + 8 * ofBool t.e.pwr.dieHot + 16 * ofBool t.e.pwr.dieCrit + 32 * ofBool t.e.pwr.converter)
end

