-- ==== Sys2Proof/Laws/Cells.lean ====
section
/-! SUPPORT. Laws of the sparse stores: reading after a write, and the canonical form that every operation keeps. -/

namespace Sys2Proof.Machine

theorem cellFind_erase {α : Type} (k j : Nat) (m : List (Nat × α)) :
    cellFind j (cellErase k m) = if j = k then none else cellFind j m := by
  induction m with
  | nil => simp [cellErase, cellFind]
  | cons p r ih =>
    obtain ⟨i, v⟩ := p
    by_cases h : i = k
    · subst h
      by_cases hj : j = i
      · subst hj
        simpa [cellErase] using ih
      · simpa [cellErase, hj, cellFind, Ne.symm hj] using ih
    · by_cases hj : i = j
      · subst hj
        simp [cellErase, cellFind, h]
      · simp [cellErase, cellFind, h, hj, ih]

theorem cellFind_insert {α : Type} (k j : Nat) (v : α) (m : List (Nat × α)) (hm : cellFind k m = none) :
    cellFind j (cellInsert k v m) = if j = k then some v else cellFind j m := by
  induction m with
  | nil => by_cases h : k = j <;> simp [cellInsert, cellFind, h, eq_comm]
  | cons p r ih =>
    obtain ⟨i, w⟩ := p
    have hi : i ≠ k := by
      intro h
      simp [cellFind, h] at hm
    have hr : cellFind k r = none := by simpa [cellFind, hi] using hm
    by_cases hk : k < i
    · by_cases hj : k = j
      · subst hj
        simp [cellInsert, hk, cellFind]
      · simp [cellInsert, hk, cellFind, hj, Ne.symm hj]
    · by_cases hij : i = j
      · subst hij
        simp [cellInsert, hk, cellFind, hi]
      · simp [cellInsert, hk, cellFind, hij, ih hr]

/-- What a store reads as after a write. -/
theorem cellGet_cellSet {α : Type} [DecidableEq α] (d : Nat → α) (m : List (Nat × α)) (k j : Nat) (v : α) :
    cellGet d (cellSet d m k v) j = if j = k then v else cellGet d m j := by
  by_cases hv : v = d k
  · by_cases hj : j = k
    · simp [cellGet, cellSet, hv, cellFind_erase, hj]
    · simp [cellGet, cellSet, hv, cellFind_erase, hj]
  · have hn : cellFind k (cellErase k m) = none := by simp [cellFind_erase]
    by_cases hj : j = k
    · subst hj
      simp [cellGet, cellSet, hv, cellFind_insert _ _ v _ hn]
    · simp [cellGet, cellSet, hv, cellFind_insert k j v _ hn, hj, cellFind_erase]

@[simp] theorem cellGet_cellSet_same {α : Type} [DecidableEq α] (d : Nat → α) (m : List (Nat × α)) (k : Nat) (v : α) :
    cellGet d (cellSet d m k v) k = v := by simp [cellGet_cellSet]

theorem cellGet_cellSet_ne {α : Type} [DecidableEq α] (d : Nat → α) (m : List (Nat × α)) (k j : Nat) (v : α) (h : j ≠ k) :
    cellGet d (cellSet d m k v) j = cellGet d m j := by simp [cellGet_cellSet, h]

@[simp] theorem cellGet_nil {α : Type} (d : Nat → α) (k : Nat) : cellGet d [] k = d k := by simp [cellGet, cellFind]

/-! The canonical form -/

theorem cellsFrom_mono {α : Type} [DecidableEq α] (d : Nat → α) (m : List (Nat × α)) (lo lo' : Nat) (hl : lo' ≤ lo)
    (h : cellsFrom d lo m = true) : cellsFrom d lo' m = true := by
  cases m with
  | nil => simp [cellsFrom]
  | cons p r =>
    obtain ⟨i, v⟩ := p
    simp only [cellsFrom, Bool.and_eq_true, decide_eq_true_eq] at h ⊢
    exact ⟨⟨by omega, h.1.2⟩, h.2⟩

theorem cellErase_from {α : Type} [DecidableEq α] (d : Nat → α) (k : Nat) (m : List (Nat × α)) :
    ∀ lo, cellsFrom d lo m = true → cellsFrom d lo (cellErase k m) = true := by
  induction m with
  | nil => intro lo _; simp [cellErase, cellsFrom]
  | cons p r ih =>
    obtain ⟨i, v⟩ := p
    intro lo h
    simp only [cellsFrom, Bool.and_eq_true, decide_eq_true_eq] at h
    by_cases hi : i = k
    · rw [show cellErase k ((i, v) :: r) = cellErase k r by simp [cellErase, hi]]
      exact ih lo (cellsFrom_mono d r (i + 1) lo (by omega) h.2)
    · rw [show cellErase k ((i, v) :: r) = (i, v) :: cellErase k r by simp [cellErase, hi]]
      simp only [cellsFrom, Bool.and_eq_true, decide_eq_true_eq]
      exact ⟨h.1, ih (i + 1) h.2⟩

theorem cellInsert_from {α : Type} [DecidableEq α] (d : Nat → α) (k : Nat) (v : α) (hv : v ≠ d k) (m : List (Nat × α)) :
    ∀ lo, lo ≤ k → cellFind k m = none → cellsFrom d lo m = true → cellsFrom d lo (cellInsert k v m) = true := by
  induction m with
  | nil => intro lo hlo _ _; simp [cellInsert, cellsFrom, hlo, hv]
  | cons p r ih =>
    obtain ⟨i, w⟩ := p
    intro lo hlo hn h
    have hi : i ≠ k := by
      intro hik
      simp [cellFind, hik] at hn
    have hr : cellFind k r = none := by simpa [cellFind, hi] using hn
    simp only [cellsFrom, Bool.and_eq_true, decide_eq_true_eq] at h
    by_cases hk : k < i
    · rw [show cellInsert k v ((i, w) :: r) = (k, v) :: (i, w) :: r by simp [cellInsert, hk]]
      simp only [cellsFrom, Bool.and_eq_true, decide_eq_true_eq]
      exact ⟨⟨hlo, by simp [hv]⟩, ⟨by omega, h.1.2⟩, h.2⟩
    · rw [show cellInsert k v ((i, w) :: r) = (i, w) :: cellInsert k v r by simp [cellInsert, hk]]
      simp only [cellsFrom, Bool.and_eq_true, decide_eq_true_eq]
      exact ⟨h.1, ih (i + 1) (by omega) hr h.2⟩

/-- A write keeps the canonical form. -/
theorem cellSet_wf {α : Type} [DecidableEq α] (d : Nat → α) (m : List (Nat × α)) (k : Nat) (v : α) (h : cellsWf d m = true) :
    cellsWf d (cellSet d m k v) = true := by
  unfold cellsWf at *
  have he := cellErase_from d k m 0 h
  by_cases hv : v = d k
  · rw [show cellSet d m k v = cellErase k m by simp [cellSet, hv]]
    exact he
  · rw [show cellSet d m k v = cellInsert k v (cellErase k m) by simp [cellSet, hv]]
    exact cellInsert_from d k v hv _ 0 (by omega) (by simp [cellFind_erase]) he

theorem cellErase_wf {α : Type} [DecidableEq α] (d : Nat → α) (m : List (Nat × α)) (k : Nat) (h : cellsWf d m = true) :
    cellsWf d (cellErase k m) = true := cellErase_from d k m 0 h

/-- Several writes keep it. -/
theorem cellSetAll_wf {α : Type} [DecidableEq α] (d : Nat → α) (ps : List (Nat × α)) :
    ∀ m : List (Nat × α), cellsWf d m = true → cellsWf d (cellSetAll d ps m) = true := by
  induction ps with
  | nil => intro m h; exact h
  | cons p r ih =>
    obtain ⟨k, v⟩ := p
    intro m h
    exact ih _ (cellSet_wf d m k v h)

theorem cellEraseRange_from {α : Type} [DecidableEq α] (d : Nat → α) (a n : Nat) (m : List (Nat × α)) :
    ∀ lo, cellsFrom d lo m = true → cellsFrom d lo (cellEraseRange a n m) = true := by
  induction m with
  | nil => intro lo _; simp [cellEraseRange, cellsFrom]
  | cons p r ih =>
    obtain ⟨i, v⟩ := p
    intro lo h
    simp only [cellsFrom, Bool.and_eq_true, decide_eq_true_eq] at h
    by_cases hi : a ≤ i ∧ i < a + n
    · rw [show cellEraseRange a n ((i, v) :: r) = cellEraseRange a n r by simp [cellEraseRange, hi]]
      exact ih lo (cellsFrom_mono d r (i + 1) lo (by omega) h.2)
    · rw [show cellEraseRange a n ((i, v) :: r) = (i, v) :: cellEraseRange a n r by simp [cellEraseRange, hi]]
      simp only [cellsFrom, Bool.and_eq_true, decide_eq_true_eq]
      exact ⟨h.1, ih (i + 1) h.2⟩

theorem cellEraseRange_wf {α : Type} [DecidableEq α] (d : Nat → α) (m : List (Nat × α)) (a n : Nat) (h : cellsWf d m = true) :
    cellsWf d (cellEraseRange a n m) = true := cellEraseRange_from d a n m 0 h

/-! Intervals -/

theorem spansFrom_mono (m : List (Nat × Nat)) (lo lo' : Nat) (hl : lo' ≤ lo) (h : spansFrom lo m = true) :
    spansFrom lo' m = true := by
  cases m with
  | nil => simp [spansFrom]
  | cons p r =>
    obtain ⟨a, b⟩ := p
    simp only [spansFrom, Bool.and_eq_true, decide_eq_true_eq] at h ⊢
    exact ⟨⟨by omega, h.1.2⟩, h.2⟩

/-- Adding an interval keeps them rising and apart. -/
theorem spanAdd_from (m : List (Nat × Nat)) :
    ∀ lo hi c, c ≤ lo → spansFrom c m = true → spansFrom c (spanAdd lo hi m) = true := by
  induction m with
  | nil =>
    intro lo hi c hc _
    by_cases h : lo < hi <;> simp [spanAdd, spansFrom, h, hc]
  | cons p r ih =>
    obtain ⟨a, b⟩ := p
    intro lo hi c hc h
    have hs : spansFrom c ((a, b) :: r) = true := h
    simp only [spansFrom, Bool.and_eq_true, decide_eq_true_eq] at h
    unfold spanAdd
    split
    · exact hs
    split
    · simp only [spansFrom, Bool.and_eq_true, decide_eq_true_eq]
      exact ⟨⟨hc, by omega⟩, ⟨by omega, by omega⟩, h.2⟩
    split
    · simp only [spansFrom, Bool.and_eq_true, decide_eq_true_eq]
      exact ⟨⟨h.1.1, h.1.2⟩, ih lo hi (b + 1) (by omega) h.2⟩
    · exact ih (min lo a) (max hi b) c (by omega) (spansFrom_mono r (b + 1) c (by omega) h.2)

/-- Adding several. -/
theorem spanAdd_fold (ls : List Nat) : ∀ m, spansFrom 0 m = true →
    spansFrom 0 (ls.foldl (fun w l => spanAdd l (l + 1) w) m) = true := by
  induction ls with
  | nil => intro m h; exact h
  | cons l r ih => intro m h; exact ih _ (spanAdd_from m l (l + 1) 0 (by omega) h)

theorem cellErase_fold {α : Type} [DecidableEq α] (d : Nat → α) (ls : List Nat) : ∀ m : List (Nat × α), cellsWf d m = true →
    cellsWf d (ls.foldl (fun w l => cellErase l w) m) = true := by
  induction ls with
  | nil => intro m h; exact h
  | cons l r ih => intro m h; exact ih _ (cellErase_wf d m l h)

end Sys2Proof.Machine
end

