-- ==== Sys2Proof/Laws/State.lean ====
section
/-! SUPPORT. What each update of a unit or an entry leaves alone: one lemma per field of the engine and update, all by `rfl`,
so that no proof unfolds a record update; and the entry that an update writes. -/

namespace Sys2Proof.Machine

variable (e : Engine)

/-! `put` -/

@[simp] theorem Engine.put_now (i j v : Nat) : (e.put i j v).now = e.now := rfl
@[simp] theorem Engine.put_freeIdx (i j v : Nat) : (e.put i j v).freeIdx = e.freeIdx := rfl
@[simp] theorem Engine.put_mode (i j v : Nat) : (e.put i j v).mode = e.mode := rfl
@[simp] theorem Engine.put_sdo (i j v : Nat) : (e.put i j v).sdo = e.sdo := rfl
@[simp] theorem Engine.put_sdoData (i j v : Nat) : (e.put i j v).sdoData = e.sdoData := rfl
@[simp] theorem Engine.put_readData (i j v : Nat) : (e.put i j v).readData = e.readData := rfl
@[simp] theorem Engine.put_out (i j v : Nat) : (e.put i j v).out = e.out := rfl
@[simp] theorem Engine.put_host (i j v : Nat) : (e.put i j v).host = e.host := rfl
@[simp] theorem Engine.put_flt (i j v : Nat) : (e.put i j v).flt = e.flt := rfl
@[simp] theorem Engine.put_pan (i j v : Nat) : (e.put i j v).pan = e.pan := rfl
@[simp] theorem Engine.put_sup (i j v : Nat) : (e.put i j v).sup = e.sup := rfl
@[simp] theorem Engine.put_img (i j v : Nat) : (e.put i j v).img = e.img := rfl
@[simp] theorem Engine.put_path (i j v : Nat) : (e.put i j v).path = e.path := rfl
@[simp] theorem Engine.put_care (i j v : Nat) : (e.put i j v).care = e.care := rfl
@[simp] theorem Engine.put_mot (i j v : Nat) : (e.put i j v).mot = e.mot := rfl
@[simp] theorem Engine.put_mem (i j v : Nat) : (e.put i j v).mem = e.mem := rfl
@[simp] theorem Engine.put_integ (i j v : Nat) : (e.put i j v).integ = e.integ := rfl
@[simp] theorem Engine.put_ctl (i j v : Nat) : (e.put i j v).ctl = e.ctl := rfl
@[simp] theorem Engine.put_pwr (i j v : Nat) : (e.put i j v).pwr = e.pwr := rfl
@[simp] theorem Engine.put_dawn (i j v : Nat) : (e.put i j v).dawn = e.dawn := rfl
@[simp] theorem Engine.put_net (i j v : Nat) : (e.put i j v).net = e.net := rfl

/-! `setDom` -/

@[simp] theorem Engine.setDom_now (i j : Nat) (v : List Byte) : (e.setDom i j v).now = e.now := rfl
@[simp] theorem Engine.setDom_freeIdx (i j : Nat) (v : List Byte) : (e.setDom i j v).freeIdx = e.freeIdx := rfl
@[simp] theorem Engine.setDom_mode (i j : Nat) (v : List Byte) : (e.setDom i j v).mode = e.mode := rfl
@[simp] theorem Engine.setDom_sdo (i j : Nat) (v : List Byte) : (e.setDom i j v).sdo = e.sdo := rfl
@[simp] theorem Engine.setDom_sdoData (i j : Nat) (v : List Byte) : (e.setDom i j v).sdoData = e.sdoData := rfl
@[simp] theorem Engine.setDom_readData (i j : Nat) (v : List Byte) : (e.setDom i j v).readData = e.readData := rfl
@[simp] theorem Engine.setDom_out (i j : Nat) (v : List Byte) : (e.setDom i j v).out = e.out := rfl
@[simp] theorem Engine.setDom_host (i j : Nat) (v : List Byte) : (e.setDom i j v).host = e.host := rfl
@[simp] theorem Engine.setDom_flt (i j : Nat) (v : List Byte) : (e.setDom i j v).flt = e.flt := rfl
@[simp] theorem Engine.setDom_pan (i j : Nat) (v : List Byte) : (e.setDom i j v).pan = e.pan := rfl
@[simp] theorem Engine.setDom_sup (i j : Nat) (v : List Byte) : (e.setDom i j v).sup = e.sup := rfl
@[simp] theorem Engine.setDom_img (i j : Nat) (v : List Byte) : (e.setDom i j v).img = e.img := rfl
@[simp] theorem Engine.setDom_path (i j : Nat) (v : List Byte) : (e.setDom i j v).path = e.path := rfl
@[simp] theorem Engine.setDom_care (i j : Nat) (v : List Byte) : (e.setDom i j v).care = e.care := rfl
@[simp] theorem Engine.setDom_mot (i j : Nat) (v : List Byte) : (e.setDom i j v).mot = e.mot := rfl
@[simp] theorem Engine.setDom_mem (i j : Nat) (v : List Byte) : (e.setDom i j v).mem = e.mem := rfl
@[simp] theorem Engine.setDom_integ (i j : Nat) (v : List Byte) : (e.setDom i j v).integ = e.integ := rfl
@[simp] theorem Engine.setDom_ctl (i j : Nat) (v : List Byte) : (e.setDom i j v).ctl = e.ctl := rfl
@[simp] theorem Engine.setDom_pwr (i j : Nat) (v : List Byte) : (e.setDom i j v).pwr = e.pwr := rfl
@[simp] theorem Engine.setDom_dawn (i j : Nat) (v : List Byte) : (e.setDom i j v).dawn = e.dawn := rfl
@[simp] theorem Engine.setDom_net (i j : Nat) (v : List Byte) : (e.setDom i j v).net = e.net := rfl

/-! `send` -/

@[simp] theorem Engine.send_now (o : Output) : (e.send o).now = e.now := rfl
@[simp] theorem Engine.send_freeIdx (o : Output) : (e.send o).freeIdx = e.freeIdx := rfl
@[simp] theorem Engine.send_mode (o : Output) : (e.send o).mode = e.mode := rfl
@[simp] theorem Engine.send_sdo (o : Output) : (e.send o).sdo = e.sdo := rfl
@[simp] theorem Engine.send_sdoData (o : Output) : (e.send o).sdoData = e.sdoData := rfl
@[simp] theorem Engine.send_readData (o : Output) : (e.send o).readData = e.readData := rfl
@[simp] theorem Engine.send_d (o : Output) : (e.send o).d = e.d := rfl
@[simp] theorem Engine.send_host (o : Output) : (e.send o).host = e.host := rfl
@[simp] theorem Engine.send_flt (o : Output) : (e.send o).flt = e.flt := rfl
@[simp] theorem Engine.send_pan (o : Output) : (e.send o).pan = e.pan := rfl
@[simp] theorem Engine.send_sup (o : Output) : (e.send o).sup = e.sup := rfl
@[simp] theorem Engine.send_img (o : Output) : (e.send o).img = e.img := rfl
@[simp] theorem Engine.send_path (o : Output) : (e.send o).path = e.path := rfl
@[simp] theorem Engine.send_care (o : Output) : (e.send o).care = e.care := rfl
@[simp] theorem Engine.send_mot (o : Output) : (e.send o).mot = e.mot := rfl
@[simp] theorem Engine.send_mem (o : Output) : (e.send o).mem = e.mem := rfl
@[simp] theorem Engine.send_integ (o : Output) : (e.send o).integ = e.integ := rfl
@[simp] theorem Engine.send_ctl (o : Output) : (e.send o).ctl = e.ctl := rfl
@[simp] theorem Engine.send_pwr (o : Output) : (e.send o).pwr = e.pwr := rfl
@[simp] theorem Engine.send_dawn (o : Output) : (e.send o).dawn = e.dawn := rfl
@[simp] theorem Engine.send_net (o : Output) : (e.send o).net = e.net := rfl

/-! `done` -/

@[simp] theorem Engine.done_now : (e.done).now = e.now := rfl
@[simp] theorem Engine.done_freeIdx : (e.done).freeIdx = e.freeIdx := rfl
@[simp] theorem Engine.done_mode : (e.done).mode = e.mode := rfl
@[simp] theorem Engine.done_readData : (e.done).readData = e.readData := rfl
@[simp] theorem Engine.done_out : (e.done).out = e.out := rfl
@[simp] theorem Engine.done_d : (e.done).d = e.d := rfl
@[simp] theorem Engine.done_host : (e.done).host = e.host := rfl
@[simp] theorem Engine.done_flt : (e.done).flt = e.flt := rfl
@[simp] theorem Engine.done_pan : (e.done).pan = e.pan := rfl
@[simp] theorem Engine.done_sup : (e.done).sup = e.sup := rfl
@[simp] theorem Engine.done_img : (e.done).img = e.img := rfl
@[simp] theorem Engine.done_path : (e.done).path = e.path := rfl
@[simp] theorem Engine.done_care : (e.done).care = e.care := rfl
@[simp] theorem Engine.done_mot : (e.done).mot = e.mot := rfl
@[simp] theorem Engine.done_mem : (e.done).mem = e.mem := rfl
@[simp] theorem Engine.done_integ : (e.done).integ = e.integ := rfl
@[simp] theorem Engine.done_ctl : (e.done).ctl = e.ctl := rfl
@[simp] theorem Engine.done_pwr : (e.done).pwr = e.pwr := rfl
@[simp] theorem Engine.done_dawn : (e.done).dawn = e.dawn := rfl
@[simp] theorem Engine.done_net : (e.done).net = e.net := rfl

/-! `refuse` -/

@[simp] theorem Engine.refuse_now (c : Nat) : (e.refuse c).now = e.now := rfl
@[simp] theorem Engine.refuse_freeIdx (c : Nat) : (e.refuse c).freeIdx = e.freeIdx := rfl
@[simp] theorem Engine.refuse_mode (c : Nat) : (e.refuse c).mode = e.mode := rfl
@[simp] theorem Engine.refuse_readData (c : Nat) : (e.refuse c).readData = e.readData := rfl
@[simp] theorem Engine.refuse_out (c : Nat) : (e.refuse c).out = e.out := rfl
@[simp] theorem Engine.refuse_d (c : Nat) : (e.refuse c).d = e.d := rfl
@[simp] theorem Engine.refuse_host (c : Nat) : (e.refuse c).host = e.host := rfl
@[simp] theorem Engine.refuse_flt (c : Nat) : (e.refuse c).flt = e.flt := rfl
@[simp] theorem Engine.refuse_pan (c : Nat) : (e.refuse c).pan = e.pan := rfl
@[simp] theorem Engine.refuse_sup (c : Nat) : (e.refuse c).sup = e.sup := rfl
@[simp] theorem Engine.refuse_img (c : Nat) : (e.refuse c).img = e.img := rfl
@[simp] theorem Engine.refuse_path (c : Nat) : (e.refuse c).path = e.path := rfl
@[simp] theorem Engine.refuse_care (c : Nat) : (e.refuse c).care = e.care := rfl
@[simp] theorem Engine.refuse_mot (c : Nat) : (e.refuse c).mot = e.mot := rfl
@[simp] theorem Engine.refuse_mem (c : Nat) : (e.refuse c).mem = e.mem := rfl
@[simp] theorem Engine.refuse_integ (c : Nat) : (e.refuse c).integ = e.integ := rfl
@[simp] theorem Engine.refuse_ctl (c : Nat) : (e.refuse c).ctl = e.ctl := rfl
@[simp] theorem Engine.refuse_pwr (c : Nat) : (e.refuse c).pwr = e.pwr := rfl
@[simp] theorem Engine.refuse_dawn (c : Nat) : (e.refuse c).dawn = e.dawn := rfl
@[simp] theorem Engine.refuse_net (c : Nat) : (e.refuse c).net = e.net := rfl

/-! `answer` -/

@[simp] theorem Engine.answer_now (bs : List Byte) : (e.answer bs).now = e.now := rfl
@[simp] theorem Engine.answer_freeIdx (bs : List Byte) : (e.answer bs).freeIdx = e.freeIdx := rfl
@[simp] theorem Engine.answer_mode (bs : List Byte) : (e.answer bs).mode = e.mode := rfl
@[simp] theorem Engine.answer_readData (bs : List Byte) : (e.answer bs).readData = e.readData := rfl
@[simp] theorem Engine.answer_out (bs : List Byte) : (e.answer bs).out = e.out := rfl
@[simp] theorem Engine.answer_d (bs : List Byte) : (e.answer bs).d = e.d := rfl
@[simp] theorem Engine.answer_host (bs : List Byte) : (e.answer bs).host = e.host := rfl
@[simp] theorem Engine.answer_flt (bs : List Byte) : (e.answer bs).flt = e.flt := rfl
@[simp] theorem Engine.answer_pan (bs : List Byte) : (e.answer bs).pan = e.pan := rfl
@[simp] theorem Engine.answer_sup (bs : List Byte) : (e.answer bs).sup = e.sup := rfl
@[simp] theorem Engine.answer_img (bs : List Byte) : (e.answer bs).img = e.img := rfl
@[simp] theorem Engine.answer_path (bs : List Byte) : (e.answer bs).path = e.path := rfl
@[simp] theorem Engine.answer_care (bs : List Byte) : (e.answer bs).care = e.care := rfl
@[simp] theorem Engine.answer_mot (bs : List Byte) : (e.answer bs).mot = e.mot := rfl
@[simp] theorem Engine.answer_mem (bs : List Byte) : (e.answer bs).mem = e.mem := rfl
@[simp] theorem Engine.answer_integ (bs : List Byte) : (e.answer bs).integ = e.integ := rfl
@[simp] theorem Engine.answer_ctl (bs : List Byte) : (e.answer bs).ctl = e.ctl := rfl
@[simp] theorem Engine.answer_pwr (bs : List Byte) : (e.answer bs).pwr = e.pwr := rfl
@[simp] theorem Engine.answer_dawn (bs : List Byte) : (e.answer bs).dawn = e.dawn := rfl
@[simp] theorem Engine.answer_net (bs : List Byte) : (e.answer bs).net = e.net := rfl

/-! `useFree` -/

@[simp] theorem Engine.useFree_now : (e.useFree).now = e.now := rfl
@[simp] theorem Engine.useFree_mode : (e.useFree).mode = e.mode := rfl
@[simp] theorem Engine.useFree_sdo : (e.useFree).sdo = e.sdo := rfl
@[simp] theorem Engine.useFree_sdoData : (e.useFree).sdoData = e.sdoData := rfl
@[simp] theorem Engine.useFree_readData : (e.useFree).readData = e.readData := rfl
@[simp] theorem Engine.useFree_out : (e.useFree).out = e.out := rfl
@[simp] theorem Engine.useFree_d : (e.useFree).d = e.d := rfl
@[simp] theorem Engine.useFree_host : (e.useFree).host = e.host := rfl
@[simp] theorem Engine.useFree_flt : (e.useFree).flt = e.flt := rfl
@[simp] theorem Engine.useFree_pan : (e.useFree).pan = e.pan := rfl
@[simp] theorem Engine.useFree_sup : (e.useFree).sup = e.sup := rfl
@[simp] theorem Engine.useFree_img : (e.useFree).img = e.img := rfl
@[simp] theorem Engine.useFree_path : (e.useFree).path = e.path := rfl
@[simp] theorem Engine.useFree_care : (e.useFree).care = e.care := rfl
@[simp] theorem Engine.useFree_mot : (e.useFree).mot = e.mot := rfl
@[simp] theorem Engine.useFree_mem : (e.useFree).mem = e.mem := rfl
@[simp] theorem Engine.useFree_integ : (e.useFree).integ = e.integ := rfl
@[simp] theorem Engine.useFree_ctl : (e.useFree).ctl = e.ctl := rfl
@[simp] theorem Engine.useFree_pwr : (e.useFree).pwr = e.pwr := rfl
@[simp] theorem Engine.useFree_dawn : (e.useFree).dawn = e.dawn := rfl
@[simp] theorem Engine.useFree_net : (e.useFree).net = e.net := rfl

/-! `setDma` -/

@[simp] theorem Engine.setDma_now (k : Nat) (x : Dma) : (e.setDma k x).now = e.now := rfl
@[simp] theorem Engine.setDma_freeIdx (k : Nat) (x : Dma) : (e.setDma k x).freeIdx = e.freeIdx := rfl
@[simp] theorem Engine.setDma_mode (k : Nat) (x : Dma) : (e.setDma k x).mode = e.mode := rfl
@[simp] theorem Engine.setDma_sdo (k : Nat) (x : Dma) : (e.setDma k x).sdo = e.sdo := rfl
@[simp] theorem Engine.setDma_sdoData (k : Nat) (x : Dma) : (e.setDma k x).sdoData = e.sdoData := rfl
@[simp] theorem Engine.setDma_readData (k : Nat) (x : Dma) : (e.setDma k x).readData = e.readData := rfl
@[simp] theorem Engine.setDma_out (k : Nat) (x : Dma) : (e.setDma k x).out = e.out := rfl
@[simp] theorem Engine.setDma_d (k : Nat) (x : Dma) : (e.setDma k x).d = e.d := rfl
@[simp] theorem Engine.setDma_flt (k : Nat) (x : Dma) : (e.setDma k x).flt = e.flt := rfl
@[simp] theorem Engine.setDma_pan (k : Nat) (x : Dma) : (e.setDma k x).pan = e.pan := rfl
@[simp] theorem Engine.setDma_sup (k : Nat) (x : Dma) : (e.setDma k x).sup = e.sup := rfl
@[simp] theorem Engine.setDma_img (k : Nat) (x : Dma) : (e.setDma k x).img = e.img := rfl
@[simp] theorem Engine.setDma_path (k : Nat) (x : Dma) : (e.setDma k x).path = e.path := rfl
@[simp] theorem Engine.setDma_care (k : Nat) (x : Dma) : (e.setDma k x).care = e.care := rfl
@[simp] theorem Engine.setDma_mot (k : Nat) (x : Dma) : (e.setDma k x).mot = e.mot := rfl
@[simp] theorem Engine.setDma_mem (k : Nat) (x : Dma) : (e.setDma k x).mem = e.mem := rfl
@[simp] theorem Engine.setDma_integ (k : Nat) (x : Dma) : (e.setDma k x).integ = e.integ := rfl
@[simp] theorem Engine.setDma_ctl (k : Nat) (x : Dma) : (e.setDma k x).ctl = e.ctl := rfl
@[simp] theorem Engine.setDma_pwr (k : Nat) (x : Dma) : (e.setDma k x).pwr = e.pwr := rfl
@[simp] theorem Engine.setDma_dawn (k : Nat) (x : Dma) : (e.setDma k x).dawn = e.dawn := rfl
@[simp] theorem Engine.setDma_net (k : Nat) (x : Dma) : (e.setDma k x).net = e.net := rfl

/-! `setCtx` -/

@[simp] theorem Engine.setCtx_now (k : Nat) (x : Ctx) : (e.setCtx k x).now = e.now := rfl
@[simp] theorem Engine.setCtx_freeIdx (k : Nat) (x : Ctx) : (e.setCtx k x).freeIdx = e.freeIdx := rfl
@[simp] theorem Engine.setCtx_mode (k : Nat) (x : Ctx) : (e.setCtx k x).mode = e.mode := rfl
@[simp] theorem Engine.setCtx_sdo (k : Nat) (x : Ctx) : (e.setCtx k x).sdo = e.sdo := rfl
@[simp] theorem Engine.setCtx_sdoData (k : Nat) (x : Ctx) : (e.setCtx k x).sdoData = e.sdoData := rfl
@[simp] theorem Engine.setCtx_readData (k : Nat) (x : Ctx) : (e.setCtx k x).readData = e.readData := rfl
@[simp] theorem Engine.setCtx_out (k : Nat) (x : Ctx) : (e.setCtx k x).out = e.out := rfl
@[simp] theorem Engine.setCtx_d (k : Nat) (x : Ctx) : (e.setCtx k x).d = e.d := rfl
@[simp] theorem Engine.setCtx_host (k : Nat) (x : Ctx) : (e.setCtx k x).host = e.host := rfl
@[simp] theorem Engine.setCtx_flt (k : Nat) (x : Ctx) : (e.setCtx k x).flt = e.flt := rfl
@[simp] theorem Engine.setCtx_pan (k : Nat) (x : Ctx) : (e.setCtx k x).pan = e.pan := rfl
@[simp] theorem Engine.setCtx_img (k : Nat) (x : Ctx) : (e.setCtx k x).img = e.img := rfl
@[simp] theorem Engine.setCtx_path (k : Nat) (x : Ctx) : (e.setCtx k x).path = e.path := rfl
@[simp] theorem Engine.setCtx_care (k : Nat) (x : Ctx) : (e.setCtx k x).care = e.care := rfl
@[simp] theorem Engine.setCtx_mot (k : Nat) (x : Ctx) : (e.setCtx k x).mot = e.mot := rfl
@[simp] theorem Engine.setCtx_mem (k : Nat) (x : Ctx) : (e.setCtx k x).mem = e.mem := rfl
@[simp] theorem Engine.setCtx_integ (k : Nat) (x : Ctx) : (e.setCtx k x).integ = e.integ := rfl
@[simp] theorem Engine.setCtx_ctl (k : Nat) (x : Ctx) : (e.setCtx k x).ctl = e.ctl := rfl
@[simp] theorem Engine.setCtx_pwr (k : Nat) (x : Ctx) : (e.setCtx k x).pwr = e.pwr := rfl
@[simp] theorem Engine.setCtx_dawn (k : Nat) (x : Ctx) : (e.setCtx k x).dawn = e.dawn := rfl
@[simp] theorem Engine.setCtx_net (k : Nat) (x : Ctx) : (e.setCtx k x).net = e.net := rfl

/-! `setDecEng` -/

@[simp] theorem Engine.setDecEng_now (k : Nat) (x : Option DecEng) : (e.setDecEng k x).now = e.now := rfl
@[simp] theorem Engine.setDecEng_freeIdx (k : Nat) (x : Option DecEng) : (e.setDecEng k x).freeIdx = e.freeIdx := rfl
@[simp] theorem Engine.setDecEng_mode (k : Nat) (x : Option DecEng) : (e.setDecEng k x).mode = e.mode := rfl
@[simp] theorem Engine.setDecEng_sdo (k : Nat) (x : Option DecEng) : (e.setDecEng k x).sdo = e.sdo := rfl
@[simp] theorem Engine.setDecEng_sdoData (k : Nat) (x : Option DecEng) : (e.setDecEng k x).sdoData = e.sdoData := rfl
@[simp] theorem Engine.setDecEng_readData (k : Nat) (x : Option DecEng) : (e.setDecEng k x).readData = e.readData := rfl
@[simp] theorem Engine.setDecEng_out (k : Nat) (x : Option DecEng) : (e.setDecEng k x).out = e.out := rfl
@[simp] theorem Engine.setDecEng_d (k : Nat) (x : Option DecEng) : (e.setDecEng k x).d = e.d := rfl
@[simp] theorem Engine.setDecEng_host (k : Nat) (x : Option DecEng) : (e.setDecEng k x).host = e.host := rfl
@[simp] theorem Engine.setDecEng_flt (k : Nat) (x : Option DecEng) : (e.setDecEng k x).flt = e.flt := rfl
@[simp] theorem Engine.setDecEng_pan (k : Nat) (x : Option DecEng) : (e.setDecEng k x).pan = e.pan := rfl
@[simp] theorem Engine.setDecEng_img (k : Nat) (x : Option DecEng) : (e.setDecEng k x).img = e.img := rfl
@[simp] theorem Engine.setDecEng_path (k : Nat) (x : Option DecEng) : (e.setDecEng k x).path = e.path := rfl
@[simp] theorem Engine.setDecEng_care (k : Nat) (x : Option DecEng) : (e.setDecEng k x).care = e.care := rfl
@[simp] theorem Engine.setDecEng_mot (k : Nat) (x : Option DecEng) : (e.setDecEng k x).mot = e.mot := rfl
@[simp] theorem Engine.setDecEng_mem (k : Nat) (x : Option DecEng) : (e.setDecEng k x).mem = e.mem := rfl
@[simp] theorem Engine.setDecEng_integ (k : Nat) (x : Option DecEng) : (e.setDecEng k x).integ = e.integ := rfl
@[simp] theorem Engine.setDecEng_ctl (k : Nat) (x : Option DecEng) : (e.setDecEng k x).ctl = e.ctl := rfl
@[simp] theorem Engine.setDecEng_pwr (k : Nat) (x : Option DecEng) : (e.setDecEng k x).pwr = e.pwr := rfl
@[simp] theorem Engine.setDecEng_dawn (k : Nat) (x : Option DecEng) : (e.setDecEng k x).dawn = e.dawn := rfl
@[simp] theorem Engine.setDecEng_net (k : Nat) (x : Option DecEng) : (e.setDecEng k x).net = e.net := rfl

/-! `setBankScr` -/

@[simp] theorem Engine.setBankScr_now (k : Nat) (x : BankScr) : (e.setBankScr k x).now = e.now := rfl
@[simp] theorem Engine.setBankScr_freeIdx (k : Nat) (x : BankScr) : (e.setBankScr k x).freeIdx = e.freeIdx := rfl
@[simp] theorem Engine.setBankScr_mode (k : Nat) (x : BankScr) : (e.setBankScr k x).mode = e.mode := rfl
@[simp] theorem Engine.setBankScr_sdo (k : Nat) (x : BankScr) : (e.setBankScr k x).sdo = e.sdo := rfl
@[simp] theorem Engine.setBankScr_sdoData (k : Nat) (x : BankScr) : (e.setBankScr k x).sdoData = e.sdoData := rfl
@[simp] theorem Engine.setBankScr_readData (k : Nat) (x : BankScr) : (e.setBankScr k x).readData = e.readData := rfl
@[simp] theorem Engine.setBankScr_out (k : Nat) (x : BankScr) : (e.setBankScr k x).out = e.out := rfl
@[simp] theorem Engine.setBankScr_d (k : Nat) (x : BankScr) : (e.setBankScr k x).d = e.d := rfl
@[simp] theorem Engine.setBankScr_host (k : Nat) (x : BankScr) : (e.setBankScr k x).host = e.host := rfl
@[simp] theorem Engine.setBankScr_flt (k : Nat) (x : BankScr) : (e.setBankScr k x).flt = e.flt := rfl
@[simp] theorem Engine.setBankScr_pan (k : Nat) (x : BankScr) : (e.setBankScr k x).pan = e.pan := rfl
@[simp] theorem Engine.setBankScr_img (k : Nat) (x : BankScr) : (e.setBankScr k x).img = e.img := rfl
@[simp] theorem Engine.setBankScr_path (k : Nat) (x : BankScr) : (e.setBankScr k x).path = e.path := rfl
@[simp] theorem Engine.setBankScr_care (k : Nat) (x : BankScr) : (e.setBankScr k x).care = e.care := rfl
@[simp] theorem Engine.setBankScr_mot (k : Nat) (x : BankScr) : (e.setBankScr k x).mot = e.mot := rfl
@[simp] theorem Engine.setBankScr_mem (k : Nat) (x : BankScr) : (e.setBankScr k x).mem = e.mem := rfl
@[simp] theorem Engine.setBankScr_integ (k : Nat) (x : BankScr) : (e.setBankScr k x).integ = e.integ := rfl
@[simp] theorem Engine.setBankScr_ctl (k : Nat) (x : BankScr) : (e.setBankScr k x).ctl = e.ctl := rfl
@[simp] theorem Engine.setBankScr_pwr (k : Nat) (x : BankScr) : (e.setBankScr k x).pwr = e.pwr := rfl
@[simp] theorem Engine.setBankScr_dawn (k : Nat) (x : BankScr) : (e.setBankScr k x).dawn = e.dawn := rfl
@[simp] theorem Engine.setBankScr_net (k : Nat) (x : BankScr) : (e.setBankScr k x).net = e.net := rfl

/-! `setHead` -/

@[simp] theorem Engine.setHead_now (k : Nat) (x : Head) : (e.setHead k x).now = e.now := rfl
@[simp] theorem Engine.setHead_freeIdx (k : Nat) (x : Head) : (e.setHead k x).freeIdx = e.freeIdx := rfl
@[simp] theorem Engine.setHead_mode (k : Nat) (x : Head) : (e.setHead k x).mode = e.mode := rfl
@[simp] theorem Engine.setHead_sdo (k : Nat) (x : Head) : (e.setHead k x).sdo = e.sdo := rfl
@[simp] theorem Engine.setHead_sdoData (k : Nat) (x : Head) : (e.setHead k x).sdoData = e.sdoData := rfl
@[simp] theorem Engine.setHead_readData (k : Nat) (x : Head) : (e.setHead k x).readData = e.readData := rfl
@[simp] theorem Engine.setHead_out (k : Nat) (x : Head) : (e.setHead k x).out = e.out := rfl
@[simp] theorem Engine.setHead_d (k : Nat) (x : Head) : (e.setHead k x).d = e.d := rfl
@[simp] theorem Engine.setHead_host (k : Nat) (x : Head) : (e.setHead k x).host = e.host := rfl
@[simp] theorem Engine.setHead_flt (k : Nat) (x : Head) : (e.setHead k x).flt = e.flt := rfl
@[simp] theorem Engine.setHead_pan (k : Nat) (x : Head) : (e.setHead k x).pan = e.pan := rfl
@[simp] theorem Engine.setHead_sup (k : Nat) (x : Head) : (e.setHead k x).sup = e.sup := rfl
@[simp] theorem Engine.setHead_img (k : Nat) (x : Head) : (e.setHead k x).img = e.img := rfl
@[simp] theorem Engine.setHead_path (k : Nat) (x : Head) : (e.setHead k x).path = e.path := rfl
@[simp] theorem Engine.setHead_mot (k : Nat) (x : Head) : (e.setHead k x).mot = e.mot := rfl
@[simp] theorem Engine.setHead_mem (k : Nat) (x : Head) : (e.setHead k x).mem = e.mem := rfl
@[simp] theorem Engine.setHead_integ (k : Nat) (x : Head) : (e.setHead k x).integ = e.integ := rfl
@[simp] theorem Engine.setHead_ctl (k : Nat) (x : Head) : (e.setHead k x).ctl = e.ctl := rfl
@[simp] theorem Engine.setHead_pwr (k : Nat) (x : Head) : (e.setHead k x).pwr = e.pwr := rfl
@[simp] theorem Engine.setHead_dawn (k : Nat) (x : Head) : (e.setHead k x).dawn = e.dawn := rfl
@[simp] theorem Engine.setHead_net (k : Nat) (x : Head) : (e.setHead k x).net = e.net := rfl

/-! `setAxis` -/

@[simp] theorem Engine.setAxis_now (k : Nat) (x : Axis) : (e.setAxis k x).now = e.now := rfl
@[simp] theorem Engine.setAxis_freeIdx (k : Nat) (x : Axis) : (e.setAxis k x).freeIdx = e.freeIdx := rfl
@[simp] theorem Engine.setAxis_mode (k : Nat) (x : Axis) : (e.setAxis k x).mode = e.mode := rfl
@[simp] theorem Engine.setAxis_sdo (k : Nat) (x : Axis) : (e.setAxis k x).sdo = e.sdo := rfl
@[simp] theorem Engine.setAxis_sdoData (k : Nat) (x : Axis) : (e.setAxis k x).sdoData = e.sdoData := rfl
@[simp] theorem Engine.setAxis_readData (k : Nat) (x : Axis) : (e.setAxis k x).readData = e.readData := rfl
@[simp] theorem Engine.setAxis_out (k : Nat) (x : Axis) : (e.setAxis k x).out = e.out := rfl
@[simp] theorem Engine.setAxis_d (k : Nat) (x : Axis) : (e.setAxis k x).d = e.d := rfl
@[simp] theorem Engine.setAxis_host (k : Nat) (x : Axis) : (e.setAxis k x).host = e.host := rfl
@[simp] theorem Engine.setAxis_flt (k : Nat) (x : Axis) : (e.setAxis k x).flt = e.flt := rfl
@[simp] theorem Engine.setAxis_pan (k : Nat) (x : Axis) : (e.setAxis k x).pan = e.pan := rfl
@[simp] theorem Engine.setAxis_sup (k : Nat) (x : Axis) : (e.setAxis k x).sup = e.sup := rfl
@[simp] theorem Engine.setAxis_img (k : Nat) (x : Axis) : (e.setAxis k x).img = e.img := rfl
@[simp] theorem Engine.setAxis_path (k : Nat) (x : Axis) : (e.setAxis k x).path = e.path := rfl
@[simp] theorem Engine.setAxis_care (k : Nat) (x : Axis) : (e.setAxis k x).care = e.care := rfl
@[simp] theorem Engine.setAxis_mem (k : Nat) (x : Axis) : (e.setAxis k x).mem = e.mem := rfl
@[simp] theorem Engine.setAxis_integ (k : Nat) (x : Axis) : (e.setAxis k x).integ = e.integ := rfl
@[simp] theorem Engine.setAxis_ctl (k : Nat) (x : Axis) : (e.setAxis k x).ctl = e.ctl := rfl
@[simp] theorem Engine.setAxis_pwr (k : Nat) (x : Axis) : (e.setAxis k x).pwr = e.pwr := rfl
@[simp] theorem Engine.setAxis_dawn (k : Nat) (x : Axis) : (e.setAxis k x).dawn = e.dawn := rfl
@[simp] theorem Engine.setAxis_net (k : Nat) (x : Axis) : (e.setAxis k x).net = e.net := rfl

/-! `setEnc` -/

@[simp] theorem Engine.setEnc_now (k : Nat) (x : Encoder) : (e.setEnc k x).now = e.now := rfl
@[simp] theorem Engine.setEnc_freeIdx (k : Nat) (x : Encoder) : (e.setEnc k x).freeIdx = e.freeIdx := rfl
@[simp] theorem Engine.setEnc_mode (k : Nat) (x : Encoder) : (e.setEnc k x).mode = e.mode := rfl
@[simp] theorem Engine.setEnc_sdo (k : Nat) (x : Encoder) : (e.setEnc k x).sdo = e.sdo := rfl
@[simp] theorem Engine.setEnc_sdoData (k : Nat) (x : Encoder) : (e.setEnc k x).sdoData = e.sdoData := rfl
@[simp] theorem Engine.setEnc_readData (k : Nat) (x : Encoder) : (e.setEnc k x).readData = e.readData := rfl
@[simp] theorem Engine.setEnc_out (k : Nat) (x : Encoder) : (e.setEnc k x).out = e.out := rfl
@[simp] theorem Engine.setEnc_d (k : Nat) (x : Encoder) : (e.setEnc k x).d = e.d := rfl
@[simp] theorem Engine.setEnc_host (k : Nat) (x : Encoder) : (e.setEnc k x).host = e.host := rfl
@[simp] theorem Engine.setEnc_flt (k : Nat) (x : Encoder) : (e.setEnc k x).flt = e.flt := rfl
@[simp] theorem Engine.setEnc_pan (k : Nat) (x : Encoder) : (e.setEnc k x).pan = e.pan := rfl
@[simp] theorem Engine.setEnc_sup (k : Nat) (x : Encoder) : (e.setEnc k x).sup = e.sup := rfl
@[simp] theorem Engine.setEnc_img (k : Nat) (x : Encoder) : (e.setEnc k x).img = e.img := rfl
@[simp] theorem Engine.setEnc_path (k : Nat) (x : Encoder) : (e.setEnc k x).path = e.path := rfl
@[simp] theorem Engine.setEnc_care (k : Nat) (x : Encoder) : (e.setEnc k x).care = e.care := rfl
@[simp] theorem Engine.setEnc_mem (k : Nat) (x : Encoder) : (e.setEnc k x).mem = e.mem := rfl
@[simp] theorem Engine.setEnc_integ (k : Nat) (x : Encoder) : (e.setEnc k x).integ = e.integ := rfl
@[simp] theorem Engine.setEnc_ctl (k : Nat) (x : Encoder) : (e.setEnc k x).ctl = e.ctl := rfl
@[simp] theorem Engine.setEnc_pwr (k : Nat) (x : Encoder) : (e.setEnc k x).pwr = e.pwr := rfl
@[simp] theorem Engine.setEnc_dawn (k : Nat) (x : Encoder) : (e.setEnc k x).dawn = e.dawn := rfl
@[simp] theorem Engine.setEnc_net (k : Nat) (x : Encoder) : (e.setEnc k x).net = e.net := rfl

/-! `setInp` -/

@[simp] theorem Engine.setInp_now (k : Nat) (x : InputState) : (e.setInp k x).now = e.now := rfl
@[simp] theorem Engine.setInp_freeIdx (k : Nat) (x : InputState) : (e.setInp k x).freeIdx = e.freeIdx := rfl
@[simp] theorem Engine.setInp_mode (k : Nat) (x : InputState) : (e.setInp k x).mode = e.mode := rfl
@[simp] theorem Engine.setInp_sdo (k : Nat) (x : InputState) : (e.setInp k x).sdo = e.sdo := rfl
@[simp] theorem Engine.setInp_sdoData (k : Nat) (x : InputState) : (e.setInp k x).sdoData = e.sdoData := rfl
@[simp] theorem Engine.setInp_readData (k : Nat) (x : InputState) : (e.setInp k x).readData = e.readData := rfl
@[simp] theorem Engine.setInp_out (k : Nat) (x : InputState) : (e.setInp k x).out = e.out := rfl
@[simp] theorem Engine.setInp_d (k : Nat) (x : InputState) : (e.setInp k x).d = e.d := rfl
@[simp] theorem Engine.setInp_host (k : Nat) (x : InputState) : (e.setInp k x).host = e.host := rfl
@[simp] theorem Engine.setInp_flt (k : Nat) (x : InputState) : (e.setInp k x).flt = e.flt := rfl
@[simp] theorem Engine.setInp_pan (k : Nat) (x : InputState) : (e.setInp k x).pan = e.pan := rfl
@[simp] theorem Engine.setInp_sup (k : Nat) (x : InputState) : (e.setInp k x).sup = e.sup := rfl
@[simp] theorem Engine.setInp_img (k : Nat) (x : InputState) : (e.setInp k x).img = e.img := rfl
@[simp] theorem Engine.setInp_path (k : Nat) (x : InputState) : (e.setInp k x).path = e.path := rfl
@[simp] theorem Engine.setInp_care (k : Nat) (x : InputState) : (e.setInp k x).care = e.care := rfl
@[simp] theorem Engine.setInp_mem (k : Nat) (x : InputState) : (e.setInp k x).mem = e.mem := rfl
@[simp] theorem Engine.setInp_integ (k : Nat) (x : InputState) : (e.setInp k x).integ = e.integ := rfl
@[simp] theorem Engine.setInp_ctl (k : Nat) (x : InputState) : (e.setInp k x).ctl = e.ctl := rfl
@[simp] theorem Engine.setInp_pwr (k : Nat) (x : InputState) : (e.setInp k x).pwr = e.pwr := rfl
@[simp] theorem Engine.setInp_dawn (k : Nat) (x : InputState) : (e.setInp k x).dawn = e.dawn := rfl
@[simp] theorem Engine.setInp_net (k : Nat) (x : InputState) : (e.setInp k x).net = e.net := rfl

/-! `setLoop` -/

@[simp] theorem Engine.setLoop_now (k : Nat) (x : LoopState) : (e.setLoop k x).now = e.now := rfl
@[simp] theorem Engine.setLoop_freeIdx (k : Nat) (x : LoopState) : (e.setLoop k x).freeIdx = e.freeIdx := rfl
@[simp] theorem Engine.setLoop_mode (k : Nat) (x : LoopState) : (e.setLoop k x).mode = e.mode := rfl
@[simp] theorem Engine.setLoop_sdo (k : Nat) (x : LoopState) : (e.setLoop k x).sdo = e.sdo := rfl
@[simp] theorem Engine.setLoop_sdoData (k : Nat) (x : LoopState) : (e.setLoop k x).sdoData = e.sdoData := rfl
@[simp] theorem Engine.setLoop_readData (k : Nat) (x : LoopState) : (e.setLoop k x).readData = e.readData := rfl
@[simp] theorem Engine.setLoop_out (k : Nat) (x : LoopState) : (e.setLoop k x).out = e.out := rfl
@[simp] theorem Engine.setLoop_d (k : Nat) (x : LoopState) : (e.setLoop k x).d = e.d := rfl
@[simp] theorem Engine.setLoop_host (k : Nat) (x : LoopState) : (e.setLoop k x).host = e.host := rfl
@[simp] theorem Engine.setLoop_flt (k : Nat) (x : LoopState) : (e.setLoop k x).flt = e.flt := rfl
@[simp] theorem Engine.setLoop_pan (k : Nat) (x : LoopState) : (e.setLoop k x).pan = e.pan := rfl
@[simp] theorem Engine.setLoop_sup (k : Nat) (x : LoopState) : (e.setLoop k x).sup = e.sup := rfl
@[simp] theorem Engine.setLoop_img (k : Nat) (x : LoopState) : (e.setLoop k x).img = e.img := rfl
@[simp] theorem Engine.setLoop_path (k : Nat) (x : LoopState) : (e.setLoop k x).path = e.path := rfl
@[simp] theorem Engine.setLoop_care (k : Nat) (x : LoopState) : (e.setLoop k x).care = e.care := rfl
@[simp] theorem Engine.setLoop_mot (k : Nat) (x : LoopState) : (e.setLoop k x).mot = e.mot := rfl
@[simp] theorem Engine.setLoop_mem (k : Nat) (x : LoopState) : (e.setLoop k x).mem = e.mem := rfl
@[simp] theorem Engine.setLoop_integ (k : Nat) (x : LoopState) : (e.setLoop k x).integ = e.integ := rfl
@[simp] theorem Engine.setLoop_pwr (k : Nat) (x : LoopState) : (e.setLoop k x).pwr = e.pwr := rfl
@[simp] theorem Engine.setLoop_dawn (k : Nat) (x : LoopState) : (e.setLoop k x).dawn = e.dawn := rfl
@[simp] theorem Engine.setLoop_net (k : Nat) (x : LoopState) : (e.setLoop k x).net = e.net := rfl

/-! `setTrace` -/

@[simp] theorem Engine.setTrace_now (k : Nat) (x : Trace) : (e.setTrace k x).now = e.now := rfl
@[simp] theorem Engine.setTrace_freeIdx (k : Nat) (x : Trace) : (e.setTrace k x).freeIdx = e.freeIdx := rfl
@[simp] theorem Engine.setTrace_mode (k : Nat) (x : Trace) : (e.setTrace k x).mode = e.mode := rfl
@[simp] theorem Engine.setTrace_sdo (k : Nat) (x : Trace) : (e.setTrace k x).sdo = e.sdo := rfl
@[simp] theorem Engine.setTrace_sdoData (k : Nat) (x : Trace) : (e.setTrace k x).sdoData = e.sdoData := rfl
@[simp] theorem Engine.setTrace_readData (k : Nat) (x : Trace) : (e.setTrace k x).readData = e.readData := rfl
@[simp] theorem Engine.setTrace_out (k : Nat) (x : Trace) : (e.setTrace k x).out = e.out := rfl
@[simp] theorem Engine.setTrace_d (k : Nat) (x : Trace) : (e.setTrace k x).d = e.d := rfl
@[simp] theorem Engine.setTrace_host (k : Nat) (x : Trace) : (e.setTrace k x).host = e.host := rfl
@[simp] theorem Engine.setTrace_flt (k : Nat) (x : Trace) : (e.setTrace k x).flt = e.flt := rfl
@[simp] theorem Engine.setTrace_pan (k : Nat) (x : Trace) : (e.setTrace k x).pan = e.pan := rfl
@[simp] theorem Engine.setTrace_sup (k : Nat) (x : Trace) : (e.setTrace k x).sup = e.sup := rfl
@[simp] theorem Engine.setTrace_img (k : Nat) (x : Trace) : (e.setTrace k x).img = e.img := rfl
@[simp] theorem Engine.setTrace_path (k : Nat) (x : Trace) : (e.setTrace k x).path = e.path := rfl
@[simp] theorem Engine.setTrace_care (k : Nat) (x : Trace) : (e.setTrace k x).care = e.care := rfl
@[simp] theorem Engine.setTrace_mot (k : Nat) (x : Trace) : (e.setTrace k x).mot = e.mot := rfl
@[simp] theorem Engine.setTrace_mem (k : Nat) (x : Trace) : (e.setTrace k x).mem = e.mem := rfl
@[simp] theorem Engine.setTrace_integ (k : Nat) (x : Trace) : (e.setTrace k x).integ = e.integ := rfl
@[simp] theorem Engine.setTrace_pwr (k : Nat) (x : Trace) : (e.setTrace k x).pwr = e.pwr := rfl
@[simp] theorem Engine.setTrace_dawn (k : Nat) (x : Trace) : (e.setTrace k x).dawn = e.dawn := rfl
@[simp] theorem Engine.setTrace_net (k : Nat) (x : Trace) : (e.setTrace k x).net = e.net := rfl

/-! `setChan` -/

@[simp] theorem Engine.setChan_now (k : Nat) (x : Channel) : (e.setChan k x).now = e.now := rfl
@[simp] theorem Engine.setChan_freeIdx (k : Nat) (x : Channel) : (e.setChan k x).freeIdx = e.freeIdx := rfl
@[simp] theorem Engine.setChan_mode (k : Nat) (x : Channel) : (e.setChan k x).mode = e.mode := rfl
@[simp] theorem Engine.setChan_sdo (k : Nat) (x : Channel) : (e.setChan k x).sdo = e.sdo := rfl
@[simp] theorem Engine.setChan_sdoData (k : Nat) (x : Channel) : (e.setChan k x).sdoData = e.sdoData := rfl
@[simp] theorem Engine.setChan_readData (k : Nat) (x : Channel) : (e.setChan k x).readData = e.readData := rfl
@[simp] theorem Engine.setChan_out (k : Nat) (x : Channel) : (e.setChan k x).out = e.out := rfl
@[simp] theorem Engine.setChan_d (k : Nat) (x : Channel) : (e.setChan k x).d = e.d := rfl
@[simp] theorem Engine.setChan_host (k : Nat) (x : Channel) : (e.setChan k x).host = e.host := rfl
@[simp] theorem Engine.setChan_flt (k : Nat) (x : Channel) : (e.setChan k x).flt = e.flt := rfl
@[simp] theorem Engine.setChan_pan (k : Nat) (x : Channel) : (e.setChan k x).pan = e.pan := rfl
@[simp] theorem Engine.setChan_sup (k : Nat) (x : Channel) : (e.setChan k x).sup = e.sup := rfl
@[simp] theorem Engine.setChan_img (k : Nat) (x : Channel) : (e.setChan k x).img = e.img := rfl
@[simp] theorem Engine.setChan_path (k : Nat) (x : Channel) : (e.setChan k x).path = e.path := rfl
@[simp] theorem Engine.setChan_care (k : Nat) (x : Channel) : (e.setChan k x).care = e.care := rfl
@[simp] theorem Engine.setChan_mot (k : Nat) (x : Channel) : (e.setChan k x).mot = e.mot := rfl
@[simp] theorem Engine.setChan_integ (k : Nat) (x : Channel) : (e.setChan k x).integ = e.integ := rfl
@[simp] theorem Engine.setChan_ctl (k : Nat) (x : Channel) : (e.setChan k x).ctl = e.ctl := rfl
@[simp] theorem Engine.setChan_pwr (k : Nat) (x : Channel) : (e.setChan k x).pwr = e.pwr := rfl
@[simp] theorem Engine.setChan_dawn (k : Nat) (x : Channel) : (e.setChan k x).dawn = e.dawn := rfl
@[simp] theorem Engine.setChan_net (k : Nat) (x : Channel) : (e.setChan k x).net = e.net := rfl

/-! `setPll` -/

@[simp] theorem Engine.setPll_now (k : Nat) (x : Pll) : (e.setPll k x).now = e.now := rfl
@[simp] theorem Engine.setPll_freeIdx (k : Nat) (x : Pll) : (e.setPll k x).freeIdx = e.freeIdx := rfl
@[simp] theorem Engine.setPll_mode (k : Nat) (x : Pll) : (e.setPll k x).mode = e.mode := rfl
@[simp] theorem Engine.setPll_sdo (k : Nat) (x : Pll) : (e.setPll k x).sdo = e.sdo := rfl
@[simp] theorem Engine.setPll_sdoData (k : Nat) (x : Pll) : (e.setPll k x).sdoData = e.sdoData := rfl
@[simp] theorem Engine.setPll_readData (k : Nat) (x : Pll) : (e.setPll k x).readData = e.readData := rfl
@[simp] theorem Engine.setPll_out (k : Nat) (x : Pll) : (e.setPll k x).out = e.out := rfl
@[simp] theorem Engine.setPll_d (k : Nat) (x : Pll) : (e.setPll k x).d = e.d := rfl
@[simp] theorem Engine.setPll_host (k : Nat) (x : Pll) : (e.setPll k x).host = e.host := rfl
@[simp] theorem Engine.setPll_flt (k : Nat) (x : Pll) : (e.setPll k x).flt = e.flt := rfl
@[simp] theorem Engine.setPll_pan (k : Nat) (x : Pll) : (e.setPll k x).pan = e.pan := rfl
@[simp] theorem Engine.setPll_sup (k : Nat) (x : Pll) : (e.setPll k x).sup = e.sup := rfl
@[simp] theorem Engine.setPll_img (k : Nat) (x : Pll) : (e.setPll k x).img = e.img := rfl
@[simp] theorem Engine.setPll_path (k : Nat) (x : Pll) : (e.setPll k x).path = e.path := rfl
@[simp] theorem Engine.setPll_care (k : Nat) (x : Pll) : (e.setPll k x).care = e.care := rfl
@[simp] theorem Engine.setPll_mot (k : Nat) (x : Pll) : (e.setPll k x).mot = e.mot := rfl
@[simp] theorem Engine.setPll_mem (k : Nat) (x : Pll) : (e.setPll k x).mem = e.mem := rfl
@[simp] theorem Engine.setPll_integ (k : Nat) (x : Pll) : (e.setPll k x).integ = e.integ := rfl
@[simp] theorem Engine.setPll_ctl (k : Nat) (x : Pll) : (e.setPll k x).ctl = e.ctl := rfl
@[simp] theorem Engine.setPll_dawn (k : Nat) (x : Pll) : (e.setPll k x).dawn = e.dawn := rfl
@[simp] theorem Engine.setPll_net (k : Nat) (x : Pll) : (e.setPll k x).net = e.net := rfl

/-! `setPeer` -/

@[simp] theorem Engine.setPeer_now (k : Nat) (x : Peer) : (e.setPeer k x).now = e.now := rfl
@[simp] theorem Engine.setPeer_freeIdx (k : Nat) (x : Peer) : (e.setPeer k x).freeIdx = e.freeIdx := rfl
@[simp] theorem Engine.setPeer_mode (k : Nat) (x : Peer) : (e.setPeer k x).mode = e.mode := rfl
@[simp] theorem Engine.setPeer_sdo (k : Nat) (x : Peer) : (e.setPeer k x).sdo = e.sdo := rfl
@[simp] theorem Engine.setPeer_sdoData (k : Nat) (x : Peer) : (e.setPeer k x).sdoData = e.sdoData := rfl
@[simp] theorem Engine.setPeer_readData (k : Nat) (x : Peer) : (e.setPeer k x).readData = e.readData := rfl
@[simp] theorem Engine.setPeer_out (k : Nat) (x : Peer) : (e.setPeer k x).out = e.out := rfl
@[simp] theorem Engine.setPeer_d (k : Nat) (x : Peer) : (e.setPeer k x).d = e.d := rfl
@[simp] theorem Engine.setPeer_host (k : Nat) (x : Peer) : (e.setPeer k x).host = e.host := rfl
@[simp] theorem Engine.setPeer_flt (k : Nat) (x : Peer) : (e.setPeer k x).flt = e.flt := rfl
@[simp] theorem Engine.setPeer_pan (k : Nat) (x : Peer) : (e.setPeer k x).pan = e.pan := rfl
@[simp] theorem Engine.setPeer_sup (k : Nat) (x : Peer) : (e.setPeer k x).sup = e.sup := rfl
@[simp] theorem Engine.setPeer_img (k : Nat) (x : Peer) : (e.setPeer k x).img = e.img := rfl
@[simp] theorem Engine.setPeer_path (k : Nat) (x : Peer) : (e.setPeer k x).path = e.path := rfl
@[simp] theorem Engine.setPeer_care (k : Nat) (x : Peer) : (e.setPeer k x).care = e.care := rfl
@[simp] theorem Engine.setPeer_mot (k : Nat) (x : Peer) : (e.setPeer k x).mot = e.mot := rfl
@[simp] theorem Engine.setPeer_mem (k : Nat) (x : Peer) : (e.setPeer k x).mem = e.mem := rfl
@[simp] theorem Engine.setPeer_integ (k : Nat) (x : Peer) : (e.setPeer k x).integ = e.integ := rfl
@[simp] theorem Engine.setPeer_ctl (k : Nat) (x : Peer) : (e.setPeer k x).ctl = e.ctl := rfl
@[simp] theorem Engine.setPeer_pwr (k : Nat) (x : Peer) : (e.setPeer k x).pwr = e.pwr := rfl
@[simp] theorem Engine.setPeer_dawn (k : Nat) (x : Peer) : (e.setPeer k x).dawn = e.dawn := rfl

/-! The fields an update writes -/

@[simp] theorem Engine.done_sdo : e.done.sdo = 0 := rfl
@[simp] theorem Engine.done_sdoData : e.done.sdoData = [] := rfl
@[simp] theorem Engine.refuse_sdo (c : Nat) : (e.refuse c).sdo = c := rfl
@[simp] theorem Engine.refuse_sdoData (c : Nat) : (e.refuse c).sdoData = [] := rfl
@[simp] theorem Engine.answer_sdo (bs : List Byte) : (e.answer bs).sdo = 0 := rfl
@[simp] theorem Engine.answer_sdoData (bs : List Byte) : (e.answer bs).sdoData = bs := rfl
@[simp] theorem Engine.send_out (o : Output) : (e.send o).out = o :: e.out := rfl
@[simp] theorem Engine.useFree_freeIdx : e.useFree.freeIdx = e.freeIdx + 1 := rfl
@[simp] theorem Engine.put_dom (i j v : Nat) : (e.put i j v).d.dom = e.d.dom := rfl
@[simp] theorem Engine.put_staged (i j v : Nat) : (e.put i j v).d.staged = e.d.staged := rfl
@[simp] theorem Engine.put_stagedDom (i j v : Nat) : (e.put i j v).d.stagedDom = e.d.stagedDom := rfl
@[simp] theorem Engine.put_atLaunch (i j v : Nat) : (e.put i j v).d.atLaunch = e.d.atLaunch := rfl
@[simp] theorem Engine.setDom_dict (i j : Nat) (v : List Byte) : (e.setDom i j v).d.dict = e.d.dict := rfl

end Sys2Proof.Machine
end

