-- ==== Sys2Proof/Laws/Ops.lean ====
section
/-! SUPPORT. Laws of the shared operations: an entry read after a write, units read after a write, when commands are taken,
and the operations over engine DRAM, each of which keeps its canonical form. -/

namespace Sys2Proof.Machine

variable (e : Engine)

/-! Entries -/

/-- Keys of entries with one-byte subindices are equal only for equal entries. -/
theorem ekey_inj {i j i' j' : Nat} (h : j < 256) (h' : j' < 256) : ekey i j = ekey i' j' ↔ i = i' ∧ j = j' := by
  unfold ekey
  omega

@[simp] theorem Engine.ent_setEnt (k k' v : Nat) : (e.setEnt k v).ent k' = if k' = k then v else e.ent k' := by
  simp [Engine.ent, Engine.setEnt, cellGet_cellSet]

@[simp] theorem Engine.get_put_same (i j v : Nat) : (e.put i j v).get i j = v := by
  simp [Engine.get, Engine.put]

theorem Engine.get_put (i j v i' j' : Nat) :
    (e.put i j v).get i' j' = if ekey i' j' = ekey i j then v else e.get i' j' := by
  simp [Engine.get, Engine.put]

theorem Engine.get_put_ne {i j v i' j' : Nat} (h : ekey i' j' ≠ ekey i j) : (e.put i j v).get i' j' = e.get i' j' := by
  simp [Engine.get_put, h]

/-- A write of an entry leaves every other entry with a one-byte subindex alone. -/
theorem Engine.get_put_other {i j v i' j' : Nat} (hj : j < 256) (hj' : j' < 256) (h : ¬ (i' = i ∧ j' = j)) :
    (e.put i j v).get i' j' = e.get i' j' := e.get_put_ne (by rw [Ne, ekey_inj hj' hj]; exact h)

theorem Engine.ent_put (i j v k : Nat) : (e.put i j v).ent k = if k = ekey i j then v else e.ent k := by
  simp [Engine.put]

/-- What an engine with the same entries reads. -/
theorem Engine.get_of_d {a b : Engine} (h : a.d = b.d) (i j : Nat) : a.get i j = b.get i j := by
  simp [Engine.get, Engine.ent, h]

@[simp] theorem Engine.get_send (o : Output) (i j : Nat) : (e.send o).get i j = e.get i j := rfl
@[simp] theorem Engine.get_done (i j : Nat) : e.done.get i j = e.get i j := rfl
@[simp] theorem Engine.get_refuse (c i j : Nat) : (e.refuse c).get i j = e.get i j := rfl
@[simp] theorem Engine.get_answer (bs : List Byte) (i j : Nat) : (e.answer bs).get i j = e.get i j := rfl
@[simp] theorem Engine.get_useFree (i j : Nat) : e.useFree.get i j = e.get i j := rfl

@[simp] theorem Engine.dom_setDom_same (i j : Nat) (v : List Byte) : (e.setDom i j v).dom i j = v := by
  simp [Engine.dom, Engine.setDom]

@[simp] theorem Engine.get_setDom (i j i' j' : Nat) (v : List Byte) : (e.setDom i j v).get i' j' = e.get i' j' := rfl
@[simp] theorem Engine.dom_put (i j i' j' v : Nat) : (e.put i j v).dom i' j' = e.dom i' j' := rfl

/-! Units -/

@[simp] theorem Engine.dma_setDma (k j : Nat) (x : Dma) : (e.setDma k x).dma j = if j = k then x else e.dma j := by
  simp [Engine.dma, Engine.setDma, cellGet_cellSet]
@[simp] theorem Engine.ctx_setCtx (k j : Nat) (x : Ctx) : (e.setCtx k x).ctx j = if j = k then x else e.ctx j := by
  simp [Engine.ctx, Engine.setCtx, cellGet_cellSet]
@[simp] theorem Engine.decEng_setDecEng (k j : Nat) (x : Option DecEng) :
    (e.setDecEng k x).decEng j = if j = k then x else e.decEng j := by
  simp [Engine.decEng, Engine.setDecEng, cellGet_cellSet]
@[simp] theorem Engine.bankScr_setBankScr (k j : Nat) (x : BankScr) :
    (e.setBankScr k x).bankScr j = if j = k then x else e.bankScr j := by
  simp [Engine.bankScr, Engine.setBankScr, cellGet_cellSet]
@[simp] theorem Engine.head_setHead (k j : Nat) (x : Head) : (e.setHead k x).head j = if j = k then x else e.head j := by
  simp [Engine.head, Engine.setHead, cellGet_cellSet]
@[simp] theorem Engine.axis_setAxis (k j : Nat) (x : Axis) : (e.setAxis k x).axis j = if j = k then x else e.axis j := by
  simp [Engine.axis, Engine.setAxis, cellGet_cellSet]
@[simp] theorem Engine.enc_setEnc (k j : Nat) (x : Encoder) : (e.setEnc k x).enc j = if j = k then x else e.enc j := by
  simp [Engine.enc, Engine.setEnc, cellGet_cellSet]
@[simp] theorem Engine.inp_setInp (k j : Nat) (x : InputState) : (e.setInp k x).inp j = if j = k then x else e.inp j := by
  simp [Engine.inp, Engine.setInp, cellGet_cellSet]
@[simp] theorem Engine.loop_setLoop (k j : Nat) (x : LoopState) : (e.setLoop k x).loop j = if j = k then x else e.loop j := by
  simp [Engine.loop, Engine.setLoop, cellGet_cellSet]
@[simp] theorem Engine.trace_setTrace (k j : Nat) (x : Trace) : (e.setTrace k x).trace j = if j = k then x else e.trace j := by
  simp [Engine.trace, Engine.setTrace, cellGet_cellSet]
@[simp] theorem Engine.chan_setChan (k j : Nat) (x : Channel) : (e.setChan k x).chan j = if j = k then x else e.chan j := by
  simp [Engine.chan, Engine.setChan, cellGet_cellSet]
@[simp] theorem Engine.pll_setPll (k j : Nat) (x : Pll) : (e.setPll k x).pll j = if j = k then x else e.pll j := by
  simp [Engine.pll, Engine.setPll, cellGet_cellSet]
@[simp] theorem Engine.peer_setPeer (k j : Nat) (x : Peer) : (e.setPeer k x).peer j = if j = k then x else e.peer j := by
  simp [Engine.peer, Engine.setPeer, cellGet_cellSet]

/-! When a command is taken -/

/-- A command on the engine leaves the queue and what outlives power alone. -/
theorem onEngine_next {f : Engine → Engine} {s t : State} (h : onEngine f s = .next t) :
    t.pending = s.pending ∧ t.nv = s.nv ∧ t.e = f s.e := by
  simp only [onEngine, Host.Outcome.next.injEq] at h
  subst h
  exact ⟨rfl, rfl, rfl⟩

theorem whenLive_live {f : Engine → Engine} (h : e.live = true) : whenLive f e = f e := by simp [whenLive, h]

theorem whenLive_held {f : Engine → Engine} (h : e.live = false) : whenLive f e = e := by simp [whenLive, h]

theorem request_served {idx : Nat} {f : Engine → Engine} (h : e.live = true) (hp : e.serving (owner idx) = true) :
    request idx f e = f e := by simp [request, h, hp]

theorem request_unserved {idx : Nat} {f : Engine → Engine} (h : e.live = true) (hp : e.serving (owner idx) = false) :
    request idx f e = e.refuse abState := by simp [request, h, hp]

theorem request_held {idx : Nat} {f : Engine → Engine} (h : e.live = false) : request idx f e = e := by simp [request, h]

/-! Engine DRAM -/

/-- Storing lines keeps the canonical form. -/
theorem storeLines_wf (a : Nat) (bs : List Byte) (l0 l1 : Nat) (h : Memory.wf e.mem = true) :
    Memory.wf (e.storeLines a bs l0 l1).mem = true := by
  simp only [Memory.wf, Bool.and_eq_true] at h ⊢
  exact ⟨⟨cellSetAll_wf _ _ _ h.1.1, spanAdd_from _ _ _ 0 (by omega) h.1.2⟩, cellEraseRange_wf _ _ _ _ h.2⟩

/-- A write keeps the canonical form. -/
theorem dramWrite_wf (a : Nat) (bs : List Byte) (h : Memory.wf e.mem = true) : Memory.wf (e.dramWrite a bs).mem = true := by
  simp only [Memory.wf, Bool.and_eq_true] at h ⊢
  exact ⟨⟨cellSetAll_wf _ _ _ h.1.1, spanAdd_fold _ _ h.1.2⟩, cellErase_fold _ _ _ h.2⟩

/-- Clearing keeps the canonical form. -/
theorem dramClear_wf (a n : Nat) (h : Memory.wf e.mem = true) : Memory.wf (e.dramClear a n).mem = true := by
  simp only [Memory.wf, Bool.and_eq_true] at h ⊢
  exact ⟨⟨cellEraseRange_wf _ _ _ _ h.1.1, spanAdd_from _ _ _ 0 (by omega) h.1.2⟩, cellEraseRange_wf _ _ _ _ h.2⟩

/-- Marking leaves nothing listed. -/
theorem dramMark_wf : Memory.wf e.dramMark.mem = true := by
  simp [Memory.wf, Engine.dramMark, cellsWf, cellsFrom, spansFrom]

@[simp] theorem put_wf (i j v : Nat) : Memory.wf (e.put i j v).mem = Memory.wf e.mem := rfl

end Sys2Proof.Machine
end

