-- ==== Sys2Proof/Tests/Witnesses.lean ====
section
/-! SUPPORT. Witnesses: for each clause of each statement, a state and operands that meet its hypotheses together, so that no
statement is empty. One theorem for each part of Obligations.lean. -/

open Sys2Proof Sys2Proof.Machine
namespace Sys2Proof.Tests
set_option maxRecDepth 100000
set_option Elab.async false

/-- Store entries. -/
def sets (kvs : List (Nat × Nat × Nat)) (e : Engine) : Engine := kvs.foldl (fun e x => e.put x.1 x.2.1 x.2.2) e
/-- A running engine: Dawn done, all partitions serve, the PLLs are locked, the DRAM serves with 64 MiB written, life-cycle
state PRODUCE. -/
def run : State :=
  { nv := { dawns := 1 }
    e :=
      { mode := .running, now := 10000000000000, dawn := { partUp := 15 }, sup := { firstBoundary := true },
        d := { dict := [(0x200101, 9), (0x200102, 1), (0x400101, 1), (0x401001, 1), (0x401101, 1), (0x401201, 1), (0x401301, 1),
          (0x421101, 250), (0x428101, 2), (0x428201, 2), (0x428301, 2), (0x430001, 2)] },
        pan := { banks := 1, resNbr := 4, resW := 4096, resNbx := 1 },
        mem := { trained := true, written := [(0, 1048576)],
                 chans := (List.range 4).map (fun c => (c, { up := true, lrank := [0, 1, 2] })) } } }
/-- The running engine with a change. -/
def on (f : Engine → Engine) : State := { run with e := f run.e }

/-- States that meet the hypotheses of the clauses of EmptyQueueTicks. -/
theorem witness_EmptyQueueTicks :
    (∃ (s : State), s.pending = [] ∧ s.e.mode ≠ .powerOnReset) ∧
    (∃ (s : State), s.pending = [] ∧ s.e.mode = .powerOnReset) :=
  ⟨⟨run, by decide +kernel⟩,
   ⟨on fun e => { e with mode := .powerOnReset }, by decide +kernel⟩⟩

/-- States that meet the hypotheses of the clauses of ClearingReads. -/
theorem witness_ClearingReads :
    ∃ (s : State), s.e.live = true :=
  ⟨run, by decide +kernel⟩

/-- States that meet the hypotheses of the clauses of Rw1cClears. -/
theorem witness_Rw1cClears :
    (∃ (s : State) (off : BitVec 24), s.e.live = true ∧ off.toNat = 0x1004) ∧
    (∃ (s : State) (off : BitVec 24) (d : Fin 32), s.e.live = true ∧ off.toNat = 0x10004 + 256 * d.val) ∧
    (∃ (s : State) (off : BitVec 24), s.e.live = true ∧ off.toNat ≠ 0x1004 ∧ (off.toNat < 0x10000 ∨ 0x12000 ≤ off.toNat ∨ off.toNat % 256 ≠ 4)) :=
  ⟨⟨run, 0x1004, by decide +kernel⟩,
   ⟨run, 0x11F04, 31, by decide +kernel⟩,
   ⟨run, 0x000000#24, by decide +kernel⟩⟩

/-- States that meet the hypotheses of the clauses of RegisterWriteStores. -/
theorem witness_RegisterWriteStores :
    (∃ (s : State) (off : BitVec 24) (d : Fin 32), s.e.live = true ∧ off.toNat = 0x10018 + 256 * d.val) ∧
    (∃ (s : State) (off : BitVec 24) (d : Fin 32), s.e.live = true ∧ off.toNat = 0x1001C + 256 * d.val) ∧
    (∃ (s : State) (off : BitVec 24) (d : Fin 32), s.e.live = true ∧ off.toNat = 0x10008 + 256 * d.val) ∧
    (∃ (s : State) (off : BitVec 24) (d : Fin 32), s.e.live = true ∧ off.toNat = 0x10024 + 256 * d.val) ∧
    (∃ (s : State) (off : BitVec 24), s.e.live = true ∧ off.toNat = 0x1008) ∧
    (∃ (s : State) (off : BitVec 24), s.e.live = true ∧ off.toNat = 0x100C) ∧
    (∃ (s : State) (off : BitVec 24), s.e.live = true ∧ off.toNat = 0x1010) ∧
    (∃ (s : State) (off : BitVec 24), s.e.live = true ∧ off.toNat = 0x40000 ∧ s.e.host.ringEnable = false) ∧
    (∃ (s : State) (off : BitVec 24), s.e.live = true ∧ off.toNat = 0x40000 ∧ s.e.host.ringEnable = true) ∧
    (∃ (s : State) (off : BitVec 24), s.e.live = true ∧ off.toNat < 0x1000) :=
  ⟨⟨run, 0x11F18, 31, by decide +kernel⟩,
   ⟨run, 0x11F1C, 31, by decide +kernel⟩,
   ⟨run, 0x11F08, 31, by decide +kernel⟩,
   ⟨run, 0x11F24, 31, by decide +kernel⟩,
   ⟨run, 0x1008, by decide +kernel⟩,
   ⟨run, 0x100C, by decide +kernel⟩,
   ⟨run, 0x1010, by decide +kernel⟩,
   ⟨run, 0x40000, by decide +kernel⟩,
   ⟨on fun e => { e with host.ringEnable := true }, 0x40000, by decide +kernel⟩,
   ⟨run, 0x000000#24, by decide +kernel⟩⟩

/-- States that meet the hypotheses of the clauses of DmaStartRuns. -/
theorem witness_DmaStartRuns :
    (∃ (s : State) (d : Fin 32), s.e.live = true ∧ (((s.e.wake 1).dma d.val).st = .idle ∨ ((s.e.wake 1).dma d.val).st = .stopped) ∧
      ((s.e.wake 1).dma d.val).chain = true ∧ ((s.e.wake 1).dma d.val).desc % 32 = 0) ∧
    (∃ (s : State) (d : Fin 32), s.e.live = true ∧ (((s.e.wake 1).dma d.val).st = .idle ∨ ((s.e.wake 1).dma d.val).st = .stopped) ∧
      ((s.e.wake 1).dma d.val).chain = false ∧ ((s.e.wake 1).dma d.val).mode = 0 ∧
        ((s.e.wake 1).dma d.val).dst + ((s.e.wake 1).dma d.val).count ≤ (s.e.wake 1).mem.usable) ∧
    (∃ (s : State) (d : Fin 32), s.e.live = true ∧ ((s.e.wake 1).dma d.val).st ≠ .idle ∧ ((s.e.wake 1).dma d.val).st ≠ .stopped) ∧
    (∃ (s : State) (d : Fin 32) (desc : _), (s.e.dma d.val).exec = some desc ∧ s.e.live = true ∧ (s.e.dma d.val).remain = 0 ∧
      (s.e.dma d.val).st = .running ∧ (s.e.dma d.val).direct = true ∧ desc.ctrl = 0) :=
  ⟨⟨on fun e => e.setDma 0 { chain := true }, 0, by decide +kernel⟩,
   ⟨run, 0, by decide +kernel⟩,
   ⟨on fun e => e.setDma 0 { st := .running }, 0, by decide +kernel⟩,
   ⟨on fun e => e.setDma 0 { st := .running, direct := true, exec := some {} }, 0, _, rfl, by decide +kernel⟩⟩

/-- States that meet the hypotheses of the clauses of DmaStopDoorbellReset. -/
theorem witness_DmaStopDoorbellReset :
    (∃ (s : State) (d : Fin 32), s.e.live = true ∧ ((s.e.wake 1).dma d.val).st = .running ∧ ((s.e.wake 1).dma d.val).fetching = none ∧
      ((s.e.wake 1).dma d.val).rereading = false) ∧
    (∃ (s : State) (d : Fin 32), s.e.live = true ∧ ((s.e.wake 1).dma d.val).st = .atEnd ∧ ((s.e.wake 1).dma d.val).irqEn = false) ∧
    (∃ (s : State) (d : Fin 32), s.e.live = true ∧ ((s.e.wake 1).dma d.val).st = .running) ∧
    (∃ (s : State) (d : Fin 32), s.e.live = true ∧ ((s.e.wake 1).dma d.val).st = .atEnd ∧ ((s.e.wake 1).dma d.val).rereading = false) ∧
    (∃ (s : State) (d : Fin 32), s.e.live = true ∧ (((s.e.wake 1).dma d.val).st = .error ∨ ((s.e.wake 1).dma d.val).st = .stopped)) ∧
    (∃ (s : State) (d : Fin 32), s.e.live = true ∧ ((s.e.wake 1).dma d.val).st ≠ .error ∧ ((s.e.wake 1).dma d.val).st ≠ .stopped) :=
  ⟨⟨on fun e => e.setDma 0 { st := .running }, 0, by decide +kernel⟩,
   ⟨on fun e => e.setDma 0 { st := .atEnd }, 0, by decide +kernel⟩,
   ⟨on fun e => e.setDma 0 { st := .running }, 0, by decide +kernel⟩,
   ⟨on fun e => e.setDma 0 { st := .atEnd }, 0, by decide +kernel⟩,
   ⟨on fun e => e.setDma 0 { st := .stopped }, 0, by decide +kernel⟩,
   ⟨run, 0, by decide +kernel⟩⟩

/-- States that meet the hypotheses of the clauses of DmaDescriptorFlow. -/
theorem witness_DmaDescriptorFlow :
    (∃ (s : State) (d : Fin 32) (a : _), (s.e.dma d.val).fetching = some a ∧ s.e.live = true ∧ (s.e.dma d.val).irqEn = false) ∧
    (∃ (s : State) (d : Fin 32) (bs : List Byte) (a : _), (s.e.dma d.val).fetching = some a ∧ s.e.live = true ∧ (parseDesc bs).ctrl = 0 ∧
      (parseDesc bs).dst + (parseDesc bs).count ≤ s.e.mem.usable) ∧
    (∃ (s : State) (d : Fin 32) (data : List Byte) (desc : _), (s.e.dma d.val).exec = some desc ∧ s.e.live = true ∧ desc.ctrl = 0 ∧
      data.length ≤ 4096 ∧ data.length ≤ (s.e.dma d.val).remain ∧ (s.e.dma d.val).remain ≤ desc.count ∧
        s.e.badPartial (desc.dst + (desc.count - (s.e.dma d.val).remain)) data.length = none) ∧
    (∃ (s : State) (d : Fin 32) (desc : _), (s.e.dma d.val).exec = some desc ∧ s.e.live = true ∧ (s.e.dma d.val).remain = 0 ∧
      (s.e.dma d.val).st = .running ∧ (s.e.dma d.val).direct = true ∧ desc.ctrl = 0) :=
  ⟨⟨on fun e => e.setDma 0 { fetching := some 64 }, 0, _, rfl, by decide +kernel⟩,
   ⟨on fun e => e.setDma 0 { fetching := some 64 }, 0, [], _, rfl, by decide +kernel⟩,
   ⟨on fun e => e.setDma 0 { exec := some {} }, 0, [], _, rfl, by decide +kernel⟩,
   ⟨on fun e => e.setDma 0 { st := .running, direct := true, exec := some {} }, 0, _, rfl, by decide +kernel⟩⟩

/-- States that meet the hypotheses of the clauses of DmaChainFollows. -/
theorem witness_DmaChainFollows :
    (∃ (s : State) (c : Fin 32) (desc : Desc), (s.e.dma c.val).exec = some desc ∧ s.e.live = true ∧ (s.e.dma c.val).remain = 0 ∧
      (s.e.dma c.val).st = .running ∧ (s.e.dma c.val).direct = false ∧ desc.ctrl = 0 ∧ desc.next % 32 = 0) ∧
    (∃ (s : State) (c : Fin 32) (desc : Desc), (s.e.dma c.val).exec = some desc ∧ s.e.live = true ∧ (s.e.dma c.val).remain = 0 ∧
      (s.e.dma c.val).st = .running ∧ (s.e.dma c.val).direct = false ∧ (s.e.dma c.val).dbPending = false ∧ (s.e.dma c.val).irqEn = false ∧
        desc.ctrl = 2 ^ 31) ∧
    (∃ (s : State) (c : Fin 32) (bs : List Byte), s.e.live = true ∧ (s.e.dma c.val).rereading = true ∧ (s.e.dma c.val).st = .atEnd ∧
      (s.e.dma c.val).dbPending = false ∧ (le (bs.take 4)).testBit 31 = true) ∧
    (∃ (s : State) (c : Fin 32) (bs : List Byte), s.e.live = true ∧ (s.e.dma c.val).rereading = true ∧ (le (bs.take 4)).testBit 31 = false ∧
      le ((bs.drop 4).take 8) % 32 = 0) ∧
    (∃ (s : State) (d : Fin 36), s.e.live = true ∧ 32 ≤ d.val ∧ d.val < 34) ∧
    (∃ (s : State) (d : Fin 36), s.e.live = true ∧ (s.e.dma d.val).exec = none) ∧
    (∃ (s : State) (d : Fin 36) (desc : Desc), (s.e.dma d.val).exec = some desc ∧ s.e.live = true ∧ desc.kind = 1 ∧
      s.e.ctxState (desc.dst % 256) = 1 ∧ s.e.intakeReady (desc.dst % 256) (s.e.dma d.val).remain = true) :=
  ⟨⟨on fun e => e.setDma 0 { st := .running, exec := some {} }, 0, _, rfl, by decide +kernel⟩,
   ⟨on fun e => e.setDma 0 { st := .running, exec := some { ctrl := 2 ^ 31 } }, 0, _, rfl, by decide +kernel⟩,
   ⟨on fun e => e.setDma 0 { rereading := true, st := .atEnd }, 0, [0x00#8, 0x00#8, 0x00#8, 0x80#8], by decide +kernel⟩,
   ⟨on fun e => e.setDma 0 { rereading := true }, 0, [], by decide +kernel⟩,
   ⟨run, 33, by decide +kernel⟩,
   ⟨run, 0, by decide +kernel⟩,
   ⟨on fun e => (sets [(0x2300, 2, 1), (0x2300, 0xB, 65536)] e).setDma 0 { exec := some { ctrl := 2 ^ 24 } }, 0, _, rfl, by decide +kernel⟩⟩

/-- States that meet the hypotheses of the clauses of EventRingCommands. -/
theorem witness_EventRingCommands :
    (∃ (s : State), s.e.live = true ∧ s.e.host.ringEnable = false ∧ s.e.host.lostSince = 0) ∧
    (∃ (s : State), s.e.live = true ∧ s.e.host.ringEnable = true) ∧
    (∃ (s : State), s.e.live = true ∧ s.e.host.lostSince = 0) ∧
    (∃ (s : State), s.e.live = true ∧ s.e.host.holdoffOn = true ∧ s.e.host.unsignalled = false) ∧
    (∃ (s : State), s.e.live = true ∧ s.e.host.holdoffOn = true ∧ s.e.host.unsignalled = true ∧ s.e.host.ringEnable = true ∧
      s.e.msixWord 3 % 2 = 0) :=
  ⟨⟨run, by decide +kernel⟩,
   ⟨on fun e => { e with host.ringEnable := true }, by decide +kernel⟩,
   ⟨run, by decide +kernel⟩,
   ⟨on fun e => { e with host.holdoffOn := true }, by decide +kernel⟩,
   ⟨on fun e => { e with host.holdoffOn := true, host.unsignalled := true, host.ringEnable := true, host.msix := [(3, 0)] }, by decide +kernel⟩⟩

/-- States that meet the hypotheses of the clauses of HostResets. -/
theorem witness_HostResets :
    (∃ (s : State), s.e.live = true ∧ (∀ c, c < 256 → s.e.ctxState c ≠ 1) ∧ s.e.idle = 0) ∧
    (∃ (s : State), s.e.live = true) :=
  ⟨⟨run, by decide +kernel⟩,
   ⟨run, by decide +kernel⟩⟩

/-- States that meet the hypotheses of the clauses of Bar2Accesses. -/
theorem witness_Bar2Accesses :
    (∃ (s : State) (a : BitVec 36) (n : Nat), s.e.live = true ∧ (s.e.wake 2).dramServing = true ∧ (s.e.wake 2).inDram a.toNat n = true ∧
      a.toNat + n ≤ 2 ^ 36 ∧ (s.e.wake 2).busError a.toNat n = none) ∧
    (∃ (s : State) (a : BitVec 36) (n : Nat), s.e.live = true ∧ (s.e.wake 2).inDram a.toNat n = false) ∧
    (∃ (s : State) (a : BitVec 36) (n : Nat), s.e.live = true ∧ (s.e.wake 2).dramServing = true ∧ (s.e.wake 2).inDram a.toNat n = true ∧
      a.toNat + n ≤ 2 ^ 36 ∧ (s.e.wake 2).busError a.toNat n ≠ none) ∧
    (∃ (s : State) (a : BitVec 36) (n : Nat) (data : List Byte), s.e.live = true ∧ (s.e.wake 2).dramServing = true ∧
      (s.e.wake 2).inDram a.toNat n = true ∧ a.toNat + n ≤ 2 ^ 36 ∧ data.length = n ∧ (s.e.wake 2).badPartial a.toNat n = none) :=
  ⟨⟨run, 0x000000000#36, 0, by decide +kernel⟩,
   ⟨on fun e => { e with mem := { e.mem with chans := [(0, { up := true, lrank := [0, 1, 2] })] } }, 0xC00000000, 1, by decide +kernel⟩,
   ⟨run, 0xfffffffff#36, 1, by decide +kernel⟩,
   ⟨run, 0x000000000#36, 0, [], by decide +kernel⟩⟩

/-- States that meet the hypotheses of the clauses of MailboxCommands. -/
theorem witness_MailboxCommands :
    (∃ (s : State), s.e.live = true ∧ (s.e.wake 1).host.mb.busy = false) ∧
    (∃ (s : State), s.e.live = true ∧ (s.e.wake 1).host.mb.busy = true) ∧
    (∃ (s : State), s.e.live = true) ∧
    (∃ (s : State) (op : _) (idx : _) (sub : _) (off : _) (len : _) (more : _), s.e.host.mb.taken = some (op, idx, sub, off, len, more) ∧
      s.e.live = true ∧ op ≠ 1 ∧ op ≠ 2 ∧ s.e.flag 0x2001 2 = true ∧ s.e.idle = 0 ∧ s.e.host.mb.irqEn = false) ∧
    (∃ (s : State) (idx : _) (sub : _) (len : _) (more : _), s.e.host.mb.taken = some (1, idx, sub, 0, len, more) ∧ s.e.live = true ∧
      idx ≠ 0x2600 ∧ s.e.flag 0x2001 2 = true ∧ s.e.idle = 0 ∧ s.e.host.mb.irqEn = false) :=
  ⟨⟨run, by decide +kernel⟩,
   ⟨on fun e => { e with host.mb.busy := true }, by decide +kernel⟩,
   ⟨run, by decide +kernel⟩,
   ⟨on fun e => { e with host.mb.taken := some (3, 0x2200, 4, 0, 4, false) }, _, _, _, _, _, _, rfl, by decide +kernel⟩,
   ⟨on fun e => { e with host.mb.taken := some (1, 0x2200, 4, 0, 4, false) }, _, _, _, _, rfl, by decide +kernel⟩⟩

/-- States that meet the hypotheses of the clauses of PcieLink. -/
theorem witness_PcieLink :
    (∃ (s : State), s.e.live = true) ∧
    (∃ (s : State) (d3 : _), s.e.live = true ∧ s.e.host.d3hot ≠ d3) ∧
    (∃ (s : State) (d3 : _), s.e.live = true ∧ s.e.host.d3hot = d3) :=
  ⟨⟨run, by decide +kernel⟩,
   ⟨run, true, by decide +kernel⟩,
   ⟨run, false, by decide +kernel⟩⟩

/-- States that meet the hypotheses of the clauses of PartitionLife. -/
theorem witness_PartitionLife :
    (∃ (s : State) (p : Fin 4), s.e.live = true ∧ bit s.e.dawn.partUp p.val = true) ∧
    (∃ (s : State) (p : Fin 4), s.e.live = true ∧ bit s.e.dawn.partUp p.val = false ∧ 7 ≤ s.e.get 0x2001 1 ∧ s.e.pan.holder = none ∧ p.val ≠ 2 ∧
      s.e.starting p.val = 0) ∧
    (∃ (s : State) (p : Fin 4), s.e.live = true ∧ bit s.e.dawn.partUp p.val = false ∧ 7 ≤ s.e.get 0x2001 1 ∧ s.e.pan.holder = none ∧ p.val ≠ 2 ∧
      s.e.starting p.val = 1) ∧
    (∃ (s : State) (p : Fin 4), s.e.live = true ∧ bit s.e.dawn.partUp p.val = false ∧ 6 ≤ s.e.get 0x2001 1 ∧ s.e.mode = .running ∧
      s.e.starting p.val = 1) :=
  ⟨⟨run, 0, by decide +kernel⟩,
   ⟨on fun e => { e with dawn.partUp := 0 }, 0, by decide +kernel⟩,
   ⟨on fun e => { e with dawn.partUp := 0, dawn.partOld := [(0, 1), (1, 1), (3, 1)] }, 0, by decide +kernel⟩,
   ⟨on fun e => { e with dawn.partUp := 0, dawn.partOld := [(0, 1), (1, 1), (3, 1)] }, 0, by decide +kernel⟩⟩

/-- States that meet the hypotheses of the clauses of PartitionImages. -/
theorem witness_PartitionImages :
    (∃ (s : State) (p : Fin 4) (img : List Byte), s.serves 3 ∧ img.length ≤ 4194304 ∧ s.e.get (0x4400 + p.val) 4 ≤ 1 ∧ s.e.stage < 5 ∧
      s.e.verifies p.val img = false) ∧
    (∃ (s : State) (p : Fin 4) (img : List Byte), s.serves 3 ∧ img.length ≤ 4194304 ∧ s.e.get (0x4400 + p.val) 4 ≤ 1 ∧ s.e.stage < 5 ∧
      s.e.get (0x4400 + p.val) 3 ≠ 0) ∧
    (∃ (s : State) (p : Fin 4) (img : List Byte), s.serves 3 ∧ img.length ≤ 4194304 ∧ s.e.get (0x4400 + p.val) 4 ≤ 1 ∧ s.e.stage < 5 ∧
      s.e.get (0x4400 + p.val) 3 = 0) ∧
    (∃ (s : State) (p : Fin 4) (img : List Byte), s.serves 3 ∧ img.length ≤ 4194304 ∧ s.e.get (0x4400 + p.val) 4 ≤ 1 ∧ s.e.stage < 5) :=
  ⟨⟨run, 0, [], by decide +kernel⟩,
   ⟨on fun e => sets [(0x4400, 3, 9)] e, 0, [], by decide +kernel⟩,
   ⟨run, 0, [], by decide +kernel⟩,
   ⟨run, 0, [], by decide +kernel⟩⟩

/-- States that meet the hypotheses of the clauses of JobCommands. -/
theorem witness_JobCommands :
    (∃ (s : State), s.serves 0 ∧ s.e.jobState ≠ 0) ∧
    (∃ (s : State), s.serves 0 ∧ s.e.jobState = 0 ∧ s.e.startRefused = true) ∧
    (∃ (s : State), s.serves 0 ∧ s.e.jobState = 0 ∧ s.e.startRefused = false) ∧
    (∃ (s : State), s.serves 0 ∧ s.e.jobState = 0) ∧
    (∃ (s : State), s.serves 0 ∧ s.e.jobState = 2) ∧
    (∃ (s : State), s.serves 0 ∧ s.e.jobState = 1) ∧
    (∃ (s : State), s.serves 0 ∧ s.e.hold 0 = false ∧ s.e.hold 1 = false) ∧
    (∃ (s : State), s.serves 0 ∧ s.e.jobState = 2 ∧ s.e.hold 0 = true ∧ s.e.hold 1 = false) ∧
    (∃ (s : State), s.serves 0 ∧ s.e.jobState = 2 ∧ s.e.hold 1 = true ∧ s.e.stopDemand = true) ∧
    (∃ (s : State), s.serves 0) :=
  ⟨⟨on fun e => sets [(0x2200, 2, 1)] e, by decide +kernel⟩,
   ⟨run, by decide +kernel⟩,
   ⟨on fun e => sets [(0x300F, 3, 38400), (0x2200, 5, 1200), (0x3460, 2, 0x3000000), (0x2430, 1, 0x100000000), (0x2430, 2, 0x8000000), (0x2430, 3,
     0x10000000)] e, by decide +kernel⟩,
   ⟨run, by decide +kernel⟩,
   ⟨on fun e => sets [(0x2200, 2, 2)] e, by decide +kernel⟩,
   ⟨on fun e => sets [(0x2200, 2, 1)] e, by decide +kernel⟩,
   ⟨run, by decide +kernel⟩,
   ⟨on fun e => sets [(0x2200, 2, 2), (0x2200, 3, 1)] e, by decide +kernel⟩,
   ⟨on fun e => sets [(0x2200, 2, 2), (0x2200, 3, 2), (0x3000, 2, 5)] e, by decide +kernel⟩,
   ⟨run, by decide +kernel⟩⟩

/-- States that meet the hypotheses of the clauses of JobAbortBlanks. -/
theorem witness_JobAbortBlanks :
    (∃ (s : State), s.serves 0 ∧ s.e.jobState = 0) ∧
    (∃ (s : State) (f : _), s.e.pan.flight = some f ∧ s.serves 0 ∧ s.e.jobState ≠ 0 ∧ f.aborted = false) ∧
    (∃ (s : State), s.serves 0 ∧ s.e.jobState ≠ 0 ∧ s.e.pan.flight = none) :=
  ⟨⟨run, by decide +kernel⟩,
   ⟨on fun e => { (sets [(0x2200, 2, 1)] e) with pan.flight := some {} }, _, rfl, by decide +kernel⟩,
   ⟨on fun e => sets [(0x2200, 2, 1)] e, by decide +kernel⟩⟩

/-- States that meet the hypotheses of the clauses of StagedWritesArm. -/
theorem witness_StagedWritesArm :
    (∃ (s : State), s.serves 0 ∧ s.e.armRefused = true) ∧
    (∃ (s : State), s.serves 0 ∧ s.e.armRefused = false ∧ s.e.jobState ≠ 0) ∧
    (∃ (s : State), s.serves 0 ∧ s.e.armRefused = false ∧ s.e.jobState = 0) :=
  ⟨⟨on fun e => sets [(0x2780, 1, 40000)] e, by decide +kernel⟩,
   ⟨on fun e => sets ([(0x2200, 2, 1), (0x2201, 3, 10000000), (0x2201, 5, 64), (0x301F, 3, 0), (0x3005, 2,
     4294967295)] ++ (List.range 128).map (fun h => (0x2520, h + 1, 6))) e, by decide +kernel⟩,
   ⟨on fun e => sets ([(0x300F, 3, 38400), (0x2200, 5, 1200), (0x3460, 2, 0x3000000), (0x2430, 1, 0x100000000), (0x2430, 2, 0x8000000), (0x2430, 3,
     0x10000000), (0x2201, 3, 10000000), (0x2201, 5, 64), (0x301F, 3, 0), (0x3005, 2, 4294967295)] ++ (List.range 128).map (fun h => (0x2520,
       h + 1, 6))) e, by decide +kernel⟩⟩

/-- States that meet the hypotheses of the clauses of LaunchAndGate. -/
theorem witness_LaunchAndGate :
    (∃ (s : State), s.e.live = true ∧ s.e.jobState ≠ 2) ∧
    (∃ (s : State), s.e.live = true ∧ s.e.jobState = 2 ∧ s.e.pan.flight = none ∧ s.e.pan.launched < s.e.get 0x2202 5 ∧ s.e.pan.returning = false ∧
      s.e.atRest 0 = true ∧ s.e.feedOk = true ∧ s.e.stopDemand = false ∧ s.e.stage < 3 ∧ s.e.pllsLocked = true ∧ s.e.gateFails = []) ∧
    (∃ (s : State), s.e.live = true ∧ s.e.jobState = 2 ∧ s.e.pan.flight = none ∧ s.e.pan.returning = true ∧ s.e.atRest 0 = true ∧
      s.e.feedOk = true ∧ s.e.stopDemand = false ∧ s.e.stage < 3 ∧ s.e.pllsLocked = true ∧ s.e.gateFails = []) ∧
    (∃ (s : State), s.e.live = true ∧ s.e.jobState = 2 ∧ s.e.pan.flight = none ∧ s.e.pan.launched < s.e.get 0x2202 5 ∧ s.e.atRest 0 = true ∧
      s.e.feedOk = true ∧ 3 ≤ s.e.stage) ∧
    (∃ (s : State) (f : Flight), s.e.pan.flight = some f ∧ s.e.live = true ∧ f.ret = false ∧ f.gatePassed = false ∧ s.e.atRest 1 = true) ∧
    (∃ (s : State) (f : Flight), s.e.pan.flight = some f ∧ s.e.live = true ∧ f.ret = false ∧ f.gatePassed = false ∧ s.e.atRest 1 = false) :=
  ⟨⟨run, by decide +kernel⟩,
   ⟨on fun e => { ((sets [(0x3000, 2, 6), (0x3010, 2, 6), (0x2200, 2, 2), (0x2202, 5, 1)] e).setAxis 0 { restSince := some 0 }) with pan := { e.pan with t0 := 20000000000000 } }, by decide +kernel⟩,
   ⟨on fun e => { ((sets [(0x3000, 2, 6), (0x3010, 2, 6), (0x2200, 2, 2)] e).setAxis 0 { restSince := some 0 }) with pan := { e.pan with returning := true } }, by decide +kernel⟩,
   ⟨on fun e => { ((sets [(0x3000, 2, 6), (0x3010, 2, 6), (0x2200, 2, 2), (0x2202, 5, 1), (0x4200, 4, 3)] e).setAxis 0 { restSince := some 0 }) with pan := { e.pan with t0 := 20000000000000 } }, by decide +kernel⟩,
   ⟨on fun e => { ((sets [(0x3010, 2, 6)] e).setAxis 1 { restSince := some 0 }) with pan := { e.pan with flight := some {} } }, _, rfl,
     by decide +kernel⟩,
   ⟨on fun e => { e with pan.flight := some {} }, _, rfl, by decide +kernel⟩⟩

/-- States that meet the hypotheses of the clauses of TransitEnds. -/
theorem witness_TransitEnds :
    (∃ (s : State), s.e.live = true ∧ s.e.pan.flight = none) ∧
    (∃ (s : State) (f : _), s.e.pan.flight = some f ∧ s.e.live = true ∧ f.ret = true ∧ f.aborted = false ∧ f.stopped = false) ∧
    (∃ (s : State) (f : _), s.e.pan.flight = some f ∧ s.e.live = true ∧ f.ret = false ∧ f.aborted = false ∧ f.stopped = false ∧
      s.e.linesC ≤ f.line ∧ s.e.pan.launched < s.e.get 0x2202 5) :=
  ⟨⟨run, by decide +kernel⟩,
   ⟨on fun e => { e with pan.flight := some { ret := true } }, _, rfl, by decide +kernel⟩,
   ⟨on fun e => { (sets [(0x2202, 5, 1)] e) with pan.flight := some {} }, _, rfl, by decide +kernel⟩⟩

/-- States that meet the hypotheses of the clauses of BoundaryAndForecast. -/
theorem witness_BoundaryAndForecast :
    (∃ (s : State), s.e.live = true ∧ s.e.jobState ≠ 1 ∧ s.e.jobState ≠ 3) ∧
    (∃ (s : State), s.e.live = true ∧ s.e.jobState ≠ 3) :=
  ⟨⟨run, by decide +kernel⟩,
   ⟨run, by decide +kernel⟩⟩

/-- States that meet the hypotheses of the clauses of ContextCommands. -/
theorem witness_ContextCommands :
    (∃ (s : State) (c : Fin 256), s.serves 0 ∧ s.e.ctxState c.val ≠ 0) ∧
    (∃ (s : State) (c : Fin 256), s.serves 0 ∧ s.e.ctxState c.val = 0 ∧ s.e.openRefused c.val = true) ∧
    (∃ (s : State) (c : Fin 256), s.serves 0 ∧ s.e.ctxState c.val = 0 ∧ s.e.openRefused c.val = false) ∧
    (∃ (s : State) (c : Fin 256), s.serves 0 ∧ s.e.ctxState c.val = 0) ∧
    (∃ (s : State) (c : Fin 256), s.serves 0 ∧ s.e.ctxState c.val = 1 ∧ (s.e.ctx c.val).wpos ≠ (s.e.ctx c.val).rpos) ∧
    (∃ (s : State) (c : Fin 256), s.serves 0 ∧ (s.e.ctxState c.val = 2 ∨ s.e.ctxState c.val = 3 ∨ (s.e.ctxState c.val = 1 ∧
      (s.e.ctx c.val).wpos = (s.e.ctx c.val).rpos))) ∧
    (∃ (s : State) (c : Fin 256), s.serves 0 ∧ s.e.ctxState c.val ≠ 3) ∧
    (∃ (s : State) (c : Fin 256), s.serves 0 ∧ s.e.ctxState c.val = 3 ∧ (s.e.ctx c.val).lastPassed = false) :=
  ⟨⟨on fun e => sets [(0x2300, 2, 1)] e, 0, by decide +kernel⟩,
   ⟨run, 0, by decide +kernel⟩,
   ⟨on fun e => sets [(0x23FF, 0xA, 0x20000000), (0x23FF, 0xB, 65536), (0x23FF, 6, 64), (0x23FF, 9, 64)] e, 255, by decide +kernel⟩,
   ⟨run, 0, by decide +kernel⟩,
   ⟨on fun e => (sets [(0x2300, 2, 1)] e).setCtx 0 { wpos := 64 }, 0, by decide +kernel⟩,
   ⟨on fun e => sets [(0x2300, 2, 1)] e, 0, by decide +kernel⟩,
   ⟨run, 0, by decide +kernel⟩,
   ⟨on fun e => sets [(0x2300, 2, 3)] e, 0, by decide +kernel⟩⟩

/-- States that meet the hypotheses of the clauses of DecodeBlocks. -/
theorem witness_DecodeBlocks :
    (∃ (s : State), s.e.live = true ∧ s.e.supplyRuns = false) ∧
    (∃ (s : State) (j : Nat) (c : Nat), firstIdx (fun j => (s.e.decEng j).isNone) (List.range 16) = some j ∧
      firstIdx s.e.eligible ((List.range 256).map (fun k => (s.e.sup.served + 1 + k) % 256)) = some c ∧ s.e.live = true ∧ s.e.supplyRuns = true) ∧
    (∃ (s : State) (j : Fin 16), s.e.live = true ∧ s.e.decEng j.val = none) ∧
    (∃ (s : State) (j : Fin 16) (d : DecEng) (hist : List Byte) (produced : Nat), s.e.decEng j.val = some d ∧
      decodeBlock (s.e.get (0x2300 + d.ctx) 9) (parseHeader (s.e.ringBytes d.ctx d.block.off 16)) (s.e.ringBytes d.ctx (d.block.off + 16) (parseHeader (s.e.ringBytes d.ctx d.block.off 16)).coded) (s.e.ctx d.ctx).hist (s.e.ctx d.ctx).produced = .ok hist produced ∧ s.e.live = true ∧ d.stalled = none ∧ (∀ i, i < d.block.len → s.e.lineOk (s.e.ringAddr d.ctx (d.block.off + i) / 64) = true) ∧ crc32c ((hist.take (parseHeader (s.e.ringBytes d.ctx d.block.off 16)).raw).reverse) = (parseHeader (s.e.ringBytes d.ctx d.block.off 16)).crc ∧ (parseHeader (s.e.ringBytes d.ctx d.block.off 16)).flags = 0 ∧ (s.e.ctx d.ctx).skipPad = 0) ∧
    (∃ (s : State) (j : Fin 16) (d : DecEng) (hist : List Byte) (produced : Nat), s.e.decEng j.val = some d ∧
      decodeBlock (s.e.get (0x2300 + d.ctx) 9) (parseHeader (s.e.ringBytes d.ctx d.block.off 16)) (s.e.ringBytes d.ctx (d.block.off + 16) (parseHeader (s.e.ringBytes d.ctx d.block.off 16)).coded) (s.e.ctx d.ctx).hist (s.e.ctx d.ctx).produced = .ok hist produced ∧ s.e.live = true ∧ d.stalled = none ∧ (∀ i, i < d.block.len → s.e.lineOk (s.e.ringAddr d.ctx (d.block.off + i) / 64) = true) ∧ crc32c ((hist.take (parseHeader (s.e.ringBytes d.ctx d.block.off 16)).raw).reverse) ≠ (parseHeader (s.e.ringBytes d.ctx d.block.off 16)).crc) ∧
    (∃ (s : State) (j : Fin 16) (d : _) (t0 : _), s.e.decEng j.val = some d ∧ d.stalled = some t0 ∧ s.e.live = true ∧
      s.e.buffered j.val + s.e.rawLenAt d.ctx d.block.off ≤ 98304) :=
  ⟨⟨run, by decide +kernel⟩,
   ⟨on fun e => (sets [(0x2200, 2, 2), (0x2300, 2, 1), (0x2300, 0xB, 65536)] e).setCtx 0 { blocks := [{ len := 16 }] }, _, _, rfl, rfl,
     by decide +kernel⟩,
   ⟨run, 0, by decide +kernel⟩,
   ⟨on fun e => { (((sets [(0x2300, 2, 1), (0x2300, 0xB, 65536)] e).setCtx 0 { blocks := [{ len := 16 }] }).setDecEng 0 (some { block := { len := 16 } })) with mem := { e.mem with bytes := [(0, 2)] } }, 0, _, _, _, rfl, rfl, by decide +kernel⟩,
   ⟨on fun e => { (((sets [(0x2300, 2, 1), (0x2300, 0xB, 65536)] e).setCtx 0 { blocks := [{ len := 16 }] }).setDecEng 0 (some { block := { len := 16 } })) with mem := { e.mem with bytes := [(0, 2), (12, 1)] } }, 0, _, _, _, rfl, rfl, by decide +kernel⟩,
   ⟨on fun e => (e.setDecEng 0 (some {})).setDecEng 0 (some { stalled := some 0 }), 0, _, _, rfl, rfl, by decide +kernel⟩⟩

/-- States that meet the hypotheses of the clauses of ProofEncoder. -/
theorem witness_ProofEncoder :
    (∃ (s : State), s.serves 0 ∧ 1 ≤ s.e.get 0x2471 2 ∧ s.e.get 0x2471 2 ≤ 3) ∧
    (∃ (s : State), s.serves 0 ∧ (s.e.get 0x2471 2 = 0 ∨ 3 < s.e.get 0x2471 2) ∧ s.e.proofRefused = true) ∧
    (∃ (s : State), s.serves 0 ∧ (s.e.get 0x2471 2 = 0 ∨ 3 < s.e.get 0x2471 2) ∧ s.e.proofRefused = false) ∧
    (∃ (s : State), s.serves 0 ∧ s.e.get 0x2471 2 = 2 ∧ s.e.sup.proof.units ≠ [] ∧ s.e.sup.proof.ended = none) ∧
    (∃ (s : State), s.serves 0 ∧ s.e.get 0x2471 2 = 0) ∧
    (∃ (s : State), s.serves 0) ∧
    (∃ (s : State) (v : BitVec 32), s.serves 0 ∧ s.e.get 0x2471 5 ≤ v.toNat) ∧
    (∃ (s : State) (v : BitVec 32), s.serves 0 ∧ v.toNat < s.e.get 0x2471 5 ∧ s.e.get 0x2471 7 ≤ v.toNat ∧ v.toNat ≤ s.e.get 0x2471 6 ∧
      s.e.get 0x2471 6 < s.e.get 0x2471 5 ∧ s.e.get 0x2471 2 = 3) ∧
    (∃ (s : State), s.serves 0 ∧ s.e.sup.proof.units = []) ∧
    (∃ (s : State) (u : ProofUnit) (us : _), s.e.sup.proof.units = u :: us ∧ s.serves 0 ∧ s.e.get 0x2471 2 = 2 ∧ s.e.sup.proof.ended = none ∧
      s.e.sup.proof.off + s.e.get 0x2471 8 < (s.e.unitBytes u).length ∧ 0 < s.e.get 0x2471 8 ∧
        (proofBlock u.stream 0 (s.e.unitBytes u) ((u.width + 3) / 4) s.e.sup.proof.off (s.e.sup.proof.off + s.e.get 0x2471 8) s.e.sup.proof.start).length ≤ s.e.proofRoom ∧ s.e.mem.bad = []) :=
  ⟨⟨on fun e => sets [(0x2471, 2, 1)] e, by decide +kernel⟩,
   ⟨on fun e => sets [(0x2200, 2, 1)] e, by decide +kernel⟩,
   ⟨run, by decide +kernel⟩,
   ⟨on fun e => { (sets [(0x2471, 2, 2)] e) with sup.proof.units := [{ width := 4096, rows := 64 }] }, by decide +kernel⟩,
   ⟨run, by decide +kernel⟩,
   ⟨run, by decide +kernel⟩,
   ⟨run, 0xffffffff#32, by decide +kernel⟩,
   ⟨on fun e => sets [(0x2471, 2, 3)] e, 0x00000000#32, by decide +kernel⟩,
   ⟨run, by decide +kernel⟩,
   ⟨on fun e => { (sets [(0x2471, 2, 2), (0x2471, 4, 0x20000000), (0x2471, 5, 65536), (0x2471, 8, 1)] e) with sup := { e.sup with proof := { units := [{ width := 8, rows := 4 }] } } }, _, _, rfl, by decide +kernel⟩⟩

/-- States that meet the hypotheses of the clauses of ScreenRows. -/
theorem witness_ScreenRows :
    (∃ (s : State), s.e.live = true ∧ s.e.supplyRuns = false) ∧
    (∃ (s : State) (c : Fin 256), s.e.live = true ∧ s.e.supplyRuns = true ∧ s.e.ctxState c.val ≠ 0 ∧ s.e.rowsWaiting c.val ≠ 0 ∧
      s.e.unreleased ((s.e.get (0x2300 + c.val) 7 + (s.e.ctx c.val).row) / 64) = true) ∧
    (∃ (s : State) (c : Fin 256), s.e.live = true ∧ s.e.supplyRuns = true ∧ s.e.ctxState c.val = 1 ∧ s.e.rowsWaiting c.val ≠ 0 ∧
      s.e.unreleased ((s.e.get (0x2300 + c.val) 7 + (s.e.ctx c.val).row) / 64) = false ∧ (s.e.ctx c.val).heldSince = none ∧
        (s.e.ctx c.val).merging = false ∧ (s.e.get (0x2300 + c.val) 7 + (s.e.ctx c.val).row) % 4 ≠ 3 ∧ s.e.get (0x2300 + c.val) 8 = 8 ∧
          s.e.isLevel c.val = false ∧ s.e.sup.proof.units = [] ∧ s.e.flag (0x2410 + s.e.get (0x2300 + c.val) 3) 2 = false ∧
            s.e.get (0x2300 + c.val) 3 < 8 ∧ s.e.combinerUse + s.e.get (0x2300 + c.val) 6 ≤ 2 ^ 21) :=
  ⟨⟨run, by decide +kernel⟩,
   ⟨on fun e => { ((sets [(0x2200, 2, 2), (0x23FF, 2, 1), (0x23FF, 6, 64), (0x23FF, 7, 256), (0x23FF, 9, 64), (0x23FF, 8, 8)] e).setCtx 255 { checked := List.replicate 64 0 }) with pan := { e.pan with resNbr := 4 } }, 255, by decide +kernel⟩,
   ⟨on fun e => (sets [(0x2200, 2, 2), (0x23FF, 2, 1), (0x23FF, 6, 64), (0x23FF, 9, 64), (0x23FF, 8,
     8)] e).setCtx 255 { checked := List.replicate 64 0 }, 255, by decide +kernel⟩⟩

/-- States that meet the hypotheses of the clauses of EncodePasses. -/
theorem witness_EncodePasses :
    (∃ (s : State), s.e.live = true ∧ s.e.sup.encodeQ = []) ∧
    (∃ (s : State) (b : _) (bx : _) (by_ : _) (lane : _) (rest : _) (rawBytes : _), s.e.sup.encodeQ = (b, bx, by_, lane) :: rest ∧
      s.e.dramRead (s.e.pan.slotAddr (s.e.pan.slot b bx by_)) 1024 = some rawBytes ∧ s.e.live = true ∧
        cellGet (fun _ => false) s.e.sup.bad (s.e.pan.slot b bx by_) = false ∧ s.e.get 0x2470 (lane + 1) = 0 ∧ lane < 16 ∧ s.e.mem.bad = []) :=
  ⟨⟨run, by decide +kernel⟩,
   ⟨on fun e => { (sets [(0x2470, 1, 0)] e) with sup.encodeQ := [(0, 0, 0, 0)] }, _, _, _, _, _, _, rfl, rfl, by decide +kernel⟩⟩

/-- States that meet the hypotheses of the clauses of ScreeningTables. -/
theorem witness_ScreeningTables :
    (∃ (s : State) (b : Fin 8) (data : List Byte), s.serves 0 ∧ data.length ≤ 2048 ∧ s.e.flag (0x2410 + b.val) 2 = true) ∧
    (∃ (s : State) (b : Fin 8) (data : List Byte), s.serves 0 ∧ data.length < 2048 ∧ s.e.flag (0x2410 + b.val) 2 = false) ∧
    (∃ (s : State) (b : Fin 8), s.serves 0 ∧ s.e.flag (0x2410 + b.val) 2 = true) ∧
    (∃ (s : State), s.serves 0 ∧ s.e.flag 0x2430 9 = false) ∧
    (∃ (s : State), s.serves 0 ∧ s.e.flag 0x2430 9 = true) :=
  ⟨⟨on fun e => sets [(0x2410, 2, 1)] e, 0, [], by decide +kernel⟩,
   ⟨run, 0, [], by decide +kernel⟩,
   ⟨on fun e => sets [(0x2410, 2, 1)] e, 0, by decide +kernel⟩,
   ⟨run, by decide +kernel⟩,
   ⟨on fun e => sets [(0x2430, 9, 1)] e, by decide +kernel⟩⟩

/-- States that meet the hypotheses of the clauses of MaskLoads. -/
theorem witness_MaskLoads :
    (∃ (s : State) (m : Fin 16), s.serves 0 ∧ s.e.maskInUse m.val = true) ∧
    (∃ (s : State) (m : Fin 16), s.serves 0 ∧ s.e.maskInUse m.val = false ∧ s.e.dramRead (s.e.get (0x2510 + m.val) 1) 65536 = none) :=
  ⟨⟨on fun e => sets [(0x2200, 2, 1)] e, 0, by decide +kernel⟩,
   ⟨on fun e => sets [(0x251F, 1, 0xFFFFFFFFFF)] e, 15, by decide +kernel⟩⟩

/-- States that meet the hypotheses of the clauses of CatalogueWindow. -/
theorem witness_CatalogueWindow :
    (∃ (s : State), s.serves 0 ∧ 262143 < (s.e.get 0x2600 1)) ∧
    (∃ (s : State) (v : BitVec 32), s.serves 0 ∧ (s.e.get 0x2600 1) ≤ 262143 ∧
      bits (maskWrite (s.e.stagingEntry (s.e.get 0x2600 1)) v.toNat (s.e.get 0x2600 5) 32) 15 11 ≠ 0) ∧
    (∃ (s : State) (v : BitVec 32), s.serves 0 ∧ (s.e.get 0x2600 1) ≤ 262143 ∧
      bits (maskWrite (s.e.stagingEntry (s.e.get 0x2600 1)) v.toNat (s.e.get 0x2600 5) 32) 15 11 = 0 ∧
        cellGet (fun _ => false) s.e.img.poisonS (s.e.get 0x2600 1) = false ∧ s.e.flag 0x2600 4 = true) ∧
    (∃ (s : State), s.serves 0 ∧ (s.e.get 0x2600 1) ≤ 262143 ∧ cellGet (fun _ => false) s.e.img.poisonS (s.e.get 0x2600 1) = false ∧
      s.e.flag 0x2600 4 = false) ∧
    (∃ (s : State), s.serves 0 ∧ (s.e.get 0x2600 1) ≤ 262143 ∧ cellGet (fun _ => false) s.e.img.poisonS (s.e.get 0x2600 1) = false ∧
      s.e.flag 0x2600 4 = true) :=
  ⟨⟨on fun e => sets [(0x2600, 1, 262144)] e, by decide +kernel⟩,
   ⟨run, 0xffffffff#32, by decide +kernel⟩,
   ⟨on fun e => sets [(0x2600, 4, 1)] e, 0x00000000#32, by decide +kernel⟩,
   ⟨run, by decide +kernel⟩,
   ⟨on fun e => sets [(0x2600, 4, 1)] e, by decide +kernel⟩⟩

/-- States that meet the hypotheses of the clauses of CatalogueImages. -/
theorem witness_CatalogueImages :
    ∃ (s : State), s.serves 0 ∧ 128 < (s.e.get 0x2601 3) + (s.e.get 0x2601 4) :=
  ⟨on fun e => sets [(0x2601, 3, 127)] e, by decide +kernel⟩

/-- States that meet the hypotheses of the clauses of EclipseCommands. -/
theorem witness_EclipseCommands :
    (∃ (s : State) (h : Fin 128), s.serves 0 ∧ s.e.svc h.val ≠ 0) ∧
    (∃ (s : State) (h : Fin 128), s.serves 0 ∧ s.e.svc h.val = 0 ∧ s.e.passes ≠ 1) ∧
    (∃ (s : State) (h : Fin 128), s.serves 0 ∧ s.e.svc h.val ≠ 1) ∧
    (∃ (s : State) (h : Fin 128), s.serves 0 ∧ s.e.svc h.val = 1) :=
  ⟨⟨on fun e => sets [(0x2520, 1, 1)] e, 0, by decide +kernel⟩,
   ⟨run, 0, by decide +kernel⟩,
   ⟨run, 0, by decide +kernel⟩,
   ⟨on fun e => sets [(0x2520, 1, 1)] e, 0, by decide +kernel⟩⟩

/-- States that meet the hypotheses of the clauses of FetchBlocks. -/
theorem witness_FetchBlocks :
    (∃ (s : State), s.e.live = true ∧ s.e.pan.flight = none) ∧
    (∃ (s : State) (b : Fin 8) (bx : Nat) (by_ : Nat) (w : Nat), s.e.tagOf (s.e.pan.slot b.val bx by_) = some w ∧ s.e.live = true ∧
      s.e.pan.flight.isSome = true ∧ cellFind (s.e.pan.slot b.val bx by_) s.e.path.fetch = some .unwritten ∧ 2 ≤ tagLen w ∧
        tagGen w = s.e.pan.gen by_) ∧
    (∃ (s : State) (b : Fin 8) (bx : Nat) (by_ : Nat) (bs : List Byte),
      s.e.dramRead (s.e.pan.slotAddr (s.e.pan.slot b.val bx by_)) (8 * min 128 (tagLen ((s.e.tagOf (s.e.pan.slot b.val bx by_)).getD 0))) = some bs ∧ s.e.live = true ∧ s.e.pan.flight.isSome = true ∧ cellFind (s.e.pan.slot b.val bx by_) s.e.path.fetch = some .requested ∧ acceptBlock ((s.e.tagOf (s.e.pan.slot b.val bx by_)).getD 0) bs = none) :=
  ⟨⟨run, by decide +kernel⟩,
   ⟨on fun e => { e with pan := { e.pan with flight := some {} }, path := { e.path with fetch := [(0, .unwritten)] }, mem := { e.mem with bytes := [(0, 2)] } }, 0, 0, 0, _, rfl, by decide +kernel⟩,
   ⟨on fun e => { e with pan.flight := some {}, path.fetch := [(0, .requested)] }, 0, 0, 0, _, rfl, by decide +kernel⟩⟩

/-- States that meet the hypotheses of the clauses of ComposeDeadlines. -/
theorem witness_ComposeDeadlines :
    (∃ (s : State), s.e.live = true ∧ s.e.composing = none) ∧
    (∃ (s : State) (f : Flight), s.e.composing = some f ∧ s.e.live = true ∧ s.e.path.cutFor = some f.composed) ∧
    (∃ (s : State) (f : Flight), s.e.composing = some f ∧ s.e.live = true ∧ s.e.path.cutFor ≠ some f.composed) ∧
    (∃ (s : State), s.e.live = true ∧ s.e.pan.flight = none) ∧
    (∃ (s : State) (f : Flight), s.e.pan.flight = some f ∧ s.e.live = true ∧ f.ret = false ∧ f.composed < s.e.linesC ∧ f.composed ≤ f.line ∧
      s.e.get 0x4281 1 = 2) :=
  ⟨⟨run, by decide +kernel⟩,
   ⟨on fun e => { (sets [(0x2700, 0xB, 1)] e) with pan := { e.pan with flight := some {} }, path := { e.path with cutFor := some 0 } }, _, rfl,
     by decide +kernel⟩,
   ⟨on fun e => { (sets [(0x2700, 0xB, 1)] e) with pan := { e.pan with flight := some {} } }, _, rfl, by decide +kernel⟩,
   ⟨run, by decide +kernel⟩,
   ⟨on fun e => { (sets [(0x2700, 11, 10)] e) with pan.flight := some {} }, _, rfl, by decide +kernel⟩⟩

/-- States that meet the hypotheses of the clauses of ComposeLines. -/
theorem witness_ComposeLines :
    (∃ (s : State), s.e.live = true ∧ s.e.composing = none) ∧
    (∃ (s : State) (f : Flight), s.e.composing = some f ∧ s.e.live = true ∧ s.e.path.started.isSome = true) ∧
    (∃ (s : State) (f : Flight), s.e.composing = some f ∧ s.e.live = true ∧ s.e.path.started = none ∧ s.e.path.cutFor = some f.composed ∧
      s.e.enabledLoops 0 128 = []) ∧
    (∃ (s : State), s.e.live = true ∧ s.e.path.started = none) ∧
    (∃ (s : State) (f : Flight), s.e.pan.flight = some f ∧ (∀ k, (cellGet (fun _ => ({} : RowPlan)) s.e.img.plans k).poisoned = false) ∧
      s.e.live = true ∧ s.e.path.started = some f.composed ∧ s.e.img.poisonB = [] ∧ s.e.img.poisonM = [] ∧ s.e.img.poisonW = [] ∧
        s.e.img.poisonD = []) :=
  ⟨⟨run, by decide +kernel⟩,
   ⟨on fun e => { (sets [(0x2700, 0xB, 1)] e) with pan := { e.pan with flight := some {} }, path := { e.path with started := some 0 } }, _, rfl,
     by decide +kernel⟩,
   ⟨on fun e => { (sets [(0x2700, 0xB, 1)] e) with pan := { e.pan with flight := some {} }, path := { e.path with cutFor := some 0 } }, _, rfl,
     by decide +kernel⟩,
   ⟨run, by decide +kernel⟩,
   ⟨on fun e => { e with pan := { e.pan with flight := some {} }, path := { e.path with started := some 0 } }, _, rfl, fun _ => rfl,
     by decide +kernel⟩⟩

/-- States that meet the hypotheses of the clauses of FramesSent. -/
theorem witness_FramesSent :
    (∃ (s : State) (h : Fin 128) (f : Flight), s.e.pan.flight = some f ∧ s.e.live = true ∧ f.ret = false ∧ s.e.storeHeads.contains h.val = true ∧
      s.e.linesC ≤ (s.e.head h.val).frame) ∧
    (∃ (s : State) (h : Fin 128) (f : Flight), s.e.pan.flight = some f ∧ s.e.live = true ∧ f.ret = false ∧ s.e.storeHeads.contains h.val = true ∧
      f.line < s.e.linesC ∧ (s.e.head h.val).cut ≠ some f.line ∧ (s.e.head h.val).frame ≤ f.line + 1 ∧ (s.e.head h.val).serving = false) ∧
    (∃ (s : State) (h : Fin 128) (f : Flight), s.e.pan.flight = some f ∧ s.e.live = true ∧ f.ret = false ∧ s.e.storeHeads.contains h.val = true ∧
      f.line < s.e.linesC ∧ (s.e.head h.val).cut ≠ some f.line ∧ (s.e.head h.val).frame ≤ f.line ∧ (s.e.head h.val).serving = true ∧
        (s.e.head h.val).echoes = [] ∧ s.e.blankDemand = false ∧ f.gated = false ∧ s.e.svc h.val < 3) :=
  ⟨⟨on fun e => { e with pan.flight := some {} }, 0, _, rfl, by decide +kernel⟩,
   ⟨on fun e => { (sets [(0x2700, 11, 10)] e) with pan.flight := some {} }, 0, _, rfl, by decide +kernel⟩,
   ⟨on fun e => { ((sets [(0x2700, 11, 10)] e).setHead 0 { serving := true }) with pan.flight := some {} }, 0, _, rfl, by decide +kernel⟩⟩

/-- States that meet the hypotheses of the clauses of FiringTicks. -/
theorem witness_FiringTicks :
    (∃ (s : State), s.e.live = true ∧ s.e.pan.flight = none) ∧
    (∃ (s : State) (f : Flight), s.e.pan.flight = some f ∧ s.e.live = true ∧ s.e.tickReady f = false) ∧
    (∃ (s : State) (f : Flight), s.e.pan.flight = some f ∧ s.e.live = true ∧ s.e.tickReady f = true ∧ 0 < f.line ∧ (∀ h,
      h ∈ s.e.storeHeads → f.line < (s.e.head h).frame ∧ s.e.withheld f h f.line = none)) ∧
    (∃ (s : State), s.e.live = true) ∧
    (∃ (s : State) (h : Fin 128), s.e.live = true ∧ (s.e.head h.val).strobeHigh = false) ∧
    (∃ (s : State) (h : Fin 128), s.e.live = true ∧ (s.e.head h.val).strobeHigh = true ∧ s.e.svc h.val = 0 ∧ s.e.pan.flight = none) :=
  ⟨⟨run, by decide +kernel⟩,
   ⟨on fun e => { e with pan.flight := some {} }, _, rfl, by decide +kernel⟩,
   ⟨on fun e => { (sets [(0x2700, 0xB, 2)] e) with pan := { e.pan with flight := some { line := 1 }, banks := 0 }, path := { e.path with pos := 100000000 } }, _, rfl, by decide +kernel⟩,
   ⟨run, by decide +kernel⟩,
   ⟨run, 0, by decide +kernel⟩,
   ⟨on fun e => e.setHead 0 { strobeHigh := true }, 0, by decide +kernel⟩⟩

/-- States that meet the hypotheses of the clauses of StatusAndEcho. -/
theorem witness_StatusAndEcho :
    (∃ (s : State) (fr : List Byte), s.e.live = true ∧ fr.length ≠ 12) ∧
    (∃ (s : State) (h : Fin 128) (fr : List Byte), s.e.live = true ∧ fr.length = 12 ∧ le (fr.take 1) = 0x81 ∧
      le (fr.drop 10) = crc16 (fr.take 10) ∧ bit (le ((fr.drop 1).take 1)) 3 = true ∧ bit (le ((fr.drop 1).take 1)) 4 = true ∧
        (le ((fr.drop 8).take 2) % 1024) < s.e.get (0x2180 + h.val / 16) 2 ∧ s.e.care.fires = []) ∧
    (∃ (s : State) (h : Fin 128), s.e.live = true ∧ (s.e.head h.val).echoes.find? (fun c => c.fired) = none) ∧
    (∃ (s : State) (h : Fin 128) (c : _), (s.e.head h.val).echoes.find? (fun c => c.fired) = some c ∧ s.e.live = true) :=
  ⟨⟨run, [], by decide +kernel⟩,
   ⟨run, 127, ([0x81, 0x18, 0, 0, 0, 0, 0, 0, 0, 0] ++ toLe 2 (crc16 [0x81, 0x18, 0, 0, 0, 0, 0, 0, 0, 0])), by decide +kernel⟩,
   ⟨run, 0, by decide +kernel⟩,
   ⟨on fun e => e.setHead 0 { echoes := [{ fired := true }] }, 0, _, rfl, by decide +kernel⟩⟩

/-- States that meet the hypotheses of the clauses of Receivers. -/
theorem witness_Receivers :
    (∃ (s : State) (h : Fin 128), s.e.live = true ∧ s.e.idle = 0 ∧ s.e.get (0x2100 + h.val) 1 = 2) ∧
    (∃ (s : State) (h : Fin 128), s.e.live = true ∧ s.e.idle = 0 ∧ s.e.get (0x2100 + h.val) 1 = 0 ∧ (s.e.head h.val).suspended = 0 ∧
      (s.e.svc h.val = 0 ∨ s.e.svc h.val = 1)) ∧
    (∃ (s : State) (h : Fin 128), s.e.live = true ∧ s.e.idle = 0 ∧ s.e.get (0x2100 + h.val) 1 = 0 ∧ (s.e.head h.val).suspended = 0 ∧
      2 ≤ s.e.svc h.val) ∧
    (∃ (s : State) (h : Fin 128), s.e.live = true ∧ s.e.idle = 0 ∧ s.e.get (0x2100 + h.val) 1 = 0 ∧ (s.e.head h.val).suspended = 3) ∧
    (∃ (s : State) (h : Fin 128), s.e.live = true ∧ s.e.idle = 0 ∧ s.e.get (0x2100 + h.val) 1 ≠ 2) ∧
    (∃ (s : State) (h : Fin 128), s.e.live = true ∧ s.e.idle = 0 ∧ s.e.get (0x2100 + h.val) 1 = 2 ∧ s.e.svc h.val = 0) ∧
    (∃ (s : State) (h : Fin 128), s.e.live = true ∧ s.e.idle = 0 ∧ s.e.get (0x2100 + h.val) 1 = 2 ∧ s.e.svc h.val = 2) ∧
    (∃ (s : State) (h : Fin 128), s.e.live = true ∧ s.e.idle = 0 ∧ (s.e.head h.val).suspended ≠ 3) ∧
    (∃ (s : State) (h : Fin 128), s.e.live = true ∧ s.e.idle = 0 ∧ (s.e.head h.val).suspended = 3 ∧ s.e.get (0x2100 + h.val) 1 = 0 ∧
      s.e.svc h.val = 2) :=
  ⟨⟨on fun e => sets [(0x2100, 1, 2)] e, 0, by decide +kernel⟩,
   ⟨run, 0, by decide +kernel⟩,
   ⟨on fun e => sets [(0x2520, 1, 2)] e, 0, by decide +kernel⟩,
   ⟨on fun e => e.setHead 0 { suspended := 3 }, 0, by decide +kernel⟩,
   ⟨run, 0, by decide +kernel⟩,
   ⟨on fun e => sets [(0x2100, 1, 2)] e, 0, by decide +kernel⟩,
   ⟨on fun e => sets [(0x2520, 1, 2), (0x2100, 1, 2)] e, 0, by decide +kernel⟩,
   ⟨run, 0, by decide +kernel⟩,
   ⟨on fun e => (sets [(0x2520, 1, 2)] e).setHead 0 { suspended := 3 }, 0, by decide +kernel⟩⟩

/-- States that meet the hypotheses of the clauses of HeadCommandLink. -/
theorem witness_HeadCommandLink :
    (∃ (s : State) (h : Fin 128) (c : HeadCmd), (s.e.head h.val).queue.find? s.e.mayIssue = some c ∧ s.e.live = true ∧
      (s.e.head h.val).waiting = none ∧ s.e.get 0x4282 1 = 2) ∧
    (∃ (s : State) (h : Fin 128), s.e.live = true ∧ (s.e.head h.val).waiting.isSome = true) ∧
    (∃ (s : State) (h : Fin 128), s.e.live = true ∧ (s.e.head h.val).waiting = none) ∧
    (∃ (s : State) (h : Fin 128) (fr : List Byte), s.e.live = true ∧ le ((fr.drop 1).take 1) ≠ (s.e.head h.val).tag) ∧
    (∃ (s : State) (h : Fin 128) (fr : List Byte) (c : HeadCmd) (n : Nat) (t0 : Nat), (s.e.head h.val).waiting = some (c, n, t0) ∧
      s.e.live = true ∧ fr.length = 6 + le ((fr.drop 3).take 1) ∧ le (fr.take 1) = 0x82 ∧
        le (fr.drop (4 + le ((fr.drop 3).take 1))) = crc16 (fr.take (4 + le ((fr.drop 3).take 1))) ∧
          le ((fr.drop 1).take 1) = (s.e.head h.val).tag ∧ c.host = true ∧ c.ty = 0x13 ∧ (le ((fr.drop 2).take 1)) ≤ 5) ∧
    (∃ (s : State) (h : Fin 128) (c : HeadCmd) (n : Nat) (t0 : Nat), (s.e.head h.val).waiting = some (c, n, t0) ∧ s.e.live = true ∧
      n < s.e.get 0x2703 4) ∧
    (∃ (s : State) (h : Fin 128) (c : HeadCmd) (n : Nat) (t0 : Nat), (s.e.head h.val).waiting = some (c, n, t0) ∧ s.e.live = true ∧
      s.e.get 0x2703 4 ≤ n ∧ c.host = false ∧ c.ty ≠ 0x10) :=
  ⟨⟨on fun e => e.setHead 0 { queue := [{ ty := 0x13, host := true }] }, 0, _, rfl, by decide +kernel⟩,
   ⟨on fun e => e.setHead 0 { waiting := some ({ ty := 0x13, host := true }, 0, 0) }, 0, by decide +kernel⟩,
   ⟨run, 0, by decide +kernel⟩,
   ⟨run, 0, [0x05#8, 0x04#8, 0x03#8, 0x02#8, 0x01#8, 0x00#8, 0x09#8, 0x08#8, 0x07#8, 0x06#8, 0x05#8, 0x04#8], by decide +kernel⟩,
   ⟨on fun e => e.setHead 127 { waiting := some ({ host := true }, 0, 0) }, 127, ([0x82, 0, 0, 0] ++ toLe 2 (crc16 [0x82, 0, 0, 0])), _, _, _, rfl,
     by decide +kernel⟩,
   ⟨on fun e => e.setHead 0 { waiting := some ({ ty := 0x13, host := true }, 0, 0) }, 0, _, _, _, rfl, by decide +kernel⟩,
   ⟨on fun e => (sets [(0x2703, 4, 0)] e).setHead 0 { waiting := some ({ ty := 0x11 }, 3, 0) }, 0, _, _, _, rfl, by decide +kernel⟩⟩

/-- States that meet the hypotheses of the clauses of HeadMemoryWindow. -/
theorem witness_HeadMemoryWindow :
    (∃ (s : State), s.serves 0 ∧ s.e.rxUp (s.e.get 0x2704 1) = false) ∧
    (∃ (s : State), s.serves 0 ∧ s.e.rxUp (s.e.get 0x2704 1) = true ∧ engineOwned (s.e.get 0x2704 2) (s.e.get 0x2704 3) = true) ∧
    (∃ (s : State), s.serves 0 ∧ s.e.rxUp (s.e.get 0x2704 1) = true ∧ s.e.jobState ≠ 0 ∧ s.e.svc (s.e.get 0x2704 1) = 0) ∧
    (∃ (s : State), s.serves 0 ∧ s.e.rxUp (s.e.get 0x2704 1) = true ∧ 32 < s.e.get 0x2704 3) ∧
    (∃ (s : State), s.serves 0 ∧ s.e.rxUp (s.e.get 0x2704 1) = true ∧ s.e.get 0x2704 3 ≤ 32) ∧
    (∃ (s : State), s.serves 0 ∧ s.e.rxUp (s.e.get 0x2704 1) = true ∧ engineOwned (s.e.get 0x2704 2) (s.e.get 0x2704 3) = false ∧
      s.e.get 0x2704 3 ≤ (s.e.dom 0x2704 4).length ∧ s.e.jobState = 0) ∧
    (∃ (s : State), s.serves 0 ∧ s.e.rxUp (s.e.get 0x2704 1) = true ∧ s.e.jobState = 0) ∧
    (∃ (s : State), s.serves 0 ∧ s.e.rxUp (s.e.get 0x2704 1) = true) :=
  ⟨⟨run, by decide +kernel⟩,
   ⟨on fun e => sets [(0x2704, 2, 32), (0x2100, 1, 2)] e, by decide +kernel⟩,
   ⟨on fun e => sets [(0x2200, 2, 1), (0x2100, 1, 2)] e, by decide +kernel⟩,
   ⟨on fun e => sets [(0x2704, 3, 33), (0x2100, 1, 2)] e, by decide +kernel⟩,
   ⟨on fun e => sets [(0x2100, 1, 2)] e, by decide +kernel⟩,
   ⟨on fun e => sets [(0x2704, 3, 0), (0x2100, 1, 2)] e, by decide +kernel⟩,
   ⟨on fun e => sets [(0x2100, 1, 2)] e, by decide +kernel⟩,
   ⟨on fun e => sets [(0x2100, 1, 2)] e, by decide +kernel⟩⟩

/-- States that meet the hypotheses of the clauses of HeadServiceChanges. -/
theorem witness_HeadServiceChanges :
    (∃ (s : State) (h : Fin 128), s.e.live = true ∧ s.e.serving 0 = true ∧ s.e.svc h.val = 2) ∧
    (∃ (s : State) (h : Fin 128), s.e.live = true ∧ s.e.serving 0 = true ∧ s.e.svc h.val ≠ 2 ∧ s.e.svc h.val ≠ 3) ∧
    (∃ (s : State) (h : Fin 128), s.e.live = true ∧ s.e.serving 0 = true ∧ s.e.svc h.val ≠ 5) ∧
    (∃ (s : State) (h : Fin 128), s.e.live = true ∧ s.e.serving 0 = true ∧ s.e.svc h.val = 5 ∧ s.e.check h.val 0 = true ∧
      s.e.check h.val 1 = true ∧ s.e.check h.val 2 = true ∧ s.e.jobState ≠ 0) ∧
    (∃ (s : State) (h : Fin 128), s.e.live = true ∧ s.e.svc h.val ≠ 4) ∧
    (∃ (s : State) (h : Fin 128), s.e.live = true ∧ s.e.svc h.val = 4 ∧ (s.e.head h.val).coolSince.isSome = true) ∧
    (∃ (s : State) (h : Fin 128), s.e.live = true ∧ s.e.rxUp h.val = true ∧ (s.e.head h.val).stale = false) ∧
    (∃ (s : State) (h : Fin 128), s.e.live = true ∧ s.e.rxUp h.val = false) ∧
    (∃ (s : State) (h : Fin 128), s.e.live = true ∧ (s.e.head h.val).stale = false) ∧
    (∃ (s : State) (h : Fin 128), s.e.live = true ∧ (s.e.head h.val).stale = true ∧ s.e.svc h.val = 0 ∧ s.e.care.watch = false) ∧
    (∃ (s : State) (h : Fin 128), s.e.live = true ∧ s.e.pan.flight = none ∧ s.e.care.watch = false ∧ (s.e.head h.val).meas = false ∧
      s.e.rxUp h.val = true ∧ s.e.flag (0x3100 + h.val) 0x0C ≠ (s.e.head h.val).idleWarm) ∧
    (∃ (s : State) (h : Fin 128), s.e.live = true ∧ s.e.flag (0x3100 + h.val) 0x0C = (s.e.head h.val).idleWarm) :=
  ⟨⟨on fun e => sets [(0x2520, 1, 2)] e, 0, by decide +kernel⟩,
   ⟨run, 0, by decide +kernel⟩,
   ⟨run, 0, by decide +kernel⟩,
   ⟨on fun e => sets [(0x2200, 2, 1), (0x2520, 1, 5), (0x2100, 14, 7)] e, 0, by decide +kernel⟩,
   ⟨run, 0, by decide +kernel⟩,
   ⟨on fun e => (sets [(0x2520, 1, 4)] e).setHead 0 { coolSince := some 0 }, 0, by decide +kernel⟩,
   ⟨on fun e => sets [(0x2100, 1, 2)] e, 0, by decide +kernel⟩,
   ⟨run, 0, by decide +kernel⟩,
   ⟨run, 0, by decide +kernel⟩,
   ⟨on fun e => e.setHead 0 { stale := true }, 0, by decide +kernel⟩,
   ⟨on fun e => sets [(0x2100, 1, 2), (0x3100, 12, 1)] e, 0, by decide +kernel⟩,
   ⟨run, 0, by decide +kernel⟩⟩

/-- States that meet the hypotheses of the clauses of MeasurementWindows. -/
theorem witness_MeasurementWindows :
    (∃ (s : State), s.e.live = true ∧ s.e.jobState = 0) ∧
    (∃ (s : State), s.e.live = true ∧ s.e.jobState ≠ 0 ∧ s.e.midTransit = false ∧ s.e.flag 0x3420 1 = true ∧ s.e.care.window = false ∧
      s.e.care.watch = false) ∧
    (∃ (s : State), s.e.live = true ∧ s.e.care.window = false) ∧
    (∃ (s : State), s.e.live = true ∧ s.e.care.window = true) ∧
    (∃ (s : State), s.e.live = true ∧ s.e.get 0x3420 9 = 0) ∧
    (∃ (s : State), s.e.live = true ∧ (s.e.jobState = 0 ∨ s.e.jobState = 3) ∧ s.e.care.sweep = false ∧ s.e.care.watch = false ∧
      s.e.get 0x3420 9 ≠ 0) ∧
    (∃ (s : State), s.e.live = true ∧ s.e.serving 1 = true ∧ s.e.jobState ≠ 0 ∧ s.e.jobState ≠ 3) ∧
    (∃ (s : State), s.e.live = true ∧ s.e.serving 1 = true ∧ s.e.jobState = 0 ∧ s.e.care.sweep = false) ∧
    (∃ (s : State), s.e.live = true ∧ s.e.serving 1 = true) :=
  ⟨⟨run, by decide +kernel⟩,
   ⟨on fun e => sets [(0x2200, 2, 1)] e, by decide +kernel⟩,
   ⟨run, by decide +kernel⟩,
   ⟨on fun e => { e with care.window := true }, by decide +kernel⟩,
   ⟨on fun e => sets [(0x3420, 9, 0)] e, by decide +kernel⟩,
   ⟨run, by decide +kernel⟩,
   ⟨on fun e => sets [(0x2200, 2, 1)] e, by decide +kernel⟩,
   ⟨run, by decide +kernel⟩,
   ⟨run, by decide +kernel⟩⟩

/-- States that meet the hypotheses of the clauses of ResistanceSlots. -/
theorem witness_ResistanceSlots :
    (∃ (s : State), s.e.live = true ∧ s.e.care.window = false) ∧
    (∃ (s : State) (h : Fin 128) (n : Nat) (rest : List Nat), (s.e.head h.val).todo = n :: rest ∧ s.e.live = true ∧ s.e.care.sweep = true ∧
      s.e.care.window = true ∧ s.e.sweepable h.val = true ∧ (∀ j, j < 128 → s.e.sweepable j = true → (s.e.head j).inSweep = true ∧
        (s.e.head j).meas = true)) ∧
    (∃ (s : State) (h : Fin 128) (n : Nat) (m : Nat) (rest : List Nat), (s.e.head h.val).todo = n :: m :: rest ∧ s.e.live = true ∧
      s.e.care.sweep = true ∧ s.e.care.window = true ∧ s.e.sweepable h.val = true ∧ (∀ j,
        j < 128 → s.e.sweepable j = true → (s.e.head j).inSweep = true ∧ (s.e.head j).meas = true) ∧
          cellGet (fun _ => false) s.e.img.poisonS (h.val * 2048 + n) = false) :=
  ⟨⟨run, by decide +kernel⟩,
   ⟨on fun e => { (sets [(0x2100, 1, 2)] e) with care := { e.care with sweep := true, window := true, heads := [(0, { inSweep := true, meas := true, todo := [2047] })] } }, 0, _, _, rfl, by decide +kernel⟩,
   ⟨on fun e => { (sets [(0x2100, 1, 2)] e) with care := { e.care with sweep := true, window := true, heads := [(0, { inSweep := true, meas := true, todo := [2047, 0] })] } }, 0, _, _, _, rfl, by decide +kernel⟩⟩

/-- States that meet the hypotheses of the clauses of DropWatch. -/
theorem witness_DropWatch :
    (∃ (s : State), s.serves 1 ∧ s.e.stage ≠ 0) ∧
    (∃ (s : State), s.serves 1 ∧ (s.e.jobState = 0 ∨ s.e.jobState = 3) ∧ s.e.atService = true ∧ s.e.stage = 0 ∧ s.e.care.watch = false ∧ (∃ h,
      h < 128 ∧ s.e.svc h = 5)) ∧
    (∃ (s : State), s.serves 1 ∧ s.e.care.watch = true) ∧
    (∃ (s : State), s.serves 1 ∧ s.e.care.watch = false) ∧
    (∃ (s : State), s.serves 1 ∧ s.e.care.watch = true ∧ s.e.care.openWins = [] ∧ s.e.care.watchLine < 32768 ∧ s.e.get 0x4282 1 = 2 ∧
      s.e.enabledLoops 0 128 = []) ∧
    (∃ (s : State) (b : Fin 8), s.serves 1 ∧ s.e.care.watch = true ∧ s.e.care.openWins.contains b.val = true ∧
      s.e.care.openWins.filter (· != b.val) ≠ [] ∧ s.e.care.watchHeads.contains (16 * b.val + s.e.care.watchLine / 2048) = true) :=
  ⟨⟨on fun e => sets [(0x4200, 4, 1)] e, by decide +kernel⟩,
   ⟨on fun e => (sets [(0x3000, 2, 6), (0x3010, 2, 6), (0x2520, 128, 5)] e).setAxis 0 { restSince := some 0 }, by decide +kernel⟩,
   ⟨on fun e => { e with care.watch := true }, by decide +kernel⟩,
   ⟨run, by decide +kernel⟩,
   ⟨on fun e => { e with care.watch := true }, by decide +kernel⟩,
   ⟨on fun e => { e with care.watch := true, care.openWins := [0, 1], care.watchHeads := [0, 16] }, 0, by decide +kernel⟩⟩

/-- States that meet the hypotheses of the clauses of FireCountTable. -/
theorem witness_FireCountTable :
    (∃ (s : State), s.serves 1 ∧ s.e.get 0x3460 2 = 0) ∧
    (∃ (s : State), s.serves 1 ∧ s.e.get 0x3460 2 ≠ 0) ∧
    (∃ (s : State), s.serves 1 ∧ s.e.jobState ≠ 0) ∧
    (∃ (s : State) (v : BitVec 64), s.serves 1 ∧ s.e.jobState = 0 ∧ v.toNat % 4096 ≠ 0) ∧
    (∃ (s : State), s.serves 1 ∧ s.e.jobState = 0) ∧
    (∃ (s : State) (v : BitVec 64), s.serves 1 ∧ s.e.jobState = 0 ∧ v.toNat ≠ 0 ∧ s.e.tableRefused v.toNat = false) :=
  ⟨⟨run, by decide +kernel⟩,
   ⟨on fun e => sets [(0x3460, 2, 4096)] e, by decide +kernel⟩,
   ⟨on fun e => sets [(0x2200, 2, 1)] e, by decide +kernel⟩,
   ⟨run, 0x0000000000000001#64, by decide +kernel⟩,
   ⟨run, by decide +kernel⟩,
   ⟨on fun e => sets [(0x300F, 3, 38400), (0x2200, 5, 1200), (0x3460, 2, 0x3000000), (0x2430, 1, 0x100000000), (0x2430, 2, 0x8000000), (0x2430, 3,
     0x10000000)] e, 0x20000000, by decide +kernel⟩⟩

/-- States that meet the hypotheses of the clauses of ServoPeriods. -/
theorem witness_ServoPeriods :
    ∃ (s : State), s.e.live = true ∧ (∀ a, a < 8 → s.e.get (0x3000 + 16 * a) 2 = 0 ∧ (s.e.axis a).stopNext = false ∧ (s.e.axis a).seg = none ∧
      (s.e.axis a).start = none ∧ (s.e.axis a).plan = [] ∧ (s.e.axis a).target = none) ∧ (∀ u, u < 4 → s.e.tracing u = false) :=
  ⟨run, by decide +kernel⟩

/-- States that meet the hypotheses of the clauses of AxisReplies. -/
theorem witness_AxisReplies :
    (∃ (s : State) (a : Fin 8), s.e.live = true ∧ (s.e.axis a.val).awaiting = false) ∧
    (∃ (s : State) (a : Fin 8) (fr : List Byte), s.e.live = true ∧ (s.e.axis a.val).awaiting = true ∧ fr.length ≠ 14 ∧
      (s.e.axis a.val).discarded = false) ∧
    (∃ (s : State) (a : Fin 8) (fr : List Byte), s.e.live = true ∧ (s.e.axis a.val).awaiting = true ∧ fr.length = 14 ∧ le (fr.take 1) = 0x5A ∧
      le (fr.drop 12) = crc16 (fr.take 12) ∧ le ((fr.drop 1).take 1) = a.val ∧ le ((fr.drop 2).take 1) = (s.e.axis a.val).seq ∧
        bit (le ((fr.drop 3).take 1)) 2 = false ∧ s.e.get (0x3000 + 16 * a.val) 7 = 0) ∧
    (∃ (s : State) (a : Fin 8), s.e.live = true ∧ (s.e.axis a.val).awaiting = true ∧ (s.e.axis a.val).discarded = false ∧
      (s.e.axis a.val).missedRun + 1 < s.e.get ((0x3000 + 16 * a.val) + 2) 4) ∧
    (∃ (s : State) (a : Fin 8), s.e.live = true ∧ (s.e.axis a.val).awaiting = true ∧ s.e.get ((0x3000 + 16 * a.val) + 2) 1 = 1 ∧
      s.e.get ((0x3000 + 16 * a.val) + 2) 4 ≤ (s.e.axis a.val).missedRun + 1) :=
  ⟨⟨run, 0, by decide +kernel⟩,
   ⟨on fun e => e.setAxis 0 { awaiting := true }, 0, [], by decide +kernel⟩,
   ⟨on fun e => (sets [(0x3070, 7, 0)] e).setAxis 7 { awaiting := true }, 7, ([0x5A, 7, 0, 0, 0, 0, 0, 0, 0, 0, 0, 0] ++ toLe 2 (crc16 [0x5A, 7, 0,
     0, 0, 0, 0, 0, 0, 0, 0, 0])), by decide +kernel⟩,
   ⟨on fun e => e.setAxis 0 { awaiting := true }, 0, by decide +kernel⟩,
   ⟨on fun e => (sets [(0x3002, 1, 1), (0x3002, 4, 1)] e).setAxis 0 { awaiting := true }, 0, by decide +kernel⟩⟩

/-- States that meet the hypotheses of the clauses of AxisCommands. -/
theorem witness_AxisCommands :
    (∃ (s : State) (a : Fin 8), s.serves 1 ∧ s.e.get (0x3000 + 16 * a.val) 2 ≠ 0) ∧
    (∃ (s : State) (a : Fin 8), s.serves 1 ∧ s.e.get (0x3000 + 16 * a.val) 2 = 0 ∧ s.e.get ((0x3000 + 16 * a.val) + 2) 1 = 1) ∧
    (∃ (s : State) (a : Fin 8), s.serves 1 ∧ s.e.get (0x3000 + 16 * a.val) 2 ≠ 1 ∧ s.e.get (0x3000 + 16 * a.val) 2 ≠ 2) ∧
    (∃ (s : State) (a : Fin 8), s.serves 1 ∧ (s.e.get (0x3000 + 16 * a.val) 2 = 1 ∨ s.e.get (0x3000 + 16 * a.val) 2 = 2)) ∧
    (∃ (s : State) (a : Fin 8), s.serves 1 ∧ s.e.jobControls a.val = true) ∧
    (∃ (s : State) (a : Fin 8), s.serves 1 ∧ s.e.jobControls a.val = false ∧ s.e.get (0x3000 + 16 * a.val) 2 = 1 ∧
      s.e.get (0x3000 + 16 * a.val) 8 = 0 ∧ (s.e.axis a.val).stopNext = false ∧ (s.e.axis a.val).stopping = false ∧ s.e.haltDemand = false ∧
        s.e.stage < 4 ∧ (s.e.inp (2 + a.val)).active = false ∧ (s.e.inp (10 + a.val)).active = false) ∧
    (∃ (s : State) (a : Fin 8), s.serves 1 ∧ s.e.jobControls a.val = false ∧ s.e.get (0x3000 + 16 * a.val) 2 = 0) ∧
    (∃ (s : State) (a : Fin 8), s.serves 1 ∧ s.e.jobControls a.val = false ∧ s.e.get (0x3000 + 16 * a.val) 2 = 3 ∧
      s.e.get (0x3000 + 16 * a.val) 1 ≠ 0 ∧ (s.e.axis a.val).v ≠ 0) ∧
    (∃ (s : State) (a : Fin 8), s.serves 1 ∧ s.e.jobControls a.val = false ∧ s.e.get (0x3000 + 16 * a.val) 2 = 1 ∧
      s.e.get (0x3000 + 16 * a.val) 7 = 0) :=
  ⟨⟨on fun e => sets [(0x3000, 2, 1)] e, 0, by decide +kernel⟩,
   ⟨on fun e => sets [(0x3002, 1, 1)] e, 0, by decide +kernel⟩,
   ⟨run, 0, by decide +kernel⟩,
   ⟨on fun e => sets [(0x3000, 2, 1)] e, 0, by decide +kernel⟩,
   ⟨on fun e => sets [(0x2200, 2, 1)] e, 0, by decide +kernel⟩,
   ⟨on fun e => sets [(0x3000, 2, 1)] e, 0, by decide +kernel⟩,
   ⟨run, 0, by decide +kernel⟩,
   ⟨on fun e => (sets [(0x3000, 2, 3)] e).setAxis 0 { v := 5 }, 0, by decide +kernel⟩,
   ⟨on fun e => sets [(0x3000, 2, 1), (0x3070, 2, 1)] e, 7, by decide +kernel⟩⟩

/-- States that meet the hypotheses of the clauses of AxisFaultsAndFollow. -/
theorem witness_AxisFaultsAndFollow :
    (∃ (s : State) (a : Fin 8), s.serves 1 ∧ s.e.get (0x3000 + 16 * a.val) 2 ≠ 5) ∧
    (∃ (s : State) (a : Fin 8), s.serves 1 ∧ s.e.get (0x3000 + 16 * a.val) 2 = 5 ∧ s.e.causeHolds a.val = true) ∧
    (∃ (s : State) (a : Fin 8), s.serves 1 ∧ s.e.get (0x3000 + 16 * a.val) 2 = 5 ∧ (s.e.axis a.val).v = 0 ∧ (s.e.axis a.val).seg = none ∧
      (s.e.axis a.val).stopNext = false ∧ s.e.causeHolds a.val = false ∧ s.e.get (0x3000 + 16 * a.val) 7 = 0) ∧
    (∃ (s : State) (a : Fin 8) (g : BitVec 32), s.serves 1 ∧ g.toNat ≠ 0 ∧ s.e.get (0x3000 + 16 * a.val) 1 ≠ 3 ∧
      s.e.get (0x3000 + 16 * a.val) 1 ≠ 4) ∧
    (∃ (s : State) (a : Fin 8) (g : BitVec 32), s.serves 1 ∧
      (s.e.get (0x3000 + 16 * a.val) 1 = 3 ∨ s.e.get (0x3000 + 16 * a.val) 1 = 4 ∨ g.toNat = 0)) ∧
    (∃ (s : State) (a : Fin 8), s.serves 1 ∧ s.e.get (0x3000 + 16 * a.val) 2 ≠ 1) ∧
    (∃ (s : State) (a : Fin 8), s.serves 1 ∧ s.e.get (0x3000 + 16 * a.val) 2 = 1 ∧ (s.e.axis a.val).v = 0 ∧ (s.e.axis a.val).seg = none ∧
      (s.e.axis a.val).start = none ∧ (s.e.axis a.val).target = none) :=
  ⟨⟨run, 0, by decide +kernel⟩,
   ⟨on fun e => sets [(0x3000, 2, 5)] e, 0, by decide +kernel⟩,
   ⟨on fun e => sets [(0x3002, 1, 1), (0x3000, 2, 5), (0x3000, 7, 0)] e, 0, by decide +kernel⟩,
   ⟨run, 0, 0x00000001#32, by decide +kernel⟩,
   ⟨run, 0, 0x00000000#32, by decide +kernel⟩,
   ⟨run, 0, by decide +kernel⟩,
   ⟨on fun e => sets [(0x3000, 2, 1)] e, 0, by decide +kernel⟩⟩

/-- States that meet the hypotheses of the clauses of EncoderCounts. -/
theorem witness_EncoderCounts :
    (∃ (s : State), s.e.live = true) ∧
    (∃ (s : State) (n : Fin 4) (dt : Nat), s.e.live = true ∧ (s.e.inp (26 + n.val)).unstable = false ∧ (s.e.inp (30 + n.val)).unstable = false ∧
      n.val ≠ 0 ∧ (s.e.enc n.val).active = false ∧ 4000000000 ≤ dt * 5 * s.e.get (0x300F + 16 * n.val) 6) ∧
    (∃ (s : State) (n : Fin 4), s.e.live = true ∧ (s.e.inp (26 + n.val)).unstable = false ∧ (s.e.inp (30 + n.val)).unstable = false) ∧
    (∃ (s : State) (n : Fin 4), s.e.live = true ∧ (s.e.inp (34 + n.val)).unstable = true) ∧
    (∃ (s : State) (n : Fin 4), s.e.live = true ∧ (s.e.inp (34 + n.val)).unstable = false) :=
  ⟨⟨run, by decide +kernel⟩,
   ⟨run, 1, 45000, by decide +kernel⟩,
   ⟨run, 0, by decide +kernel⟩,
   ⟨on fun e => e.setInp 34 { unstable := true }, 0, by decide +kernel⟩,
   ⟨run, 0, by decide +kernel⟩⟩

/-- States that meet the hypotheses of the clauses of DigitalInputs. -/
theorem witness_DigitalInputs :
    (∃ (s : State), s.e.live = true) ∧
    (∃ (s : State), s.e.live = true ∧ (s.e.inp 0).unstable = false ∧ (s.e.inp 0).active = false) ∧
    (∃ (s : State) (a : Fin 8) (v : Bool), s.e.live = true ∧ (s.e.inp (18 + a.val)).unstable = false ∧ (s.e.inp (18 + a.val)).active = !v) ∧
    (∃ (s : State) (d : _), s.e.live = true ∧ (s.e.inp (inputNo d)).unstable = false) ∧
    (∃ (s : State) (d : _), s.e.live = true ∧ (s.e.inp (inputNo d)).unstable = true) ∧
    (∃ (s : State) (d : _), s.e.live = true ∧ (s.e.inp (inputNo d)).active = false) ∧
    (∃ (s : State), s.e.live = true ∧ (s.e.inp 0).active = true ∧ (s.e.inp 0).stuck = false ∧ s.e.get 0x307F 4 ≠ 0) ∧
    (∃ (s : State) (a : Fin 8), s.e.live = true ∧ (s.e.inp (18 + a.val)).recent = [] ∧ 1 ≤ s.e.get (0x3004 + 16 * a.val) 5) ∧
    (∃ (s : State) (a : Fin 8), s.e.live = true ∧ s.e.get (0x3004 + 16 * a.val) 5 = 0 ∧ (s.e.inp (18 + a.val)).unstable = false) :=
  ⟨⟨run, by decide +kernel⟩,
   ⟨run, by decide +kernel⟩,
   ⟨run, 0, true, by decide +kernel⟩,
   ⟨run, Sys2Proof.DigIn.stop, by decide +kernel⟩,
   ⟨on fun e => e.setInp 0 { unstable := true }, Sys2Proof.DigIn.stop, by decide +kernel⟩,
   ⟨run, Sys2Proof.DigIn.stop, by decide +kernel⟩,
   ⟨on fun e => (sets [(0x307F, 4, 10)] e).setInp 0 { active := true }, by decide +kernel⟩,
   ⟨run, 0, by decide +kernel⟩,
   ⟨on fun e => sets [(0x3004, 5, 0)] e, 0, by decide +kernel⟩⟩

/-- States that meet the hypotheses of the clauses of WarmingLoops. -/
theorem witness_WarmingLoops :
    ∃ (s : State) (l : Nat), s.e.live = true ∧ s.e.pan.flight.isSome = true ∧ s.e.enabledLoops 0 128 = [l] ∧ s.e.restr l = 0 ∧
      s.e.get (0x3100 + l) 9 = 0 ∧ (∀ u, u < 4 → s.e.tracing u = false) :=
  ⟨on fun e => { (sets [(0x3100, 1, 1), (0x2100, 1, 2)] e) with pan.flight := some {} }, 0, by decide +kernel⟩

/-- States that meet the hypotheses of the clauses of ZoneLoops. -/
theorem witness_ZoneLoops :
    ∃ (s : State), s.e.live = true ∧ (∀ c, c < 4 → s.e.hvOn c = false) ∧ (∀ u, u < 4 → s.e.tracing u = false) :=
  ⟨run, by decide +kernel⟩

/-- States that meet the hypotheses of the clauses of FlagsTripsConversions. -/
theorem witness_FlagsTripsConversions :
    (∃ (s : State) (idx : BitVec 16) (sub : Byte), s.serves 1 ∧ 0x3100 ≤ idx.toNat ∧ idx.toNat < 0x31C0 ∧ sub.toNat = 0x11) ∧
    (∃ (s : State) (idx : BitVec 16) (sub : Byte), s.serves 1 ∧ idx.toNat = 0x3408 ∧ 1 ≤ sub.toNat ∧ sub.toNat ≤ 64) ∧
    (∃ (s : State) (idx : BitVec 16), s.serves 1 ∧ 0x3000 ≤ idx.toNat ∧ idx.toNat < 0x3100) ∧
    (∃ (s : State) (c : Fin 4), s.serves 1 ∧ s.e.hvTripped c.val = true ∧ s.e.getI 16 (0x3200 + c.val) 5 < s.e.pvOf (188 + c.val)) ∧
    (∃ (s : State) (c : Fin 4), s.serves 1 ∧ s.e.hvTripped c.val = true ∧ s.e.pvOf (188 + c.val) ≤ s.e.getI 16 (0x3200 + c.val) 5) ∧
    (∃ (s : State) (c : Fin 4), s.serves 1 ∧ s.e.hvTripped c.val = false) ∧
    (∃ (s : State), s.serves 1 ∧ 1 ≤ s.e.idle) ∧
    (∃ (s : State), s.serves 1 ∧ s.e.idle = 0 ∧ (∀ u, u < 4 → s.e.tracing u = false)) :=
  ⟨⟨run, 0x31BF, 0x11, by decide +kernel⟩,
   ⟨run, 0x3408, 0x01#8, by decide +kernel⟩,
   ⟨run, 0x30FF, by decide +kernel⟩,
   ⟨on fun e => { (sets [(0x31BC, 8, 60), (0x3406, 61, 100), (0x3200, 5, 99)] e) with ctl := { e.ctl with tripped := [(0, true)] } }, 0,
     by decide +kernel⟩,
   ⟨on fun e => { e with ctl.tripped := [(0, true), (3, true)] }, 0, by decide +kernel⟩,
   ⟨run, 0, by decide +kernel⟩,
   ⟨on fun e => sets [(0x4220, 1, 1)] e, by decide +kernel⟩,
   ⟨run, by decide +kernel⟩⟩

/-- States that meet the hypotheses of the clauses of TraceUnits. -/
theorem witness_TraceUnits :
    (∃ (s : State) (u : Fin 4), s.serves 1 ∧ (s.e.tracing u.val = true ∨ 1 ≤ s.e.stage)) ∧
    (∃ (s : State) (u : Fin 4), s.serves 1 ∧ s.e.tracing u.val = false ∧ s.e.stage = 0 ∧ s.e.traceSource u.val = false) ∧
    (∃ (s : State) (u : Fin 4), s.serves 1 ∧ s.e.tracing u.val = false ∧ s.e.stage = 0 ∧ s.e.traceSource u.val = true ∧
      s.e.get (0x3210 + u.val) 7 ≠ 3 ∧ s.e.inDram (s.e.get (0x3210 + u.val) 0x0A) (s.e.get (0x3210 + u.val) 0x0B) = true ∧
        clash (s.e.get (0x3210 + u.val) 0x0A) (s.e.get (0x3210 + u.val) 0x0B) (s.e.traceRings u.val ++ s.e.openRings 256 ++ [s.e.proofRing] ++ s.e.fireTable ++ s.e.storeRegions) = false) ∧
    (∃ (s : State) (u : Fin 4), s.serves 1 ∧ s.e.get (0x3210 + u.val) 2 = 1) ∧
    (∃ (s : State) (u : Fin 4), s.serves 1 ∧ s.e.get (0x3210 + u.val) 2 ≠ 1) ∧
    (∃ (s : State) (u : Fin 4), s.serves 1 ∧ s.e.tracing u.val = true) ∧
    (∃ (s : State) (u : Fin 4), s.serves 1 ∧ s.e.tracing u.val = false) :=
  ⟨⟨on fun e => sets [(0x3210, 2, 1)] e, 0, by decide +kernel⟩,
   ⟨on fun e => sets [(0x3210, 3, 0)] e, 0, by decide +kernel⟩,
   ⟨on fun e => sets [(0x3210, 10, 1048576)] e, 0, by decide +kernel⟩,
   ⟨on fun e => sets [(0x3210, 2, 1)] e, 0, by decide +kernel⟩,
   ⟨run, 0, by decide +kernel⟩,
   ⟨on fun e => sets [(0x3210, 2, 1)] e, 0, by decide +kernel⟩,
   ⟨run, 0, by decide +kernel⟩⟩

/-- States that meet the hypotheses of the clauses of DramFindings. -/
theorem witness_DramFindings :
    (∃ (s : State) (addr : Nat) (ch : Nat) (a : Nat), s.e.mem.place addr = (ch, a) ∧ s.e.live = true ∧
      (s.e.dramServing = false ∨ s.e.inDram (addr / 64 * 64) 64 = false)) ∧
    (∃ (s : State) (addr : Nat) (ch : Nat) (a : Nat), s.e.mem.place addr = (ch, a) ∧ s.e.live = true ∧ s.e.dramServing = true ∧
      s.e.inDram (addr / 64 * 64) 64 = true) ∧
    (∃ (s : State) (addr : Nat) (ch : Nat) (a : Nat), s.e.mem.place addr = (ch, a) ∧ s.e.live = true ∧ s.e.dramServing = true ∧
      s.e.inDram (addr / 64 * 64) 64 = true ∧ s.e.get 0x4002 8 = 0) ∧
    (∃ (s : State) (addr : Nat) (ch : Nat) (a : Nat), s.e.mem.place addr = (ch, a) ∧ s.e.live = true ∧ s.e.dramServing = true ∧
      s.e.inDram (addr / 64 * 64) 64 = true ∧ s.e.migrating ch = true ∧ (s.e.chan ch).migrating = some (s.e.rankAt ch a)) ∧
    (∃ (s : State) (addr : Nat) (ch : Nat) (a : Nat), s.e.mem.place addr = (ch, a) ∧ s.e.live = true ∧ s.e.get 0x4020 2 = 0) ∧
    (∃ (s : State) (addr : Nat) (ch : Nat) (a : Nat), s.e.mem.place addr = (ch, a) ∧ s.e.live = true ∧ s.e.get 0x4020 2 ≠ 0 ∧
      s.e.dramServing = true ∧ s.e.inDram (addr / 64 * 64) 64 = true ∧ s.e.get (0x4010 + ch) 1 ≠ 2) ∧
    (∃ (s : State) (addr : Nat) (ch : Nat) (a : Nat), s.e.mem.place addr = (ch, a) ∧ s.e.live = true ∧ s.e.get 0x4020 2 ≠ 0 ∧
      s.e.dramServing = true ∧ s.e.inDram (addr / 64 * 64) 64 = true ∧ s.e.get (0x4010 + ch) 1 ≠ 2 ∧ s.e.get 0x4002 8 = 0) :=
  ⟨⟨on fun e => sets [(0x4001, 1, 0)] e, 0, _, _, rfl, by decide +kernel⟩,
   ⟨run, 0, _, _, rfl, by decide +kernel⟩,
   ⟨run, 0, _, _, rfl, by decide +kernel⟩,
   ⟨on fun e => (sets [(0x4010, 12, 1)] e).setChan 0 { e.chan 0 with migrating := some 0 }, 0, _, _, rfl, by decide +kernel⟩,
   ⟨on fun e => sets [(0x4020, 2, 0)] e, 0, _, _, rfl, by decide +kernel⟩,
   ⟨run, 0, _, _, rfl, by decide +kernel⟩,
   ⟨run, 0, _, _, rfl, by decide +kernel⟩⟩

/-- States that meet the hypotheses of the clauses of RankMigration. -/
theorem witness_RankMigration :
    (∃ (s : State) (ch : Fin 4), s.serves 3 ∧ (s.e.chan ch.val).up = false) ∧
    (∃ (s : State) (ch : Fin 4), s.serves 3 ∧ (s.e.chan ch.val).up = true) ∧
    (∃ (s : State) (ch : Fin 4), s.serves 3 ∧ (s.e.chan ch.val).up = true ∧ s.e.migrating ch.val = false ∧ s.e.get (0x4010 + ch.val) 0x0A ≠ 0xff) ∧
    (∃ (s : State) (ch : Fin 4), s.serves 3 ∧ (s.e.chan ch.val).up = true ∧ s.e.migrating ch.val = false ∧ s.e.get (0x4010 + ch.val) 0x0A ≠ 0xff ∧
      (s.e.chan ch.val).lrank.contains (s.e.get (0x4010 + ch.val) 0x11) = false) ∧
    (∃ (s : State) (ch : Fin 4), s.serves 3 ∧ (s.e.chan ch.val).up = true ∧ s.e.migrating ch.val = false ∧ s.e.get (0x4010 + ch.val) 0x0A ≠ 0xff ∧
      (s.e.chan ch.val).lrank.contains (s.e.get (0x4010 + ch.val) 0x11) = true) ∧
    (∃ (s : State) (ch : Fin 4), s.serves 3 ∧ s.e.migrating ch.val = true) ∧
    (∃ (s : State) (ch : Fin 4), s.serves 3 ∧ (s.e.chan ch.val).migrating = none) ∧
    (∃ (s : State) (ch : Fin 4) (rank : Fin 4), s.serves 3 ∧ (s.e.chan ch.val).migrating = some rank.val ∧ s.e.get (0x4010 + ch.val) 0x0C = 1 ∧
      s.e.get 0x4001 1 = 1 ∧ s.e.get (0x4010 + ch.val) 0x0D + 64 < s.e.mem.rsize) ∧
    (∃ (s : State) (ch : Fin 4) (rank : Fin 4), s.serves 3 ∧ (s.e.chan ch.val).migrating = some rank.val ∧ s.e.get (0x4010 + ch.val) 0x0C = 1 ∧
      s.e.get 0x4001 1 = 1 ∧ s.e.mem.rsize ≤ s.e.get (0x4010 + ch.val) 0x0D + 64) :=
  ⟨⟨on fun e => e.setChan 0 { e.chan 0 with up := false }, 0, by decide +kernel⟩,
   ⟨run, 0, by decide +kernel⟩,
   ⟨run, 0, by decide +kernel⟩,
   ⟨on fun e => sets [(0x4013, 0xA, 3), (0x4013, 0x11, 7)] e, 3, by decide +kernel⟩,
   ⟨run, 0, by decide +kernel⟩,
   ⟨on fun e => sets [(0x4010, 12, 1)] e, 0, by decide +kernel⟩,
   ⟨run, 0, by decide +kernel⟩,
   ⟨on fun e => (sets [(0x4010, 12, 1)] e).setChan 0 { e.chan 0 with migrating := some 0 }, 0, 0, by decide +kernel⟩,
   ⟨on fun e => (sets [(0x4010, 12, 1), (0x4010, 13, 17179869120)] e).setChan 0 { e.chan 0 with migrating := some 0 }, 0, 0, by decide +kernel⟩⟩

/-- States that meet the hypotheses of the clauses of Retraining. -/
theorem witness_Retraining :
    (∃ (s : State) (ch : Fin 4), s.serves 3 ∧ s.e.mayRetrain ch.val = false) ∧
    (∃ (s : State) (ch : Fin 4), s.serves 3 ∧ s.e.mayRetrain ch.val = true ∧ s.e.jobState ≠ 0 ∧ s.e.jobState ≠ 3) ∧
    (∃ (s : State) (ch : Fin 4), s.serves 3 ∧ s.e.mayRetrain ch.val = true ∧ (s.e.jobState = 0 ∨ s.e.jobState = 3)) ∧
    (∃ (s : State) (ch : Fin 4), s.serves 3 ∧ s.e.mayRetrain ch.val = true ∧ s.e.jobState = 1 ∧
      (s.e.pan.flight.isSome = true ∨ s.e.mem.turnaroundRetrained = true)) ∧
    (∃ (s : State) (ch : Fin 4), s.serves 3 ∧ s.e.get (0x4010 + ch.val) 1 ≠ 2) ∧
    (∃ (s : State) (ch : Fin 4), s.serves 3 ∧ s.e.get (0x4010 + ch.val) 1 = 2) :=
  ⟨⟨on fun e => sets [(0x4001, 1, 0)] e, 0, by decide +kernel⟩,
   ⟨on fun e => sets [(0x2200, 2, 1)] e, 0, by decide +kernel⟩,
   ⟨run, 0, by decide +kernel⟩,
   ⟨on fun e => { (sets [(0x2200, 2, 1)] e) with pan.flight := some {} }, 0, by decide +kernel⟩,
   ⟨run, 0, by decide +kernel⟩,
   ⟨on fun e => sets [(0x4010, 1, 2)] e, 0, by decide +kernel⟩⟩

/-- States that meet the hypotheses of the clauses of DramUpkeep. -/
theorem witness_DramUpkeep :
    (∃ (s : State), s.e.live = true ∧ s.e.get 0x4001 1 ≠ 0 ∧ s.e.get 0x4001 1 ≠ 4) ∧
    (∃ (s : State), s.e.live = true ∧ s.e.get 0x4001 1 = 0 ∧ s.e.mem.trained = false) ∧
    (∃ (s : State), s.e.live = true ∧ ((s.e.get 0x4001 1 = 0 ∧ s.e.mem.trained = true) ∨ s.e.get 0x4001 1 = 4)) ∧
    (∃ (s : State) (ch : Fin 4), s.e.live = true ∧ ((s.e.chan ch.val).up = false ∨ s.e.get 0x4001 1 ≠ 1)) ∧
    (∃ (s : State) (ch : Fin 4) (rank : Fin 4) (bank : Fin 4) (rate : Fin 3), s.e.live = true ∧ (s.e.chan ch.val).up = true ∧
      s.e.get 0x4001 1 = 1 ∧ rate.val < 2 ∧ (cellGet (fun _ => 0) (s.e.chan ch.val).postponed (rank.val * 4 + bank.val)) < 4) ∧
    (∃ (s : State) (ch : Fin 4) (rate : Fin 3), s.e.live = true ∧ (s.e.chan ch.val).up = true ∧ s.e.get 0x4001 1 = 1 ∧ rate.val < 2) ∧
    (∃ (s : State), s.e.live = true) ∧
    (∃ (s : State) (rd : List Nat) (wr : List Nat), s.e.live = true ∧
      (s.e.mem.active.map (fun c => rd.getD c 0 + wr.getD c 0)).foldl (· + ·) 0 ≠ 0 ∧
        (min 65535 (imbalanceOf (s.e.mem.active.map (fun c => rd.getD c 0 + wr.getD c 0)))) ≤ s.e.get 0x4002 9) ∧
    (∃ (s : State) (rd : List Nat) (wr : List Nat), s.e.live = true ∧
      (s.e.mem.active.map (fun c => rd.getD c 0 + wr.getD c 0)).foldl (· + ·) 0 ≠ 0 ∧
        s.e.get 0x4002 9 < (min 65535 (imbalanceOf (s.e.mem.active.map (fun c => rd.getD c 0 + wr.getD c 0)))) ∧ s.e.mem.imbalanceRaised = false ∧
          1000 * s.e.get 0x4002 0x0A ≤ s.e.mem.imbalanceMs + 1) :=
  ⟨⟨run, by decide +kernel⟩,
   ⟨on fun e => { (sets [(0x4001, 1, 0)] e) with mem.trained := false }, by decide +kernel⟩,
   ⟨on fun e => sets [(0x4001, 1, 0)] e, by decide +kernel⟩,
   ⟨on fun e => sets [(0x4001, 1, 0)] e, 0, by decide +kernel⟩,
   ⟨run, 0, 0, 0, 0, by decide +kernel⟩,
   ⟨run, 0, 0, by decide +kernel⟩,
   ⟨run, by decide +kernel⟩,
   ⟨on fun e => sets [(0x4002, 9, 65535)] e, [], [5], by decide +kernel⟩,
   ⟨on fun e => sets [(0x4002, 10, 0)] e, [], [5], by decide +kernel⟩⟩

/-- States that meet the hypotheses of the clauses of OnChipIntegrity. -/
theorem witness_OnChipIntegrity :
    (∃ (s : State) (g : Fin 8) (o : ReadOutcome), s.e.live = true ∧ (o = .clean ∨ o = .marker) ∧ cellFind g.val s.e.integ.scrubbed = none) ∧
    (∃ (s : State) (g : Fin 8) (w : BitVec 31) (p : _), cellFind g.val s.e.integ.scrubbed = some p ∧ s.e.live = true ∧ w.toNat ≤ p) ∧
    (∃ (s : State), s.e.live = true) ∧
    (∃ (s : State) (g : Fin 8) (slot : Fin 16), s.e.live = true ∧ s.e.serving 3 = true ∧ s.e.integ.flashDue.contains (16 * g.val + slot.val) = true) ∧
    (∃ (s : State) (g : Fin 8) (slot : Fin 16), s.e.live = true ∧ s.e.integ.flashDue.contains (16 * g.val + slot.val) = false) :=
  ⟨⟨run, 0, Sys2Proof.ReadOutcome.clean, by decide +kernel⟩,
   ⟨on fun e => { e with integ.scrubbed := [(0, 5), (7, 5)] }, 0, 0x00000000#31, _, rfl, by decide +kernel⟩,
   ⟨run, by decide +kernel⟩,
   ⟨on fun e => { e with integ.flashDue := [0] }, 0, 0, by decide +kernel⟩,
   ⟨run, 0, 0, by decide +kernel⟩⟩

/-- States that meet the hypotheses of the clauses of FaultMessages. -/
theorem witness_FaultMessages :
    (∃ (s : State) (src : Byte) (kind : Byte) (detail : BitVec 40), s.e.live = true ∧ s.e.idle = 0 ∧
      (s.e.classOf src.toNat kind.toNat detail.toNat) < 3 ∧ s.e.flt.log = [] ∧ s.e.flt.windows = [] ∧ s.e.flt.incidents = [] ∧ s.e.flt.nextSeq ≠ 0) ∧
    (∃ (s : State) (src : Byte) (kind : Byte) (detail : BitVec 40) (x : _),
      findSame src.toNat kind.toNat (keyOf src.toNat kind.toNat (detail.toNat % 2 ^ 40)) s.e.flt.log = some x ∧ s.e.live = true ∧ s.e.idle = 0 ∧
        x.acked = false ∧ x.cls < 3) ∧
    (∃ (s : State) (src : Byte) (kind : Byte) (detail : BitVec 40), s.e.live = true ∧ s.e.idle = 0 ∧
      3 ≤ (s.e.classOf src.toNat kind.toNat detail.toNat) ∧ s.e.flt.log = [] ∧ s.e.flt.windows = [] ∧ s.e.flt.incidents = []) :=
  ⟨⟨run, 0x00#8, 0x00#8, 0x0000000000#40, by decide +kernel⟩,
   ⟨on fun e => { e with flt.log := [{ seq := 1 }] }, 0x00#8, 0x00#8, 0x0000000000#40, _, rfl, by decide +kernel⟩,
   ⟨run, 3, 3, 0, by decide +kernel⟩⟩

/-- States that meet the hypotheses of the clauses of Acknowledgements. -/
theorem witness_Acknowledgements :
    (∃ (s : State) (q : BitVec 32), s.serves 3 ∧ s.e.flt.log.find? (fun x => x.seq == q.toNat) = none) ∧
    (∃ (s : State) (q : BitVec 32) (x : _), s.e.flt.log.find? (fun x => x.seq == q.toNat) = some x ∧ s.serves 3) ∧
    (∃ (s : State) (c : Byte), s.serves 3 ∧ 4 < c.toNat) ∧
    (∃ (s : State) (c : Byte), s.serves 3 ∧ c.toNat ≤ 4) :=
  ⟨⟨run, 0x00000000#32, by decide +kernel⟩,
   ⟨on fun e => { e with flt.log := [{ seq := 1 }] }, 0x00000001#32, _, rfl, by decide +kernel⟩,
   ⟨run, 0x05#8, by decide +kernel⟩,
   ⟨run, 0x00#8, by decide +kernel⟩⟩

/-- States that meet the hypotheses of the clauses of FaultTimers. -/
theorem witness_FaultTimers :
    (∃ (s : State), s.serves 3) ∧
    (∃ (s : State) (q : _), s.serves 3 ∧ s.e.flt.log.find? (fun x => x.seq == q) = none) ∧
    (∃ (s : State) (q : _) (x : _), s.e.flt.log.find? (fun x => x.seq == q) = some x ∧ s.serves 3 ∧ x.repeats = x.recorded) ∧
    (∃ (s : State) (q : _) (x : _), s.e.flt.log.find? (fun x => x.seq == q) = some x ∧ s.serves 3 ∧ x.repeats ≠ x.recorded ∧
      s.e.host.ringEnable = false) ∧
    (∃ (s : State), s.serves 3 ∧ s.e.flt.minimumOn = true) ∧
    (∃ (s : State), s.serves 3 ∧ s.e.flt.minimumOn = false ∧ s.e.mode = .running) ∧
    (∃ (s : State), s.serves 3 ∧ s.e.flt.minimumOn = false) ∧
    (∃ (s : State), s.serves 3 ∧ s.e.flt.minimumOn = true ∧ s.e.flt.clearPending = false) ∧
    (∃ (s : State), s.serves 3 ∧ s.e.flt.minimumOn = true ∧ s.e.flt.clearPending = true ∧ s.e.mode = .running) :=
  ⟨⟨run, by decide +kernel⟩,
   ⟨run, 0, by decide +kernel⟩,
   ⟨on fun e => { e with flt.log := [{ seq := 1 }] }, 1, _, rfl, by decide +kernel⟩,
   ⟨on fun e => { e with flt.log := [{ seq := 1, repeats := 5 }] }, 1, _, rfl, by decide +kernel⟩,
   ⟨on fun e => { e with flt.minimumOn := true }, by decide +kernel⟩,
   ⟨run, by decide +kernel⟩,
   ⟨run, by decide +kernel⟩,
   ⟨on fun e => { e with flt.minimumOn := true }, by decide +kernel⟩,
   ⟨on fun e => { e with flt.minimumOn := true, flt.clearPending := true }, by decide +kernel⟩⟩

/-- States that meet the hypotheses of the clauses of ClockLosses. -/
theorem witness_ClockLosses :
    (∃ (s : State) (x : Fin 3), s.e.live = true ∧ s.e.get (0x4281 + x.val) 1 ≠ 2) ∧
    (∃ (s : State) (x : Fin 3), s.e.live = true ∧ s.e.get (0x4281 + x.val) 1 = 2) ∧
    (∃ (s : State) (x : Fin 3), s.e.live = true ∧ (s.e.pll x.val).clkIn = false) ∧
    (∃ (s : State) (x : Fin 3), s.e.live = true ∧ (s.e.pll x.val).clkIn = true ∧ 1 ≤ s.e.get (0x4281 + x.val) 1 ∧ s.e.get (0x4281 + x.val) 1 ≤ 3) ∧
    (∃ (s : State) (x : Fin 3), s.e.live = true ∧ s.e.get (0x4281 + x.val) 1 ≠ 3) ∧
    (∃ (s : State) (x : Fin 3), s.e.live = true ∧ s.e.get (0x4281 + x.val) 1 = 3) ∧
    (∃ (s : State), s.e.live = true ∧ s.e.get 0x4280 4 = 0) ∧
    (∃ (s : State) (x : Fin 3), s.e.live = true ∧ s.e.get 0x4280 4 ≠ 0 ∧ s.e.get (0x4281 + x.val) 1 ≠ 4) ∧
    (∃ (s : State) (x : Fin 3), s.e.live = true ∧ s.e.get 0x4280 4 ≠ 0 ∧ s.e.get (0x4281 + x.val) 1 = 4) :=
  ⟨⟨on fun e => sets [(0x4281, 1, 0)] e, 0, by decide +kernel⟩,
   ⟨run, 0, by decide +kernel⟩,
   ⟨run, 0, by decide +kernel⟩,
   ⟨on fun e => e.setPll 0 { clkIn := true }, 0, by decide +kernel⟩,
   ⟨run, 0, by decide +kernel⟩,
   ⟨on fun e => sets [(0x4281, 1, 3)] e, 0, by decide +kernel⟩,
   ⟨run, by decide +kernel⟩,
   ⟨on fun e => sets [(0x4280, 4, 25000)] e, 0, by decide +kernel⟩,
   ⟨on fun e => sets [(0x4280, 4, 25000), (0x4281, 1, 4)] e, 0, by decide +kernel⟩⟩

/-- States that meet the hypotheses of the clauses of ClockLocking. -/
theorem witness_ClockLocking :
    (∃ (s : State) (x : Fin 3), s.serves 3 ∧ s.e.get (0x4281 + x.val) 1 = 1 ∧ (s.e.pll x.val).searching = true) ∧
    (∃ (s : State) (x : Fin 3), s.serves 3 ∧ (s.e.pll x.val).searching = false) ∧
    (∃ (s : State) (x : Fin 3), s.serves 3 ∧ (s.e.pll x.val).declared = false) ∧
    (∃ (s : State) (x : Fin 3), s.serves 3 ∧ s.e.get (0x4281 + x.val) 1 = 1 ∧ (s.e.pll x.val).declared = true) ∧
    (∃ (s : State) (x : Fin 3), s.serves 3 ∧ (s.e.pll x.val).searching = true) ∧
    (∃ (s : State) (x : Fin 3), s.serves 3 ∧ s.e.get (0x4281 + x.val) 1 = 1 ∧ (s.e.pll x.val).searching = false ∧ (s.e.pll x.val).declared = false) ∧
    (∃ (s : State), s.serves 3 ∧ (s.e.jobState ≠ 0 ∨ s.e.idle ≠ 0)) ∧
    (∃ (s : State) (x : Fin 3), s.serves 3 ∧ s.e.jobState = 0 ∧ s.e.idle = 0 ∧ s.e.pfdValid x.val = false) ∧
    (∃ (s : State) (x : Fin 3), s.serves 3 ∧ s.e.jobState = 0 ∧ s.e.idle = 0 ∧ s.e.pfdValid x.val = true) ∧
    (∃ (s : State), s.serves 3 ∧ s.e.jobState ≠ 0) ∧
    (∃ (s : State) (v : Byte), s.serves 3 ∧ s.e.jobState = 0 ∧ 63 < v.toNat) ∧
    (∃ (s : State) (v : Byte), s.serves 3 ∧ s.e.jobState = 0 ∧ v.toNat ≤ 63) ∧
    (∃ (s : State), s.serves 3 ∧ s.e.jobState = 0 ∧ (∀ y, y < 3 → bit (s.e.get 0x4280 8) y = true → s.e.get (0x4281 + y) 1 = 2)) ∧
    (∃ (s : State), s.serves 3 ∧ s.e.get 0x4280 7 = 1) ∧
    (∃ (s : State), s.serves 3 ∧ s.e.get 0x4280 7 ≠ 1) :=
  ⟨⟨on fun e => (sets [(0x4281, 1, 1)] e).setPll 0 { searching := true }, 0, by decide +kernel⟩,
   ⟨run, 0, by decide +kernel⟩,
   ⟨run, 0, by decide +kernel⟩,
   ⟨on fun e => (sets [(0x4281, 1, 1)] e).setPll 0 { declared := true }, 0, by decide +kernel⟩,
   ⟨on fun e => e.setPll 0 { searching := true }, 0, by decide +kernel⟩,
   ⟨on fun e => sets [(0x4281, 1, 1)] e, 0, by decide +kernel⟩,
   ⟨on fun e => sets [(0x2200, 2, 1)] e, by decide +kernel⟩,
   ⟨on fun e => sets [(0x4281, 2, 1)] e, 0, by decide +kernel⟩,
   ⟨run, 0, by decide +kernel⟩,
   ⟨on fun e => sets [(0x2200, 2, 1)] e, by decide +kernel⟩,
   ⟨run, 0xff#8, by decide +kernel⟩,
   ⟨run, 0x00#8, by decide +kernel⟩,
   ⟨run, by decide +kernel⟩,
   ⟨on fun e => sets [(0x4280, 7, 1)] e, by decide +kernel⟩,
   ⟨run, by decide +kernel⟩⟩

/-- States that meet the hypotheses of the clauses of PowerResets. -/
theorem witness_PowerResets :
    (∃ (s : State) (n : Nat), s.e.mode = .running ∧ 45000 ≤ n ∧ n ≤ 52500) ∧
    (∃ (s : State) (n : Nat), s.e.mode = .running ∧ refInRange n = false ∧ s.e.pwr.refBad = 0) ∧
    (∃ (s : State) (n : Nat), s.e.mode = .running ∧ refInRange n = false ∧ s.e.pwr.refBad ≠ 0) ∧
    (∃ (s : State) (n : Nat), s.e.mode = .powerOnReset ∧ s.e.pwr.refHold = true ∧ s.e.pwr.vinLow = false ∧ refInRange n = true) ∧
    (∃ (s : State), s.e.mode = .shutdown) ∧
    (∃ (s : State), s.e.mode ≠ .powerOnReset) ∧
    (∃ (s : State), s.e.mode = .powerOnReset ∧ s.e.pwr.vinLow = true ∧ s.e.pwr.refHold = false) ∧
    (∃ (s : State) (r : Fin 9), s.e.live = true ∧ r.val ≠ 8) ∧
    (∃ (s : State), s.e.live = true) ∧
    (∃ (s : State), s.serves 3) :=
  ⟨⟨run, 45000, by decide +kernel⟩,
   ⟨run, 0, by decide +kernel⟩,
   ⟨on fun e => { e with pwr.refBad := 1 }, 0, by decide +kernel⟩,
   ⟨on fun e => { e with mode := .powerOnReset, pwr.refHold := true }, 45000, by decide +kernel⟩,
   ⟨on fun e => { e with mode := .shutdown }, by decide +kernel⟩,
   ⟨run, by decide +kernel⟩,
   ⟨on fun e => { e with mode := .powerOnReset, pwr.vinLow := true }, by decide +kernel⟩,
   ⟨run, 0, by decide +kernel⟩,
   ⟨run, by decide +kernel⟩,
   ⟨run, by decide +kernel⟩⟩

/-- States that meet the hypotheses of the clauses of SheddingStages. -/
theorem witness_SheddingStages :
    (∃ (s : State) (vin : BitVec 16) (iin : BitVec 16) (t0 : Trigger), s.e.live = true ∧
      (((s.e.sampleInput vin.toNat iin.toNat).setTrigger t0 vin.toNat iin.toNat).pwr).asked ≤ s.e.stage) ∧
    (∃ (s : State) (vin : BitVec 16) (iin : BitVec 16) (t0 : Trigger), s.e.live = true ∧
      s.e.stage < (((s.e.sampleInput vin.toNat iin.toNat).setTrigger t0 vin.toNat iin.toNat).pwr).asked) ∧
    (∃ (s : State) (vin : BitVec 16) (t0 : Trigger), s.e.live = true ∧ t0 = .voltage ∧ s.e.pwr.sag = 0 ∧ s.e.pwr.current = false ∧
      s.e.pwr.pfail = 0 ∧ s.e.pwr.dieHot = false ∧ s.e.pwr.dieCrit = false ∧ s.e.pwr.converter = false ∧ s.e.stage = 0 ∧ 13000 ≤ vin.toNat ∧
        vin.toNat < 16000) ∧
    (∃ (s : State) (vin : BitVec 16) (iin : BitVec 16) (k : Fin 5), s.e.live = true ∧
      (s.e.stage ≠ k.val + 1 ∨ s.e.releases (k.val + 1) vin.toNat iin.toNat = false)) ∧
    (∃ (s : State) (vin : BitVec 16) (iin : BitVec 16) (k : Fin 5), s.e.live = true ∧ s.e.stage = k.val + 1 ∧
      s.e.releases (k.val + 1) vin.toNat iin.toNat = true) :=
  ⟨⟨run, 0x0000#16, 0x0000#16, Sys2Proof.Trigger.current, by decide +kernel⟩,
   ⟨run, 0x0000#16, 0x0000#16, Sys2Proof.Trigger.voltage, by decide +kernel⟩,
   ⟨run, 13000, .voltage, by decide +kernel⟩,
   ⟨run, 0x0000#16, 0x0000#16, 0, by decide +kernel⟩,
   ⟨on fun e => sets [(0x4200, 4, 1)] e, 0xffff#16, 0x0000#16, 0, by decide +kernel⟩⟩

/-- States that meet the hypotheses of the clauses of IdleStates. -/
theorem witness_IdleStates :
    (∃ (s : State), s.e.live = true ∧ (s.e.blockers ≠ 0 ∨ s.e.deepestIdle = 0)) ∧
    (∃ (s : State), s.e.live = true ∧ s.e.mode = .running ∧ s.e.idle = 0 ∧ s.e.blockers = 0 ∧ s.e.deepestIdle = 1) ∧
    (∃ (s : State), s.e.live = true ∧ s.e.mode = .running ∧ s.e.idle = 0 ∧ s.e.blockers = 0 ∧ 2 ≤ s.e.deepestIdle) ∧
    (∃ (s : State), s.e.live = true ∧ s.e.idle = 0) ∧
    (∃ (s : State), s.e.live = true ∧ 2 ≤ s.e.idle) ∧
    (∃ (s : State), s.e.live = true ∧ s.e.idle = 1 ∧ s.e.pwr.waking = false) ∧
    (∃ (s : State) (cause : Fin 8), s.e.live = true ∧ 2 ≤ s.e.idle ∧ s.e.pwr.waking = false ∧ cause.val ≠ 7) ∧
    (∃ (s : State), s.e.live = true ∧ (s.e.pwr.waking = false ∨ s.e.pllsLocked = false)) ∧
    (∃ (s : State), s.e.live = true ∧ s.e.pwr.waking = true ∧ s.e.pllsLocked = true) ∧
    (∃ (s : State) (h : Fin 128), s.e.live = true ∧ (s.e.head h.val).suspended ≠ 3) ∧
    (∃ (s : State) (h : Fin 128), s.e.live = true ∧ (s.e.head h.val).suspended = 3 ∧ s.e.get (0x2100 + h.val) 1 = 1 ∧ s.e.svc h.val = 2) :=
  ⟨⟨run, by decide +kernel⟩,
   ⟨on fun e => sets [(0x2002, 1, 20)] e, by decide +kernel⟩,
   ⟨on fun e => sets [(0x2002, 1, 2000)] e, by decide +kernel⟩,
   ⟨run, by decide +kernel⟩,
   ⟨on fun e => sets [(0x4220, 1, 2)] e, by decide +kernel⟩,
   ⟨on fun e => sets [(0x4220, 1, 1)] e, by decide +kernel⟩,
   ⟨on fun e => sets [(0x4220, 1, 2)] e, 0, by decide +kernel⟩,
   ⟨run, by decide +kernel⟩,
   ⟨on fun e => { e with pwr.waking := true }, by decide +kernel⟩,
   ⟨run, 0, by decide +kernel⟩,
   ⟨on fun e => (sets [(0x2100, 1, 1), (0x2520, 1, 2)] e).setHead 0 { suspended := 3 }, 0, by decide +kernel⟩⟩

/-- States that meet the hypotheses of the clauses of DieTemperature. -/
theorem witness_DieTemperature :
    (∃ (s : State) (n : Fin 12), s.e.live = true ∧ bit (s.e.get 0x4211 3) n.val = true) ∧
    (∃ (s : State) (n : Fin 12) (x : Int), s.e.live = true ∧ bit (s.e.get 0x4211 3) n.val = false ∧ (x < -400 ∨ 1500 < x)) ∧
    (∃ (s : State) (x : Int), s.e.live = true ∧ s.e.get 0x4211 3 = 0 ∧ s.e.pwr.sampled = [] ∧ -400 ≤ x ∧ x ≤ 1500) ∧
    (∃ (s : State), s.e.mode = .powerOnReset) ∧
    (∃ (s : State), s.e.mode ≠ .powerOnReset) :=
  ⟨⟨on fun e => sets [(0x4211, 3, 1)] e, 0, by decide +kernel⟩,
   ⟨run, 0, -401, by decide +kernel⟩,
   ⟨run, 0, by decide +kernel⟩,
   ⟨on fun e => { e with mode := .powerOnReset }, by decide +kernel⟩,
   ⟨run, by decide +kernel⟩⟩

/-- States that meet the hypotheses of the clauses of FuseCommands. -/
theorem witness_FuseCommands :
    (∃ (s : State) (sup : Bool), s.serves 3 ∧ sequencerRefuses s.nv s.e (regionOf (s.e.get 0x4302 1)) sup ≠ 0) ∧
    (∃ (s : State) (sup : Bool), s.serves 3 ∧ sequencerRefuses s.nv s.e (regionOf (s.e.get 0x4302 1)) sup = 0 ∧
      bit (s.nv.fuse (s.e.get 0x4302 1)) 32 = true) ∧
    (∃ (s : State) (sup : Bool), s.serves 3 ∧ sequencerRefuses s.nv s.e (regionOf (s.e.get 0x4302 1)) sup = 0 ∧
      bit (s.nv.fuse (s.e.get 0x4302 1)) 32 = false ∧
        (s.nv.fuse (s.e.get 0x4302 1) % 2 ^ 32 &&& (s.e.get 0x4302 2)) ≠ s.nv.fuse (s.e.get 0x4302 1) % 2 ^ 32) ∧
    (∃ (s : State) (sup : Bool), s.serves 3 ∧ sequencerRefuses s.nv s.e (regionOf (s.e.get 0x4302 1)) sup = 0 ∧
      bit (s.nv.fuse (s.e.get 0x4302 1)) 32 = false ∧
        (s.nv.fuse (s.e.get 0x4302 1) % 2 ^ 32 &&& (s.e.get 0x4302 2)) = s.nv.fuse (s.e.get 0x4302 1) % 2 ^ 32) ∧
    (∃ (s : State) (sup : Bool), s.serves 3 ∧ sequencerRefuses s.nv s.e (regionOf (s.e.get 0x4302 1)) sup = 0 ∧
      bit (s.nv.fuse (s.e.get 0x4302 1)) 32 = false ∧
        (s.nv.fuse (s.e.get 0x4302 1) &&& sealedWord (s.nv.fuse (s.e.get 0x4302 1))) = s.nv.fuse (s.e.get 0x4302 1)) ∧
    (∃ (s : State) (sup : Bool), (∃ j, (regionWords (s.e.get 0x4302 4)).1 ≤ j ∧ j ≤ (regionWords (s.e.get 0x4302 4)).2 ∧
      bit (s.nv.fuse j) 32 = false) ∧ s.serves 3 ∧ sequencerRefuses s.nv s.e (s.e.get 0x4302 4) sup = 0) :=
  ⟨⟨run, false, by decide +kernel⟩,
   ⟨{ (on fun e => sets [(0x4300, 1, 1)] e) with nv := { dawns := 1, fuses := [(0, 2 ^ 32)] } }, true, by decide +kernel⟩,
   ⟨{ (on fun e => sets [(0x4300, 1, 1)] e) with nv := { dawns := 1, fuses := [(0, 5)] } }, true, by decide +kernel⟩,
   ⟨on fun e => sets [(0x4300, 1, 1)] e, true, by decide +kernel⟩,
   ⟨on fun e => sets [(0x4300, 1, 1)] e, true, by decide +kernel⟩,
   ⟨on fun e => sets [(0x4300, 1, 1)] e, true, ⟨_, Nat.le_refl _, by decide +kernel, by decide +kernel⟩, by decide +kernel⟩⟩

/-- States that meet the hypotheses of the clauses of LifeCycle. -/
theorem witness_LifeCycle :
    (∃ (s : State) (k : Byte), s.serves 3 ∧ (k.toNat = 0 ∨ 4 < k.toNat)) ∧
    (∃ (s : State) (k : Byte) (sup : Bool) (r : _), s.e.transitionResult k.toNat sup = (r, false) ∧ s.serves 3 ∧ 1 ≤ k.toNat ∧ k.toNat ≤ 4 ∧ r ≠ 1) ∧
    (∃ (s : State) (k : Byte) (sup : Bool), s.serves 3 ∧ 1 ≤ k.toNat ∧ k.toNat ≤ 4 ∧ (s.e.transitionResult k.toNat sup).1 = 1 ∧
      s.nv.fuse (k.toNat - 1) = 0) ∧
    (∃ (s : State) (sup : Bool), s.serves 3 ∧ (s.e.jobState ≠ 0 ∨ s.e.fuseSupply sup = false)) ∧
    (∃ (s : State) (sup : Bool), s.serves 3 ∧ s.e.jobState = 0 ∧ s.e.fuseSupply sup = true ∧ s.e.get 0x4300 1 = 2 ∧ s.e.get 0x4310 4 < 2 ^ 32 ∧
      (le ((s.e.dom 0x4310 3 |>.drop 4).take 1)) ≠ 2 ∧ (le ((s.e.dom 0x4310 3 |>.drop 4).take 1)) ≠ 3) ∧
    (∃ (s : State), s.serves 3 ∧ s.e.dawnStep < 2) ∧
    (∃ (s : State), s.serves 3 ∧ 2 ≤ s.e.dawnStep) ∧
    (∃ (s : State), s.serves 3 ∧ 2 ≤ s.e.dawnStep ∧ (s.e.get 0x4300 1 = 1 ∨ s.e.get 0x4300 1 = 3)) ∧
    (∃ (s : State), s.serves 3 ∧ 2 ≤ s.e.dawnStep ∧ s.e.get 0x4300 1 = 2) ∧
    (∃ (s : State), s.serves 3 ∧ 2 ≤ s.e.dawnStep ∧ s.e.mode = .debugWait ∧ s.e.fuseSupply true = true ∧ s.nv.fuse 0 = 0) :=
  ⟨⟨run, 0x00#8, by decide +kernel⟩,
   ⟨run, 0x01#8, false, _, rfl, by decide +kernel⟩,
   ⟨on fun e => sets [(0x4300, 1, 0)] e, 1, true, by decide +kernel⟩,
   ⟨run, false, by decide +kernel⟩,
   ⟨run, true, by decide +kernel⟩,
   ⟨on fun e => sets [(0x2001, 1, 1)] e, by decide +kernel⟩,
   ⟨run, by decide +kernel⟩,
   ⟨on fun e => sets [(0x4300, 1, 1)] e, by decide +kernel⟩,
   ⟨run, by decide +kernel⟩,
   ⟨on fun e => { e with mode := .debugWait }, by decide +kernel⟩⟩

/-- States that meet the hypotheses of the clauses of DawnFirstSteps. -/
theorem witness_DawnFirstSteps :
    (∃ (s : State), s.e.live = true ∧ s.e.mode = .dawn ∧ s.e.get 0x2001 1 ≠ 1) ∧
    (∃ (s : State) (weak : List (Nat × Nat)), s.e.live = true ∧ s.e.mode = .dawn ∧ s.e.get 0x2001 1 = 1 ∧
      ({ s.e with dawn.read := (readFuses s.nv weak).filter (fun p => decide (p.2 ≠ ({} : FuseRead))) }).lifeCycle = none) ∧
    (∃ (s : State) (weak : List (Nat × Nat)) (k : Nat),
      ({ s.e with dawn.read := (readFuses s.nv weak).filter (fun p => decide (p.2 ≠ ({} : FuseRead))) }).lifeCycle = some k ∧ s.e.live = true ∧
        s.e.mode = .dawn ∧ s.e.get 0x2001 1 = 1 ∧ (readFuses s.nv weak).any (fun p => p.2.failed && criticalWord p.1) = true) ∧
    (∃ (s : State) (weak : List (Nat × Nat)) (k : Nat),
      ({ s.e with dawn.read := (readFuses s.nv weak).filter (fun p => decide (p.2 ≠ ({} : FuseRead))) }).lifeCycle = some k ∧ s.e.live = true ∧
        s.e.mode = .dawn ∧ s.e.get 0x2001 1 = 1 ∧ (readFuses s.nv weak).any (fun p => p.2.failed && criticalWord p.1) = false) ∧
    (∃ (s : State), s.e.live = true ∧ s.e.mode = .dawn ∧ s.e.get 0x2001 1 ≠ 2) ∧
    (∃ (s : State), s.e.live = true ∧ s.e.mode = .dawn ∧ s.e.get 0x2001 1 = 2 ∧ s.e.dawn.noticesDue = [] ∧ s.e.get 0x4300 1 = 4) ∧
    (∃ (s : State), s.e.live = true ∧ s.e.mode = .dawn ∧ s.e.get 0x2001 1 = 2 ∧ s.e.dawn.noticesDue = [] ∧ s.e.get 0x4300 1 ≠ 4) ∧
    (∃ (s : State), s.e.live = true ∧ s.e.mode = .dawn ∧ s.e.get 0x2001 1 = 4 ∧ s.nv.header = false) ∧
    (∃ (s : State), s.e.live = true ∧ s.e.mode = .dawn ∧ s.e.get 0x2001 1 = 4 ∧ s.nv.header = true ∧ (∃ p, p < 4 ∧
      (bootChoice s.nv s.e p).ok = false)) :=
  ⟨⟨on fun e => { e with mode := .dawn }, by decide +kernel⟩,
   ⟨{ (on fun e => { (sets [(0x2001, 1, 1)] e) with mode := .dawn }) with nv := { dawns := 1, fuses := [(0, 2 ^ 32)] } }, [], by decide +kernel⟩,
   ⟨{ (on fun e => { (sets [(0x2001, 1, 1)] e) with mode := .dawn }) with nv := { dawns := 1, fuses := [(505, sealedWord (lockPattern 2))] } }, [],
     _, rfl, by decide +kernel⟩,
   ⟨on fun e => { (sets [(0x2001, 1, 1)] e) with mode := .dawn }, [], _, rfl, by decide +kernel⟩,
   ⟨on fun e => { e with mode := .dawn }, by decide +kernel⟩,
   ⟨on fun e => { (sets [(0x2001, 1, 2), (0x4300, 1, 4)] e) with mode := .dawn }, by decide +kernel⟩,
   ⟨on fun e => { (sets [(0x2001, 1, 2)] e) with mode := .dawn }, by decide +kernel⟩,
   ⟨{ (on fun e => { (sets [(0x2001, 1, 4)] e) with mode := .dawn }) with nv := { dawns := 1, header := false } }, by decide +kernel⟩,
   ⟨on fun e => { (sets [(0x2001, 1, 4)] e) with mode := .dawn }, by decide +kernel⟩⟩

/-- States that meet the hypotheses of the clauses of DawnLastSteps. -/
theorem witness_DawnLastSteps :
    (∃ (s : State), s.e.live = true ∧ s.e.mode = .dawn ∧ s.e.get 0x2001 1 ≠ 5) ∧
    (∃ (s : State) (tr : BitVec 4), s.e.live = true ∧ s.e.mode = .dawn ∧ s.e.get 0x2001 1 = 5 ∧ (∀ c, c < 4 → s.e.get (0x4010 + c) 1 ≠ 4 ∧
      (bit (s.e.get 0x4000 7) c = true → bit tr.toNat c = true)) ∧ (∃ c, c < 4 ∧ bit (s.e.get 0x4000 7) c = true)) ∧
    (∃ (s : State) (tr : BitVec 4), s.e.live = true ∧ s.e.mode = .dawn ∧ s.e.get 0x2001 1 = 5 ∧ (∀ c, c < 4 → s.e.get (0x4010 + c) 1 ≠ 4) ∧
      tr.toNat = 0) ∧
    (∃ (s : State), s.e.live = true ∧ s.e.mode = .dawn ∧ s.e.get 0x2001 1 ≠ 6) ∧
    (∃ (s : State), s.e.live = true ∧ s.e.mode = .dawn ∧ s.e.get 0x2001 1 = 6 ∧ s.e.dawn.fallbackDue = [] ∧ s.nv.copies = []) ∧
    (∃ (s : State), s.e.live = true ∧ s.e.mode = .dawn ∧ s.e.get 0x2001 1 ≠ 7) ∧
    (∃ (s : State), s.e.live = true ∧ s.e.mode = .dawn ∧ s.e.get 0x2001 1 = 7 ∧ s.e.dawn.discovery = false) ∧
    (∃ (s : State), s.e.live = true ∧ s.e.mode = .dawn ∧ s.e.get 0x2001 1 = 7 ∧ s.e.dawn.discovery = true) ∧
    (∃ (s : State), s.e.live = true ∧ s.e.mode = .dawn ∧ s.e.get 0x2001 1 ≠ 8) ∧
    (∃ (s : State), s.e.live = true ∧ s.e.mode = .dawn ∧ s.e.get 0x2001 1 = 8) :=
  ⟨⟨on fun e => { e with mode := .dawn }, by decide +kernel⟩,
   ⟨on fun e => { (sets [(0x2001, 1, 5)] e) with mode := .dawn }, 0xf#4, by decide +kernel⟩,
   ⟨on fun e => { (sets [(0x2001, 1, 5)] e) with mode := .dawn }, 0, by decide +kernel⟩,
   ⟨on fun e => { e with mode := .dawn }, by decide +kernel⟩,
   ⟨on fun e => { (sets [(0x2001, 1, 6)] e) with mode := .dawn }, by decide +kernel⟩,
   ⟨on fun e => { e with mode := .dawn }, by decide +kernel⟩,
   ⟨on fun e => { (sets [(0x2001, 1, 7)] e) with mode := .dawn }, by decide +kernel⟩,
   ⟨on fun e => { (sets [(0x2001, 1, 7)] e) with mode := .dawn, dawn.discovery := true }, by decide +kernel⟩,
   ⟨on fun e => { e with mode := .dawn }, by decide +kernel⟩,
   ⟨on fun e => { (sets [(0x2001, 1, 8)] e) with mode := .dawn }, by decide +kernel⟩⟩

/-- States that meet the hypotheses of the clauses of NetworkScan. -/
theorem witness_NetworkScan :
    (∃ (s : State) (b : Bool), s.e.live = true ∧ (cellGet (fun _ => false) s.e.net.scan (ofBool b) = false ∨ s.e.serving 2 = false)) ∧
    (∃ (s : State) (b : Bool), s.e.live = true ∧ cellGet (fun _ => false) s.e.net.scan (ofBool b) = true ∧ s.e.serving 2 = true) ∧
    (∃ (s : State) (b : Bool) (a : BitVec 128) (i : Nat), s.e.live = true ∧ cellGet (fun _ => false) s.e.net.scan (ofBool b) = true ∧
      s.e.serving 2 = true ∧ s.e.profiles = [i] ∧ s.e.net.portB = 0 ∧ s.e.get (0x5000 + i) 2 = 0 ∧ s.e.expects i [a.toNat % 2 ^ 32,
        a.toNat / 2 ^ 32 % 2 ^ 32, a.toNat / 2 ^ 64 % 2 ^ 32, a.toNat / 2 ^ 96] = true) ∧
    (∃ (s : State) (b : Bool), s.e.live = true ∧ cellGet (fun _ => false) s.e.net.scan (ofBool b) = true ∧ s.e.serving 2 = true ∧
      s.e.profiles = [] ∧ (s.e.dom 0x5000 0x0B).length < 512) ∧
    (∃ (s : State), s.e.live = true ∧ (s.e.get 0x2001 1 < 8 ∨ s.e.serving 2 = false)) ∧
    (∃ (s : State), s.e.live = true ∧ 8 ≤ s.e.get 0x2001 1 ∧ s.e.serving 2 = true) :=
  ⟨⟨run, false, by decide +kernel⟩,
   ⟨on fun e => { e with net.scan := [(0, true)] }, false, by decide +kernel⟩,
   ⟨on fun e => { (sets [(0x507F, 1, 1)] e) with net := { e.net with scan := [(1, true)] } }, true, 0, 127, by decide +kernel⟩,
   ⟨on fun e => { e with net.scan := [(0, true)] }, false, by decide +kernel⟩,
   ⟨on fun e => sets [(0x2001, 1, 1)] e, by decide +kernel⟩,
   ⟨run, by decide +kernel⟩⟩

/-- States that meet the hypotheses of the clauses of PeerConfiguration. -/
theorem witness_PeerConfiguration :
    (∃ (s : State) (n : Fin 128), s.serves 2 ∧ (s.e.get (0x5000 + n.val) 2 ≠ 1 ∨ (s.e.peer n.val).cfgStep = 0)) ∧
    (∃ (s : State) (n : Fin 128) (a : BitVec 32), s.serves 2 ∧ s.e.get (0x5000 + n.val) 2 = 1 ∧ 1 ≤ (s.e.peer n.val).cfgStep ∧ a.toNat ≠ 0) ∧
    (∃ (s : State) (n : Fin 128), s.serves 2 ∧ s.e.get (0x5000 + n.val) 2 = 1 ∧ 1 ≤ (s.e.peer n.val).cfgStep ∧ (s.e.peer n.val).cfgStep < 4) ∧
    (∃ (s : State) (n : Fin 128) (d : List Byte), s.serves 2 ∧ s.e.get (0x5000 + n.val) 2 = 1 ∧ 1 ≤ (s.e.peer n.val).cfgStep ∧
      (s.e.peer n.val).cfgStep = 4 ∧ s.e.expects n.val ((s.e.peer n.val).idRead ++ [le (d.take 4)]) = false) ∧
    (∃ (s : State) (n : Fin 128), s.serves 2 ∧ s.e.get (0x5000 + n.val) 2 = 1 ∧ 1 ≤ (s.e.peer n.val).cfgStep ∧ (s.e.peer n.val).cfgStep = 6 ∧
      s.e.jobState = 1) ∧
    (∃ (s : State) (n : Fin 128), s.serves 2 ∧ s.e.get (0x5000 + n.val) 2 = 1 ∧ 1 ≤ (s.e.peer n.val).cfgStep ∧ (s.e.peer n.val).retried = false ∧
      (s.e.peer n.val).cfgStep ≤ 4) ∧
    (∃ (s : State) (n : Fin 128), s.serves 2 ∧ s.e.get (0x5000 + n.val) 2 = 1 ∧ 1 ≤ (s.e.peer n.val).cfgStep ∧ (s.e.peer n.val).retried = true) ∧
    (∃ (s : State) (n : Fin 128), s.serves 2 ∧ (s.e.peerOn n.val = false ∨ s.e.get (0x5000 + n.val) 2 ≠ 5)) ∧
    (∃ (s : State) (n : Fin 128), s.serves 2 ∧ s.e.jobState = 0 ∧ s.e.peerOn n.val = true ∧ s.e.get (0x5000 + n.val) 2 = 5) ∧
    (∃ (s : State) (n : Fin 128), s.serves 2 ∧ (s.e.peerOn n.val = false ∨ s.e.get (0x5000 + n.val) 2 ≠ 6)) ∧
    (∃ (s : State) (n : Fin 128), s.serves 2 ∧ s.e.peerOn n.val = true ∧ s.e.get (0x5000 + n.val) 2 = 6) :=
  ⟨⟨run, 0, by decide +kernel⟩,
   ⟨on fun e => (sets [(0x5001, 2, 1)] e).setPeer 1 { cfgStep := 1 }, 1, 0x00000001#32, by decide +kernel⟩,
   ⟨on fun e => (sets [(0x5001, 2, 1)] e).setPeer 1 { cfgStep := 1 }, 1, by decide +kernel⟩,
   ⟨on fun e => (sets [(0x5001, 2, 1)] e).setPeer 1 { cfgStep := 4 }, 1, [0x01#8], by decide +kernel⟩,
   ⟨on fun e => (sets [(0x2200, 2, 1), (0x5001, 2, 1)] e).setPeer 1 { cfgStep := 6 }, 1, by decide +kernel⟩,
   ⟨on fun e => (sets [(0x5001, 2, 1)] e).setPeer 1 { cfgStep := 1 }, 1, by decide +kernel⟩,
   ⟨on fun e => (sets [(0x5001, 2, 1)] e).setPeer 1 { cfgStep := 1, retried := true }, 1, by decide +kernel⟩,
   ⟨run, 0, by decide +kernel⟩,
   ⟨on fun e => sets [(0x5001, 1, 1), (0x5001, 2, 5)] e, 1, by decide +kernel⟩,
   ⟨run, 0, by decide +kernel⟩,
   ⟨on fun e => sets [(0x5001, 1, 1), (0x5001, 2, 6)] e, 1, by decide +kernel⟩⟩

/-- States that meet the hypotheses of the clauses of PeerPresence. -/
theorem witness_PeerPresence :
    (∃ (s : State) (n : Fin 128), s.serves 2 ∧ s.e.idle = 0 ∧ s.e.peerOn n.val = false) ∧
    (∃ (s : State) (n : Fin 128), s.serves 2 ∧ s.e.idle = 0 ∧ s.e.peerOn n.val = true ∧
      (s.e.get (0x5000 + n.val) 2 = 1 ∨ s.e.get (0x5000 + n.val) 2 = 2)) ∧
    (∃ (s : State) (n : Fin 128), s.serves 2 ∧ s.e.idle = 0 ∧ s.e.peerOn n.val = true ∧
      (s.e.get (0x5000 + n.val) 2 = 0 ∨ s.e.get (0x5000 + n.val) 2 = 4)) ∧
    (∃ (s : State) (n : Fin 128), s.serves 2 ∧ s.e.idle = 0 ∧ s.e.peerOn n.val = true ∧
      (s.e.get (0x5000 + n.val) 2 = 0 ∨ s.e.get (0x5000 + n.val) 2 = 1 ∨ s.e.get (0x5000 + n.val) 2 = 4 ∨ s.e.get (0x5000 + n.val) 2 = 5)) ∧
    (∃ (s : State) (n : Fin 128), s.serves 2 ∧ s.e.idle = 0 ∧ s.e.peerOn n.val = true ∧
      (s.e.get (0x5000 + n.val) 2 = 2 ∨ s.e.get (0x5000 + n.val) 2 = 3)) ∧
    (∃ (s : State) (n : Fin 128), s.serves 2 ∧ s.e.idle = 0 ∧ s.e.peerOn n.val = true ∧ (s.e.peer n.val).armed = false) ∧
    (∃ (s : State) (n : Fin 128), s.serves 2 ∧ s.e.idle = 0 ∧ s.e.peerOn n.val = true ∧ (s.e.peer n.val).armed = true ∧
      1 ≤ s.e.get (0x5000 + n.val) 2 ∧ s.e.get (0x5000 + n.val) 2 ≤ 3) ∧
    (∃ (s : State) (n : Fin 128), s.serves 2 ∧ s.e.idle = 0 ∧ s.e.peerOn n.val = true) ∧
    (∃ (s : State), s.serves 2 ∧ s.e.idle = 0 ∧ s.e.get 0x2001 1 < 7) ∧
    (∃ (s : State), s.serves 2 ∧ s.e.idle = 0 ∧ 7 ≤ s.e.get 0x2001 1 ∧ s.e.net.portB ≠ 2) ∧
    (∃ (s : State), s.serves 2 ∧ s.e.idle = 0 ∧ 7 ≤ s.e.get 0x2001 1 ∧ s.e.net.portB = 2) ∧
    (∃ (s : State), s.serves 2 ∧ s.e.idle = 0) :=
  ⟨⟨run, 0, by decide +kernel⟩,
   ⟨on fun e => sets [(0x5001, 1, 1), (0x5001, 2, 1)] e, 1, by decide +kernel⟩,
   ⟨on fun e => sets [(0x5001, 1, 1)] e, 1, by decide +kernel⟩,
   ⟨on fun e => sets [(0x5001, 1, 1)] e, 1, by decide +kernel⟩,
   ⟨on fun e => sets [(0x5001, 1, 1), (0x5001, 2, 2)] e, 1, by decide +kernel⟩,
   ⟨on fun e => sets [(0x5001, 1, 1)] e, 1, by decide +kernel⟩,
   ⟨on fun e => (sets [(0x5001, 1, 1), (0x5001, 2, 1)] e).setPeer 1 { armed := true }, 1, by decide +kernel⟩,
   ⟨on fun e => sets [(0x5001, 1, 1)] e, 1, by decide +kernel⟩,
   ⟨on fun e => sets [(0x2001, 1, 1)] e, by decide +kernel⟩,
   ⟨run, by decide +kernel⟩,
   ⟨on fun e => { e with net.portB := 2 }, by decide +kernel⟩,
   ⟨run, by decide +kernel⟩⟩

/-- States that meet the hypotheses of the clauses of ProcessData. -/
theorem witness_ProcessData :
    (∃ (s : State) (n : Fin 16), s.serves 2 ∧ s.e.idle = 0 ∧ s.e.pdoValid (0x1400 + n.val) = false) ∧
    (∃ (s : State) (n : Fin 16), s.serves 2 ∧ s.e.idle = 0 ∧ s.e.pdoValid (0x1400 + n.val) = true ∧ s.e.get (0x1400 + n.val) 2 ≤ 240) ∧
    (∃ (s : State) (n : Fin 16) (data : List Byte) (i : Nat) (sub : Nat), s.serves 2 ∧ s.e.idle = 0 ∧ s.e.pdoValid (0x1400 + n.val) = true ∧
      240 < s.e.get (0x1400 + n.val) 2 ∧ s.e.mapped (0x1600 + n.val) = [(0x5000 + i, sub, 4)] ∧ 1 ≤ i ∧ i < 128 ∧ 0x20 ≤ sub ∧ sub < 0x30 ∧
        s.e.get (0x5000 + i) 2 = 3 ∧ data.length = 4) ∧
    (∃ (s : State), s.serves 2 ∧ s.e.idle = 0 ∧ bit (s.e.get 0x1005 0) 30 = true ∧ s.e.get 0x1006 0 = 0) ∧
    (∃ (s : State), s.serves 2 ∧ s.e.idle = 0 ∧ (∀ m, m < 16 → s.e.tpdoOn m = false) ∧ s.e.net.rpdoSync = [] ∧ bit (s.e.get 0x1005 0) 30 = false) ∧
    (∃ (s : State), s.serves 2 ∧ s.e.idle = 0 ∧ (∀ m, m < 16 → s.e.tpdoOn m = false) ∧ s.e.net.rpdoSync = [] ∧ bit (s.e.get 0x1005 0) 30 = true ∧
      s.e.get 0x1006 0 ≠ 0 ∧ s.e.get 0x1019 0 ≠ 0 ∧ s.e.net.portB = 0) ∧
    (∃ (s : State), s.serves 2 ∧ s.e.idle = 0 ∧ (∀ m, m < 16 → s.e.tpdoOn m = false)) ∧
    (∃ (s : State) (n : Fin 16) (tm : BitVec 16), s.serves 2 ∧ s.e.idle = 0 ∧ s.e.tpdoOn n.val = true ∧ (∀ m,
      m < 16 → m ≠ n.val → s.e.tpdoOn m = false) ∧ 254 ≤ s.e.get (0x1800 + n.val) 2 ∧ bit tm.toNat n.val = true ∧ s.e.get (0x1800 + n.val) 5 ≠ 0) ∧
    (∃ (s : State), s.serves 2 ∧ s.e.idle = 0 ∧ s.e.net.portB = 0) ∧
    (∃ (s : State), s.serves 2 ∧ s.e.idle = 0 ∧ s.e.net.portB ≠ 2) ∧
    (∃ (s : State), s.serves 2 ∧ s.e.idle = 0 ∧ s.e.net.portB = 2) ∧
    (∃ (s : State), s.serves 2 ∧ s.e.idle = 0 ∧ s.e.net.portB = 2 ∧ s.e.get 0x5000 0x0D = 1) :=
  ⟨⟨run, 0, by decide +kernel⟩,
   ⟨on fun e => sets [(0x1400, 1, 512), (0x1400, 2, 0)] e, 0, by decide +kernel⟩,
   ⟨on fun e => sets [(0x140F, 1, 0x200), (0x140F, 2, 254), (0x160F, 0, 1), (0x160F, 1, 0x507F2020), (0x507F, 2, 3)] e, 15, [0, 0, 0, 0], 127,
     0x20, by decide +kernel⟩,
   ⟨on fun e => sets [(0x1005, 0, 1073741952)] e, by decide +kernel⟩,
   ⟨run, by decide +kernel⟩,
   ⟨on fun e => sets [(0x1005, 0, 1073741952), (0x1006, 0, 1000), (0x1019, 0, 10)] e, by decide +kernel⟩,
   ⟨run, by decide +kernel⟩,
   ⟨on fun e => sets [(0x180F, 1, 0x200), (0x180F, 2, 254), (0x1A0F, 0, 1), (0x180F, 5, 1)] e, 15, 0x8000, by decide +kernel⟩,
   ⟨run, by decide +kernel⟩,
   ⟨run, by decide +kernel⟩,
   ⟨on fun e => { e with net.portB := 2 }, by decide +kernel⟩,
   ⟨on fun e => { (sets [(0x5000, 13, 1)] e) with net.portB := 2 }, by decide +kernel⟩⟩

/-- States that meet the hypotheses of the clauses of DictionaryWrites. -/
theorem witness_DictionaryWrites :
    (∃ (s : State) (x : BitVec 16), s.e.live = true ∧ indexExists x.toNat = false) ∧
    (∃ (s : State) (x : BitVec 16) (y : Byte), s.e.live = true ∧ indexExists x.toNat = true ∧ dictRow x.toNat y.toNat = none) ∧
    (∃ (s : State) (x : BitVec 16) (y : Byte) (d : DictRow), dictRow x.toNat y.toNat = some d ∧ s.e.live = true ∧ indexExists x.toNat = true ∧
      (d.acc = .ro ∨ d.acc = .const)) ∧
    (∃ (s : State) (x : BitVec 16) (y : Byte) (data : List Byte) (d : DictRow), dictRow x.toNat y.toNat = some d ∧ s.e.live = true ∧
      indexExists x.toNat = true ∧ (d.acc = .rw ∨ d.acc = .wo) ∧ clockEnable x.toNat y.toNat = false ∧ d.ty.numeric = true ∧
        data.length ≠ d.ty.bytes) ∧
    (∃ (s : State) (x : BitVec 16) (y : Byte) (data : List Byte) (d : DictRow), dictRow x.toNat y.toNat = some d ∧ s.e.live = true ∧
      indexExists x.toNat = true ∧ (d.acc = .rw ∨ d.acc = .wo) ∧ clockEnable x.toNat y.toNat = false ∧ d.ty.numeric = true ∧
        data.length = d.ty.bytes ∧ s.e.serving (owner x.toNat) = false) ∧
    (∃ (s : State) (x : BitVec 16) (y : Byte) (data : List Byte) (d : DictRow), dictRow x.toNat y.toNat = some d ∧ s.e.live = true ∧
      indexExists x.toNat = true ∧ (d.acc = .rw ∨ d.acc = .wo) ∧ clockEnable x.toNat y.toNat = false ∧ d.ty.numeric = true ∧
        data.length = d.ty.bytes ∧ s.e.serving 0 = true ∧ 0x2100 ≤ x.toNat ∧ x.toNat < 0x2800 ∧ s.e.command x.toNat y.toNat (le data) data = none ∧
          s.e.entryState d x.toNat y.toNat (le data) = false) ∧
    (∃ (s : State) (x : BitVec 16) (y : Byte) (data : List Byte) (d : DictRow), dictRow x.toNat y.toNat = some d ∧ s.e.live = true ∧
      indexExists x.toNat = true ∧ (d.acc = .rw ∨ d.acc = .wo) ∧ clockEnable x.toNat y.toNat = false ∧ d.ty.numeric = true ∧
        data.length = d.ty.bytes ∧ s.e.serving 0 = true ∧ 0x2100 ≤ x.toNat ∧ x.toNat < 0x2800 ∧ s.e.command x.toNat y.toNat (le data) data = none ∧
          s.e.entryState d x.toNat y.toNat (le data) = true ∧ s.e.valueCode d x.toNat y.toNat (le data) ≠ 0) ∧
    (∃ (s : State) (x : BitVec 16) (y : Byte) (data : List Byte) (d : DictRow), dictRow x.toNat y.toNat = some d ∧ s.e.live = true ∧
      indexExists x.toNat = true ∧ (d.acc = .rw ∨ d.acc = .wo) ∧ clockEnable x.toNat y.toNat = false ∧ d.ty.numeric = true ∧
        data.length = d.ty.bytes ∧ s.e.serving 0 = true ∧ 0x2100 ≤ x.toNat ∧ x.toNat < 0x2800 ∧ s.e.command x.toNat y.toNat (le data) data = none ∧
          s.e.entryState d x.toNat y.toNat (le data) = true ∧ s.e.valueCode d x.toNat y.toNat (le data) = 0 ∧ d.cls = .now) ∧
    (∃ (s : State) (x : BitVec 16) (y : Byte) (data : List Byte) (d : DictRow), dictRow x.toNat y.toNat = some d ∧ s.e.live = true ∧
      indexExists x.toNat = true ∧ (d.acc = .rw ∨ d.acc = .wo) ∧ clockEnable x.toNat y.toNat = false ∧ d.ty.numeric = true ∧
        data.length = d.ty.bytes ∧ s.e.serving 0 = true ∧ 0x2100 ≤ x.toNat ∧ x.toNat < 0x2800 ∧ s.e.command x.toNat y.toNat (le data) data = none ∧
          s.e.entryState d x.toNat y.toNat (le data) = true ∧ s.e.valueCode d x.toNat y.toNat (le data) = 0 ∧ d.cls = .staged ∧ s.e.jobState ≠ 0) :=
  ⟨⟨run, 0x0000#16, by decide +kernel⟩,
   ⟨run, 0x2200, 0xFF, by decide +kernel⟩,
   ⟨run, 0x2200, 2, _, rfl, by decide +kernel⟩,
   ⟨run, 0x2200, 1, [], _, rfl, by decide +kernel⟩,
   ⟨on fun e => { e with dawn := { e.dawn with partUp := 0 } }, 0x2200, 6, [2], _, rfl, by decide +kernel⟩,
   ⟨on fun e => sets [(0x2200, 2, 1)] e, 0x2200, 6, [4], _, rfl, by decide +kernel⟩,
   ⟨run, 0x2200, 5, [1, 0], _, rfl, by decide +kernel⟩,
   ⟨run, 0x2200, 4, [1, 2, 3, 4], _, rfl, by decide +kernel⟩,
   ⟨on fun e => sets [(0x2200, 2, 1)] e, 0x2201, 2, [0], _, rfl, by decide +kernel⟩⟩

/-- States that meet the hypotheses of the clauses of DictionaryStoreAndUsdo. -/
theorem witness_DictionaryStoreAndUsdo :
    (∃ (s : State) (x : BitVec 16), s.serves 2 ∧ s.e.idle = 0 ∧ s.e.usdoSilent x.toNat = true) ∧
    (∃ (s : State) (op : Byte) (x : BitVec 16) (y : Byte), s.serves 2 ∧ s.e.idle = 0 ∧ s.e.usdoSilent x.toNat = false ∧ op.toNat ≠ 2 ∧
      7 ≤ (Engine.serveRead (s.e.wrap 0x2003 9 1) x.toNat y.toNat).dawnStep) ∧
    (∃ (s : State) (op : Byte) (x : BitVec 16) (y : Byte) (data : List Byte), s.serves 2 ∧ s.e.idle = 0 ∧ s.e.usdoSilent x.toNat = false ∧
      op.toNat = 2 ∧ s.e.writeCode x.toNat y.toNat data.length ≠ 0) ∧
    (∃ (s : State) (g : Byte), s.serves 2 ∧ s.e.idle = 0 ∧ (g.toNat = 0 ∨ 3 < g.toNat)) ∧
    (∃ (s : State) (g : Byte) (v : BitVec 32), s.serves 2 ∧ s.e.idle = 0 ∧ 1 ≤ g.toNat ∧ g.toNat ≤ 3 ∧ (∀ p, p < 4 → s.e.get (0x4400 + p) 4 ≠ 2) ∧
      s.e.integ.flashDue = [] ∧ s.e.stage < 4 ∧ v.toNat ≠ 0x65766173) ∧
    (∃ (s : State) (g : Byte) (v : BitVec 32), s.serves 2 ∧ s.e.idle = 0 ∧ 1 ≤ g.toNat ∧ g.toNat ≤ 3 ∧ (∀ p, p < 4 → s.e.get (0x4400 + p) 4 ≠ 2) ∧
      s.e.integ.flashDue = [] ∧ s.e.stage < 4 ∧ v.toNat ≠ 0x64616F6C) ∧
    (∃ (s : State) (g : Byte) (q : Nat) (bs : List Byte), newCopy false g.toNat s.nv s.e = (q, bs) ∧ s.serves 2 ∧ s.e.idle = 0 ∧ 1 ≤ g.toNat ∧
      g.toNat ≤ 3 ∧ (∀ p, p < 4 → s.e.get (0x4400 + p) 4 ≠ 2) ∧ s.e.integ.flashDue = [] ∧ s.e.stage < 4 ∧ bs.length ≤ 2 ^ 20) ∧
    (∃ (s : State) (v : Byte), s.serves 2 ∧ s.e.idle = 0 ∧ v.toNat ≠ 0) ∧
    (∃ (s : State), s.serves 2 ∧ s.e.idle = 0) :=
  ⟨⟨on fun e => sets [(0x4403, 4, 2)] e, 0xffff#16, by decide +kernel⟩,
   ⟨run, 0x00#8, 0x0000#16, 0x00#8, by decide +kernel⟩,
   ⟨run, 2, 0, 0, [], by decide +kernel⟩,
   ⟨run, 0x00#8, by decide +kernel⟩,
   ⟨run, 0x01#8, 0x00000000#32, by decide +kernel⟩,
   ⟨run, 0x01#8, 0x00000000#32, by decide +kernel⟩,
   ⟨run, 1, _, _, rfl, by decide +kernel⟩,
   ⟨run, 0x01#8, by decide +kernel⟩,
   ⟨run, by decide +kernel⟩⟩

/-- States that meet the hypotheses of the clauses of JobParametersOnlyInIdle. -/
theorem witness_JobParametersOnlyInIdle :
    (∃ (s : State) (x : BitVec 16) (y : Byte) (data : List Byte) (d : DictRow), dictRow 0x2200 y.toNat = some d ∧ s.serves 0 ∧ x.toNat = 0x2200 ∧
      5 ≤ y.toNat ∧ y.toNat ≤ 8 ∧ data.length = d.ty.bytes ∧ s.e.jobState ≠ 0) ∧
    (∃ (s : State) (x : BitVec 16) (y : Byte) (data : List Byte) (d : DictRow), dictRow 0x2200 y.toNat = some d ∧ s.serves 0 ∧ x.toNat = 0x2200 ∧
      5 ≤ y.toNat ∧ y.toNat ≤ 8 ∧ data.length = d.ty.bytes ∧ s.e.jobState = 0 ∧ d.range.ok d.ty (le data) = true) :=
  ⟨⟨on fun e => sets [(0x2200, 2, 3)] e, 0x2200, 5, [0, 0], _, rfl, by decide +kernel⟩,
   ⟨run, 0x2200, 5, [0x58, 2], _, rfl, by decide +kernel⟩⟩

/-- States that meet the hypotheses of the clauses of StageReleaseIsSilent. -/
theorem witness_StageReleaseIsSilent :
    ∃ (s : State) (vin : BitVec 16) (iin : BitVec 16) (k : Fin 5), s.e.live = true ∧ s.e.stage = k.val + 1 ∧
      s.e.releases (k.val + 1) vin.toNat iin.toNat = true :=
  ⟨on fun e => sets [(0x4200, 4, 1)] e, 0xffff#16, 0x0000#16, 0, by decide +kernel⟩

end Sys2Proof.Tests
end

