-- ==== Sys2Proof/Tests/MoreWitnesses.lean ====
section
/-! SUPPORT. Witnesses that an evaluation alone does not give: images of whole memories, free quantifiers, opaque signatures. -/

open Sys2Proof Sys2Proof.Machine
namespace Sys2Proof.Tests
set_option Elab.async false

/-- Blank written DRAM without bad lines reads as zeros. -/
theorem blank_read (e : Engine) (a n k : Nat) (hm : e.mem.bytes = []) (hb : e.mem.bad = []) (hw : e.mem.written = [(0, k)])
    (h : a + n ≤ 64 * k) (hu : 64 * k ≤ e.mem.usable) : e.dramRead a n = some (List.replicate n 0) := by
  have hf : ∀ (p : Nat → Bool) (l : List Nat), (∀ x, x ∈ l → p x = false) → firstIdx p l = none := by
    intro p l
    induction l with
    | nil => intro _; rfl
    | cons x r ih =>
      intro hx
      simp only [firstIdx, hx x (List.mem_cons_self ..)]
      exact ih (fun y hy => hx y (List.mem_cons_of_mem _ hy))
  have hB : e.busError a n = none := by
    refine hf _ _ (fun x hx => ?_)
    have hlt : x < k := by
      unfold linesOf at hx
      split at hx
      · simp at hx
      · simp only [List.mem_map, List.mem_range] at hx
        obtain ⟨i, hi, rfl⟩ := hx
        omega
    simp only [Engine.lineOk, hw, hb, spanMem, Engine.inDram, cellGet_nil]
    have h1 : 64 * x + 64 ≤ e.mem.usable := by omega
    simp [hlt, h1]
  rw [Engine.dramRead, hB]
  simp only [Engine.dramByte, hm, cellGet_nil, List.map_const', List.length_range]

/-- A read that begins beyond usable DRAM gives a bus error. -/
theorem beyond_read (e : Engine) (a n : Nat) (h : e.mem.usable ≤ a) : e.dramRead a (n + 1) = none := by
  have hB : e.busError a (n + 1) = some (a / 64) := by
    obtain ⟨m, hm⟩ : ∃ m, (a + (n + 1) - 1) / 64 + 1 - a / 64 = m + 1 :=
      ⟨(a + (n + 1) - 1) / 64 - a / 64, by omega⟩
    have hlt : ¬ (a / 64 * 64 + 64 ≤ e.mem.usable) := by omega
    unfold Engine.busError linesOf
    rw [if_neg (Nat.succ_ne_zero n), hm, List.range_succ_eq_map]
    simp [firstIdx, Engine.inDram, Nat.mul_comm 64, hlt]
  rw [Engine.dramRead, hB]

theorem le_zeros (n : Nat) : le (List.replicate n 0) = 0 := by
  induction n with
  | zero => rfl
  | succ n ih => exact (by rw [List.replicate_succ, le, ih]; rfl)

/-- A blank curve: every entry is 0. -/
theorem blank_curve : (curveEntries (List.replicate 2048 0)).all (fun v => decide (v ≤ 1023)) = true := by
  have h : ∀ i, ((List.replicate 2048 (0 : Byte)).getD i 0) = 0 := by
    intro i; simp only [List.getD_eq_getElem?_getD, List.getElem?_replicate]; split <;> rfl
  simp only [curveEntries, h, List.all_map]
  rw [List.all_eq_true]
  intro i _
  have h : cellOk 0 = true := by decide
  rw [Function.comp_apply]
  exact h

/-- A blank image: every word is 0. -/
theorem blank_image (n m : Nat) : (imageWords n (List.replicate m 0)).all cellOk = true := by
  simp only [imageWords, List.drop_replicate, List.take_replicate, le_zeros, List.all_map]
  rw [List.all_eq_true]
  intro i _
  have h : cellOk 0 = true := by decide
  rw [Function.comp_apply]
  exact h


/-- The running engine with job state `j`; entry `i`:02h, a check entry, holds `v`. -/
def checked (j i v : Nat) : State := { run with e := ((run.e.put 0x2200 2 j).put i 2 v) }

theorem checked_serves (j i v : Nat) (h : 0x2420 ≤ i) (h' : i < 0x2520) : (checked j i v).serves 0 := by
  refine ⟨rfl, ?_⟩
  have hk (k : Nat) (hj : k < 256) : ((run.e.put 0x2200 2 j).put i 2 v).get 0x4400 k = run.e.get 0x4400 k := by
    rw [Engine.get_put_other _ (by omega) hj (by omega), Engine.get_put_other _ (by omega) hj (by omega)]
  show (_ && _ && _) = true
  simp only [checked, Nat.add_zero, hk 4 (by omega), Engine.put_dawn]
  decide +kernel

theorem checked_get (j i v : Nat) : (checked j i v).e.get i 2 = v := Engine.get_put_same _ _ _ _

theorem checked_other (j i v i' j' : Nat) (hj : j' < 256) (h : ¬ (i' = i ∧ j' = 2)) :
    (checked j i v).e.get i' j' = (run.e.put 0x2200 2 j).get i' j' :=
  Engine.get_put_other _ (by omega) hj h

theorem checked_read (j i v n : Nat) (h : n ≤ 64 * 1048576) : (checked j i v).e.dramRead 0 n = some (List.replicate n 0) :=
  have hm : (checked j i v).e.mem = run.e.mem := by simp only [checked, Engine.put_mem]
  blank_read _ 0 n 1048576 (by rw [hm]; decide +kernel) (by rw [hm]; decide +kernel) (by rw [hm]; decide +kernel) (by omega) (by rw [hm]; decide +kernel)

/-- R117: threshold arrays whose CRC differs, and is right. -/
theorem witness_ScreeningTables_arrays :
    (∃ (s : State) (b : Fin 8) (bs : List Byte), s.e.dramRead (s.e.get (0x2420 + b.val) 1) 262144 = some bs ∧ s.serves 0 ∧
      s.e.flag (0x2410 + b.val) 2 = false ∧ crc32c bs ≠ s.e.get (0x2420 + b.val) 2) ∧
    (∃ (s : State) (b : Fin 8) (bs : List Byte), s.e.dramRead (s.e.get (0x2420 + b.val) 1) 262144 = some bs ∧ s.serves 0 ∧
      s.e.flag (0x2410 + b.val) 2 = false ∧ crc32c bs = s.e.get (0x2420 + b.val) 2 ∧
      (imageWords 65536 bs).all cellOk = true ∧ s.e.jobState ≠ 0) := by
  have ha (v : Nat) : (checked 1 0x2427 v).e.get (0x2420 + (7 : Fin 8).val) 1 = 0 := by
    rw [show 0x2420 + (7 : Fin 8).val = 0x2427 from rfl, checked_other _ _ _ _ _ (by omega) (by omega)]
    decide +kernel
  have hf (v : Nat) : (checked 1 0x2427 v).e.flag (0x2410 + (7 : Fin 8).val) 2 = false := by
    rw [Engine.flag, show 0x2410 + (7 : Fin 8).val = 0x2417 from rfl, checked_other _ _ _ _ _ (by omega) (by omega)]
    decide +kernel
  refine ⟨⟨checked 1 0x2427 (crc32c (List.replicate 262144 0) + 1), 7, List.replicate 262144 0, ?_,
      checked_serves _ _ _ (by omega) (by omega), hf _, ?_⟩,
    ⟨checked 1 0x2427 (crc32c (List.replicate 262144 0)), 7, List.replicate 262144 0, ?_,
      checked_serves _ _ _ (by omega) (by omega), hf _, (checked_get 1 0x2427 _).symm, blank_image _ _, ?_⟩⟩
  · rw [ha]; exact checked_read _ _ _ _ (by omega)
  · rw [show 0x2420 + (7 : Fin 8).val = 0x2427 from rfl, checked_get]; omega
  · rw [ha]; exact checked_read _ _ _ _ (by omega)
  · rw [Engine.jobState, checked_other _ _ _ _ _ (by omega) (by omega), Engine.get_put_same]; omega

/-- R136: masks whose CRC differs, and is right. -/
theorem witness_MaskLoads_crc :
    (∃ (s : State) (m : Fin 16) (bs : List Byte), s.e.dramRead (s.e.get (0x2510 + m.val) 1) 65536 = some bs ∧ s.serves 0 ∧
      s.e.maskInUse m.val = false ∧ crc32c bs ≠ s.e.get (0x2510 + m.val) 2) ∧
    (∃ (s : State) (m : Fin 16) (bs : List Byte), s.e.dramRead (s.e.get (0x2510 + m.val) 1) 65536 = some bs ∧ s.serves 0 ∧
      s.e.maskInUse m.val = false ∧ crc32c bs = s.e.get (0x2510 + m.val) 2 ∧ (∀ b, b ∈ bs → b.toNat < 8)) := by
  have ha (v : Nat) : (checked 0 0x251F v).e.get (0x2510 + (15 : Fin 16).val) 1 = 0 := by
    rw [show 0x2510 + (15 : Fin 16).val = 0x251F from rfl, checked_other _ _ _ _ _ (by omega) (by omega)]
    decide +kernel
  have hm (v : Nat) : (checked 0 0x251F v).e.maskInUse (15 : Fin 16).val = false := by
    rw [Engine.maskInUse, Engine.jobState, checked_other _ _ _ _ _ (by omega) (by omega), Engine.get_put_same]
    exact Bool.false_and _
  refine ⟨⟨checked 0 0x251F (crc32c (List.replicate 65536 0) + 1), 15, List.replicate 65536 0, ?_,
      checked_serves _ _ _ (by omega) (by omega), hm _, ?_⟩,
    ⟨checked 0 0x251F (crc32c (List.replicate 65536 0)), 15, List.replicate 65536 0, ?_,
      checked_serves _ _ _ (by omega) (by omega), hm _, (checked_get 0 0x251F _).symm, ?_⟩⟩
  · rw [ha]; exact checked_read _ _ _ _ (by omega)
  · rw [show 0x2510 + (15 : Fin 16).val = 0x251F from rfl, checked_get]; omega
  · rw [ha]; exact checked_read _ _ _ _ (by omega)
  · intro b hb; rw [List.eq_of_mem_replicate hb]; decide

/-- R115, R117: a curve too long, a curve while a job runs, an array that cannot be read. -/
theorem witness_ScreeningTables_sizes :
    (∃ (s : State) (_b : Fin 8) (data : List Byte), s.serves 0 ∧ 2048 < data.length) ∧
    (∃ (s : State) (b : Fin 8) (data : List Byte), s.serves 0 ∧ data.length = 2048 ∧ s.e.flag (0x2410 + b.val) 2 = false ∧
      s.e.jobState ≠ 0 ∧ (curveEntries data).all (fun v => decide (v ≤ 1023)) = true) ∧
    (∃ (s : State) (b : Fin 8), s.serves 0 ∧ s.e.flag (0x2410 + b.val) 2 = false ∧
      s.e.dramRead (s.e.get (0x2420 + b.val) 1) 262144 = none) :=
  ⟨⟨run, 7, List.replicate 2049 0, by decide +kernel, by rw [List.length_replicate]; omega⟩,
   ⟨on fun e => sets [(0x2200, 2, 1)] e, 7, List.replicate 2048 0, by decide +kernel, List.length_replicate, by decide +kernel,
    by decide +kernel, blank_curve⟩,
   ⟨on fun e => sets [(0x2427, 1, 0xFFFFFFFFFF)] e, 7, by decide +kernel, by decide +kernel,
    beyond_read _ _ 262143 (by decide +kernel)⟩⟩

/-- R143: images of no head, whose CRC differs or is right; an image that cannot be read. -/
theorem witness_CatalogueImages_reads :
    (∃ (s : State), s.serves 0 ∧ s.e.get 0x2601 3 + s.e.get 0x2601 4 ≤ 128 ∧
      s.e.dramRead (s.e.get 0x2601 1) (s.e.get 0x2601 4 * 8192) = none) ∧
    (∃ (s : State) (bs : List Byte), s.e.dramRead (s.e.get 0x2601 1) (s.e.get 0x2601 4 * 8192) = some bs ∧ s.serves 0 ∧
      s.e.get 0x2601 3 + s.e.get 0x2601 4 ≤ 128 ∧ crc32c bs ≠ s.e.get 0x2601 2) ∧
    (∃ (s : State) (bs : List Byte), s.e.dramRead (s.e.get 0x2601 1) (s.e.get 0x2601 4 * 8192) = some bs ∧ s.serves 0 ∧
      s.e.get 0x2601 3 + s.e.get 0x2601 4 ≤ 128 ∧ crc32c bs = s.e.get 0x2601 2 ∧
      (imageWords (s.e.get 0x2601 4 * 2048) bs).all (fun w => bits w 15 11 == 0) = true) :=
  ⟨⟨on fun e => sets [(0x2601, 1, 0xFFFFFFFFFF), (0x2601, 3, 127), (0x2601, 4, 1)] e, by decide +kernel, by decide +kernel,
    beyond_read _ _ 8191 (by decide +kernel)⟩,
   ⟨on fun e => sets [(0x2601, 2, 1), (0x2601, 4, 0)] e, [], by decide +kernel, by decide +kernel, by decide +kernel, by decide +kernel⟩,
   ⟨on fun e => sets [(0x2601, 2, 0), (0x2601, 4, 0)] e, [], by decide +kernel, by decide +kernel, by decide +kernel, by decide +kernel, by decide +kernel⟩⟩

theorem witness_CatalogueImages_dump :
    ∃ (s : State), s.serves 0 ∧ s.e.get 0x2601 3 + s.e.get 0x2601 4 ≤ 128 ∧
      ((List.range (s.e.get 0x2601 4 * 2048)).map (· + s.e.get 0x2601 3 * 2048)).any s.e.poisonedW = false ∧
      s.e.inDram (s.e.get 0x2601 1) (s.e.get 0x2601 4 * 8192) = true ∧ s.e.mem.bad = [] :=
  ⟨on fun e => sets [(0x2601, 4, 0)] e, by decide +kernel⟩

/-- R41, R46: a boundary whose forecast commits, one whose forecast does not, and a retry that still does not. -/
theorem witness_BoundaryAndForecast_commits :
    ∃ (s : State) (e : Engine) (st n : Nat), s.e.live = true ∧ s.e.jobState = 1 ∧ s.e.pan.due = false ∧ s.e.pan.holder = none ∧
      s.e.jobOver = false ∧ e = (s.e.returnHeads.peerRules (s.e.pan.panels == 0)).evalHolds ∧ e.jobState = 1 ∧
      e.flag 0x2430 9 = false ∧ e.forecastInputs.choose = some (st, n) :=
  ⟨on fun e => { (sets [(0x2200, 2, 1)] e) with pan.banks := 0 }, _, 0, 16, by decide +kernel, by decide +kernel, by decide +kernel,
   by decide +kernel, by decide +kernel, rfl, by decide +kernel⟩

theorem witness_BoundaryAndForecast_starves :
    ∃ (s : State) (e : Engine), s.e.live = true ∧ s.e.jobState = 1 ∧ s.e.pan.due = false ∧ s.e.pan.holder = none ∧
      s.e.jobOver = false ∧ e = (s.e.returnHeads.peerRules (s.e.pan.panels == 0)).evalHolds ∧ e.jobState = 1 ∧
      e.flag 0x2430 9 = false ∧ e.forecastInputs.choose = none :=
  ⟨on fun e => sets [(0x2200, 2, 1)] e, _, by decide +kernel, by decide +kernel, by decide +kernel,
   by decide +kernel, by decide +kernel, rfl, by decide +kernel⟩

theorem witness_BoundaryAndForecast_retry :
    ∃ (s : State), s.e.live = true ∧ s.e.jobState = 3 ∧ s.e.hold 3 = true ∧ s.e.flag 0x2430 9 = false ∧
      s.e.forecastInputs.choose = none :=
  ⟨on fun e => sets [(0x2200, 2, 3), (0x2200, 3, 8)] e, by decide +kernel⟩

/-- The running engine prints line 0 of a transit; head 127 has sent nothing. -/
def printing (serving : Bool) : State :=
  on fun e => { ((sets [(0x2700, 0xB, 10)] e).setHead 127 { serving := serving }) with
    pan := { e.pan with flight := some {}, banks := 128 } }

theorem printing_lines (v : Bool) (ls : List (Option SliceLine))
    (h : ls = (List.range 32).map (fun i => (printing v).e.carried 0 127 i 0)) :
    ls = List.replicate 32 none := by
  rw [h]; cases v <;> decide +kernel

/-- R187: a frame of a head that serves, and of one that does not. -/
theorem witness_FramesSent_lines :
    (∃ (s : State) (h : Fin 128) (f : Flight) (ls : List (Option SliceLine)), s.e.live = true ∧ s.e.pan.flight = some f ∧
      ls = (List.range 32).map (fun i => s.e.carried f.t h.val i (s.e.head h.val).frame) ∧ f.ret = false ∧
      s.e.storeHeads.contains h.val = true ∧ (s.e.head h.val).frame < s.e.linesC ∧ (s.e.head h.val).frame ≤ f.line ∧
      s.e.get 0x4282 1 = 2 ∧ (s.e.head h.val).serving = true ∧ (∀ y, some y ∈ ls → y.check = checkWord y.codes) ∧
      s.e.frameCause f h.val (s.e.head h.val).frame ls false = 0) ∧
    (∃ (s : State) (h : Fin 128) (f : Flight) (ls : List (Option SliceLine)), s.e.live = true ∧ s.e.pan.flight = some f ∧
      ls = (List.range 32).map (fun i => s.e.carried f.t h.val i (s.e.head h.val).frame) ∧ f.ret = false ∧
      s.e.storeHeads.contains h.val = true ∧ (s.e.head h.val).frame < s.e.linesC ∧ (s.e.head h.val).frame ≤ f.line ∧
      s.e.get 0x4282 1 = 2 ∧ (s.e.head h.val).serving = false ∧ (∀ y, some y ∈ ls → y.check = checkWord y.codes)) := by
  have hn (y : SliceLine) (ls : List (Option SliceLine)) (h : ls = List.replicate 32 none) (hy : some y ∈ ls) :
      y.check = checkWord y.codes := by
    rw [h] at hy; cases List.eq_of_mem_replicate hy
  exact ⟨⟨printing true, 127, {}, List.replicate 32 none, by decide +kernel, by decide +kernel, by decide +kernel, rfl, by decide +kernel,
      by decide +kernel, by decide +kernel, by decide +kernel, by decide +kernel, fun y => hn y _ rfl, by decide +kernel⟩,
    ⟨printing false, 127, {}, List.replicate 32 none, by decide +kernel, by decide +kernel, by decide +kernel, rfl, by decide +kernel,
      by decide +kernel, by decide +kernel, by decide +kernel, by decide +kernel, fun y => hn y _ rfl⟩⟩

/-- R367: region 1 with every word sealed can be locked. -/
theorem witness_FuseCommands_lock :
    ∃ (s : State) (sup : Bool), s.serves 3 ∧ sequencerRefuses s.nv s.e (s.e.get 0x4302 4) sup = 0 ∧
      (∀ j, (regionWords (s.e.get 0x4302 4)).1 ≤ j → j ≤ (regionWords (s.e.get 0x4302 4)).2 →
        bit (s.nv.fuse j) 32 = true ∧ (fuseDecode (s.nv.fuse j)).bad = false ∧ (fuseDecode (s.nv.fuse j)).sealed = true) ∧
      s.nv.fuse (503 + s.e.get 0x4302 4) = 0 ∧ s.e.get 0x4302 4 ≤ 8 := by
  let w : State := { (on fun e => sets [(0x4300, 1, 1), (0x4302, 4, 1)] e) with
    nv := { dawns := 1, fuses := (List.range 8).map (fun i => (i + 8, sealedWord i)) } }
  have hr : w.e.get 0x4302 4 = 1 := by decide +kernel
  have hw : ∀ j, 8 ≤ j → j ≤ 15 → bit (w.nv.fuse j) 32 = true ∧ (fuseDecode (w.nv.fuse j)).bad = false ∧
      (fuseDecode (w.nv.fuse j)).sealed = true := by
    have h : ∀ k, k < 8 → bit (w.nv.fuse (k + 8)) 32 = true ∧ (fuseDecode (w.nv.fuse (k + 8))).bad = false ∧
      (fuseDecode (w.nv.fuse (k + 8))).sealed = true := by decide +kernel
    intro j h1 h2
    have := h (j - 8) (by omega)
    rwa [Nat.sub_add_cancel h1] at this
  refine ⟨w, true, by decide +kernel, by decide +kernel, ?_, by decide +kernel, by decide +kernel⟩
  rw [hr]
  exact hw

/-- R163: a block of the store arrives and is accepted. -/
theorem witness_FetchBlocks_accepted :
    ∃ (s : State) (b : Fin 8) (bx by_ : Nat) (bs : List Byte) (l : List Nat), s.e.live = true ∧ s.e.pan.flight.isSome = true ∧
      cellFind (s.e.pan.slot b.val bx by_) s.e.path.fetch = some .requested ∧
      s.e.dramRead (s.e.pan.slotAddr (s.e.pan.slot b.val bx by_)) (8 * min 128 (tagLen ((s.e.tagOf (s.e.pan.slot b.val bx by_)).getD 0))) = some bs ∧
      acceptBlock ((s.e.tagOf (s.e.pan.slot b.val bx by_)).getD 0) bs = some l := by
  let w : State := on fun e => { e with pan := { e.pan with flight := some {}, storeBase := 65536 }, path := { e.path with fetch := [(0, .requested)] }, mem := { e.mem with bytes := [(0, 2), (1, 64)] } }
  have h : ∃ l, acceptBlock 0x4002 (List.replicate 16 0) = some l := by
    let b := bitsLsb (List.replicate 16 0)
    refine ⟨untile (decodeTiles (blockModes b) (b.drop 128)), ?_⟩
    unfold acceptBlock
    rw [if_neg (by decide), if_neg (by decide), if_neg (by decide +kernel)]
    exact if_neg (fun h => absurd h.1 (by decide))
  have ht : (w.e.tagOf 0).getD 0 = 0x4002 := by decide +kernel
  obtain ⟨l, hl⟩ := h
  refine ⟨w, 0, 0, 0, List.replicate 16 0, l, by decide +kernel, by decide +kernel, by decide +kernel, by decide +kernel, ?_⟩
  show acceptBlock ((w.e.tagOf 0).getD 0) _ = _
  rw [ht]
  exact hl

/-! The records of the communication group fit into a copy of the store (R407, R408): what a store needs to complete. -/

/-- The bytes that the records of one index with these rows take at most. -/
def rowsSize (rs : List DictRow) : Nat := (rs.map (fun d => d.n * (8 + d.ty.bytes))).sum

theorem toLe_length (n v : Nat) : (toLe n v).length = n := by
  induction n generalizing v with
  | zero => rfl
  | succ n ih => simp [toLe, ih]

theorem filter_flatMap_length {α : Type} (p : α → Bool) (f : α → List Byte) (c : Nat) (l : List α)
    (h : ∀ x, x ∈ l → p x = true → (f x).length ≤ c) : ((l.filter p).flatMap f).length ≤ l.length * c := by
  induction l with
  | nil => simp
  | cons a r ih =>
    have ih := ih (fun x hx => h x (List.mem_cons_of_mem _ hx))
    by_cases ha : p a = true
    · have := h a (List.mem_cons_self ..) ha
      simp only [List.filter_cons, ha, if_true, List.flatMap_cons, List.length_append, List.length_cons, Nat.succ_mul]
      omega
    · simp only [List.filter_cons, ha, List.length_cons, Nat.succ_mul, Bool.false_eq_true, if_false]
      omega

/-- The records of an index of the store, its rows numeric. -/
theorem records_length (e : Engine) (idx : Nat) (rs : List DictRow)
    (h : ∀ d, d ∈ rs → d.stored = true → d.acc = .rw → d.ty.numeric = true) :
    ((rs.flatMap (fun d => ((List.range d.n).map (fun i => (idx, d.sub + i, d))).filter (fun x => keptRow d idx x.2.1))).flatMap
      (fun x => recordOf idx x.2.1
        (if x.2.2.ty.numeric then toLe x.2.2.ty.bytes (e.shown (ekey idx x.2.1)) else e.shownDom idx x.2.1))).length ≤ rowsSize rs := by
  induction rs with
  | nil => exact Nat.zero_le _
  | cons d r ih =>
    have ih := ih (fun x hx => h x (List.mem_cons_of_mem _ hx))
    rw [List.flatMap_cons, List.flatMap_append, List.length_append, rowsSize, List.map_cons, List.sum_cons]
    refine Nat.add_le_add ?_ ih
    refine Nat.le_trans (filter_flatMap_length _ _ (8 + d.ty.bytes) _ ?_) (by simp)
    intro x hx hk
    obtain ⟨i, _, rfl⟩ := List.mem_map.mp hx
    simp only [keptRow, Bool.and_eq_true, decide_eq_true_eq] at hk
    simp only [h d (List.mem_cons_self ..) hk.1.1 hk.1.2, if_true, recordOf, List.length_append, toLe_length, List.length_cons,
      List.length_nil]
    omega

theorem rowsIn_low (idx : Nat) (h : idx < 0x2000) (gs : List DictGroup) :
    rowsIn idx gs = rowsIn idx (gs.filter (fun g => decide (g.base < 0x2000))) := by
  induction gs with
  | nil => rfl
  | cons g r ih =>
    by_cases hb : g.base < 0x2000
    · simp only [List.filter_cons, hb, decide_true, if_true, rowsIn, ih]
    · have hn : ¬ (g.base ≤ idx) := by omega
      simp only [List.filter_cons, hb, decide_false, rowsIn, hn, false_and, if_false, Bool.false_eq_true, ih]

theorem rowsIn_mem (idx : Nat) (gs : List DictGroup) (rs : List DictRow) (h : rowsIn idx gs = some rs) : ∃ g, g ∈ gs ∧ g.rows = rs := by
  induction gs with
  | nil => cases h
  | cons g r ih =>
    rw [rowsIn] at h
    split at h
    · cases h; exact ⟨g, List.mem_cons_self .., rfl⟩
    · obtain ⟨k, hk, hr⟩ := ih h
      exact ⟨k, List.mem_cons_of_mem _ hk, hr⟩

theorem sum_window (a b c n : Nat) : ((List.range n).map (fun i => if a ≤ i + 0x1000 ∧ i + 0x1000 < a + b then c else 0)).sum ≤
    (min (n + 0x1000) (a + b) - a) * c := by
  induction n with
  | zero => exact Nat.zero_le _
  | succ n ih =>
    rw [List.range_succ, List.map_append, List.sum_append, List.map_cons, List.map_nil, List.sum_cons, List.sum_nil]
    split
    · rw [show min (n + 1 + 0x1000) (a + b) - a = min (n + 0x1000) (a + b) - a + 1 by omega, Nat.succ_mul]
      omega
    · exact Nat.le_trans (by omega) (Nat.mul_le_mul_right c (show min (n + 0x1000) (a + b) - a ≤ _ by omega))

theorem sum_rows (n : Nat) (gs : List DictGroup) :
    ((List.range n).map (fun i => rowsSize ((rowsIn (i + 0x1000) gs).getD []))).sum ≤
      (gs.map (fun g => g.count * g.stride * rowsSize g.rows)).sum := by
  have hz : ∀ l : List Nat, (l.map (fun _ => 0)).sum = 0 := fun l => by induction l with
    | nil => rfl
    | cons _ _ ih => rw [List.map_cons, List.sum_cons, ih]
  have ha : ∀ (l : List Nat) (f g k : Nat → Nat), (∀ i, f i ≤ g i + k i) → (l.map f).sum ≤ (l.map g).sum + (l.map k).sum := by
    intro l f g k h
    induction l with
    | nil => exact Nat.zero_le _
    | cons a r ih =>
      have := h a
      simp only [List.map_cons, List.sum_cons]
      omega
  induction gs with
  | nil => simp only [rowsIn, Option.getD_none]; exact Nat.le_of_eq (hz _)
  | cons g r ih =>
    refine Nat.le_trans (ha _ _ (fun i => if g.base ≤ i + 0x1000 ∧ i + 0x1000 < g.base + g.count * g.stride then rowsSize g.rows else 0)
      (fun i => rowsSize ((rowsIn (i + 0x1000) r).getD [])) ?_) ?_
    · intro i
      rw [rowsIn]
      split
      · rename_i hc
        rw [if_pos ⟨hc.1, hc.2.1⟩]
        exact Nat.le_add_right _ _
      · exact Nat.le_add_left _ _
    · rw [List.map_cons, List.sum_cons]
      refine Nat.add_le_add (Nat.le_trans (sum_window _ _ _ _) (Nat.mul_le_mul_right _ ?_)) ih
      omega

/-- A communication store takes at most 100,000 bytes of records. -/
theorem store_fits (e : Engine) : (e.groupRecords 2).length ≤ 100000 := by
  have hlow : ((dictGroups.filter (fun g => decide (g.base < 0x2000))).map (fun g => g.count * g.stride * rowsSize g.rows)).sum ≤ 100000 := by
    decide +kernel
  have hnum : ∀ g, g ∈ dictGroups.filter (fun g => decide (g.base < 0x2000)) →
      ∀ d, d ∈ g.rows → d.stored = true → d.acc = .rw → d.ty.numeric = true := by decide +kernel
  refine Nat.le_trans ?_ (Nat.le_trans (sum_rows 0x1000 _) hlow)
  have hl : ∀ (l : List Nat) (f : Nat → List Byte) (g : Nat → Nat), (∀ i, (f (i + 0x1000)).length ≤ if i < 0x1000 then g i else 0) →
      ((l.map (· + 0x1000)).flatMap f).length ≤ (l.map (fun i => if i < 0x1000 then g i else 0)).sum := by
    intro l f g h
    induction l with
    | nil => exact Nat.zero_le _
    | cons a r ih =>
      have := h a
      simp only [List.map_cons, List.flatMap_cons, List.length_append, List.sum_cons]
      omega
  refine Nat.le_trans (hl (List.range 0x4080) _ (fun i => rowsSize ((rowsIn (i + 0x1000) (dictGroups.filter (fun g => decide (g.base < 0x2000)))).getD [])) ?_) ?_
  · intro i
    by_cases hi : i < 0x1000
    · rw [if_pos (by simp [inGroup]; omega), if_pos hi, keptOf, rowsIn_low _ (by omega)]
      refine records_length e _ _ (fun d hd => ?_)
      cases hr : rowsIn (i + 0x1000) (dictGroups.filter (fun g => decide (g.base < 0x2000))) with
      | none => rw [hr] at hd; cases hd
      | some rs =>
        rw [hr] at hd
        obtain ⟨g, hg, rfl⟩ := rowsIn_mem _ _ _ hr
        exact hnum g hg d hd
    · rw [if_neg (by simp [inGroup]; omega), if_neg hi]
      exact Nat.le_refl _
  · rw [show 0x4080 = 0x1000 + 0x3080 from rfl, List.range_add, List.map_append, List.sum_append]
    have h0 : ∀ l : List Nat, ((l.map (0x1000 + ·)).map (fun i => if i < 0x1000 then
        rowsSize ((rowsIn (i + 0x1000) (dictGroups.filter (fun g => decide (g.base < 0x2000)))).getD []) else 0)).sum = 0 := by
      intro l
      induction l with
      | nil => rfl
      | cons a r ih =>
        rw [List.map_cons, List.map_cons, List.sum_cons, ih, if_neg (by omega)]
    rw [h0, Nat.add_zero]
    refine Nat.le_of_eq (congrArg List.sum (List.map_congr_left (fun i hi => if_pos (List.mem_range.mp hi))))

theorem newCopy_fits (n : NonVol) (e : Engine) (g : Nat) (hg : g = 2) (hc : n.currentCopy = none) : (newCopy true g n e).2.length ≤ 2 ^ 20 := by
  have h := store_fits e
  subst hg
  simp only [newCopy, hc, copyBytes, List.length_append, toLe_length, List.length_replicate, Option.bind_none, or_true, if_true,
    show ¬ ((2 : Nat) = 1 ∨ (2 : Nat) = 3) by decide, if_false, ite_self, List.length_nil]
  omega

/-- R407: a store of the communication group. -/
theorem witness_DictionaryStoreAndUsdo_store :
    ∃ (s : State) (g : Byte) (q : Nat) (bs : List Byte), newCopy true g.toNat s.nv s.e = (q, bs) ∧ s.serves 2 ∧ s.e.idle = 0 ∧
      1 ≤ g.toNat ∧ g.toNat ≤ 3 ∧ (∀ p, p < 4 → s.e.get (0x4400 + p) 4 ≠ 2) ∧ s.e.integ.flashDue = [] ∧ s.e.stage < 4 ∧
      bs.length ≤ 2 ^ 20 := by
  exact ⟨run, 2, _, _, (Prod.eta _).symm, by decide +kernel, by decide +kernel, by decide, by decide, by decide +kernel, by decide +kernel, by decide +kernel,
    newCopy_fits run.nv run.e _ (by decide) (by decide +kernel)⟩

/-! Signatures: SHA-384 and ECDSA are opaque (log entry 9), so no evaluation can say that an image or an authorisation verifies. The
three witnesses below take one that does, and show that everything else their clauses ask can be met with it. -/

/-- R27: an image that verifies, for partition 0. -/
theorem witness_PartitionImages_verified (img : List Byte) (hl : img.length ≤ 4194304) (hv : run.e.verifies 0 img = true) :
    ∃ (s : State) (p : Fin 4) (i : List Byte), s.serves 3 ∧ i.length ≤ 4194304 ∧ s.e.get (0x4400 + p.val) 4 ≤ 1 ∧ s.e.stage < 5 ∧
      s.e.verifies p.val i = true :=
  ⟨run, 0, img, by decide +kernel, hl, by decide +kernel, by decide +kernel, hv⟩

/-- The running engine in PRODUCE with an authorisation in 4310h:03h. -/
def authorising (obj : List Byte) : State := on fun e => e.setDom 0x4310 3 obj

/-- R373: an authorisation to revoke slot 0. -/
theorem witness_LifeCycle_revocation (obj : List Byte) (ho : (obj.drop 4).take 1 = [2]) (hv : (authorising obj).e.authorised 2 = true) :
    ∃ (s : State) (sup : Bool) (a : Nat), s.serves 3 ∧ a = le ((s.e.dom 0x4310 3 |>.drop 4).take 1) ∧ s.e.jobState = 0 ∧
      s.e.fuseSupply sup = true ∧ s.e.get 0x4300 1 = 2 ∧ s.e.get 0x4310 4 < 2 ^ 32 ∧ (a = 2 ∨ a = 3) ∧ s.e.authorised a = true ∧
      s.nv.fuse (2 + a) = 0 := by
  have hr : run.serves 3 ∧ run.e.jobState = 0 ∧ run.e.fuseSupply true = true ∧ run.e.get 0x4300 1 = 2 ∧ run.e.get 0x4310 4 < 2 ^ 32 ∧
      run.nv.fuse (2 + 2) = 0 := by decide +kernel
  have hd : (authorising obj).e.dom 0x4310 3 = obj := Engine.dom_setDom_same _ _ _ _
  have k (e : Engine) : (e.setDom 0x4310 3 obj).live = e.live ∧ (e.setDom 0x4310 3 obj).serving 3 = e.serving 3 ∧
      (e.setDom 0x4310 3 obj).jobState = e.jobState ∧ (e.setDom 0x4310 3 obj).fuseSupply true = e.fuseSupply true ∧
      ∀ i j, (e.setDom 0x4310 3 obj).get i j = e.get i j := ⟨rfl, rfl, rfl, rfl, fun _ _ => rfl⟩
  obtain ⟨k1, k2, k3, k4, k5⟩ := k run.e
  refine ⟨authorising obj, true, 2, ⟨k1.trans hr.1.1, k2.trans hr.1.2⟩, ?_, k3.trans hr.2.1, k4.trans hr.2.2.1, (k5 _ _).trans hr.2.2.2.1, ?_,
    Or.inl rfl, hv, hr.2.2.2.2.2⟩
  · rw [hd, ho]; rfl
  · have h := hr.2.2.2.2.1
    rw [← k5] at h
    exact h

/-- Dawn step 4 of an engine in Dawn. -/
def booting (n : NonVol) : State := { nv := n, e := { (sets [(0x2001, 1, 4)] run.e) with mode := .dawn } }

/-- R374, R377: four images that boot, and an empty store. -/
theorem witness_DawnFirstSteps_boot (n : NonVol) (hh : n.header = true) (hc : n.copies = []) (hr : n.records = [])
    (hb : ∀ p, p < 4 → (bootChoice n (booting n).e p).ok = true) :
    ∃ (s : State), s.e.live = true ∧ s.e.mode = .dawn ∧ s.e.get 0x2001 1 = 4 ∧ s.nv.header = true ∧
      (∀ p, p < 4 → (bootChoice s.nv s.e p).ok = true) ∧ s.nv.copies = [] ∧ s.nv.records = [] := by
  have hg : (booting { dawns := 1 }).e.get 0x2001 1 = 4 := by decide +kernel
  exact ⟨booting n, rfl, rfl, hg, hh, hb, hc, hr⟩

end Sys2Proof.Tests
end

