-- ==== Sys2Proof/Tests/Slice0.lean ====
section
/-! SUPPORT. Tests: every check of well-formedness refuses a term, the spec's worked examples come out as the spec computes
them, and single commands on a small state do what their rules say. Expected values are the spec's own or follow from its
figures by hand; the source of each stands beside it. -/

open Sys2Proof Sys2Proof.Machine
namespace Sys2Proof.Tests

set_option Elab.async false

/-! Ill-formed terms -/

theorem test_wf_registerWrite : Instr.wf (.registerWrite 0x10002 0) = false := by decide
theorem test_wf_rw1cStatusClear : Instr.wf (.rw1cStatusClear 0x10005 0) = false := by decide
theorem test_wf_partitionImageWrite : Instr.wf (.partitionImageWrite 0 (List.replicate 4194305 0)) = false := by
  rw [Instr.wf, List.length_replicate]; rfl
theorem test_wf_descriptorFetch : Instr.wf (.descriptorFetch 0 (some (List.replicate 31 0))) = false := by decide
theorem test_wf_doorbellReread : Instr.wf (.doorbellReread 0 (some (List.replicate 32 0))) = false := by decide
theorem test_wf_dmaBurstComplete : Instr.wf (.dmaBurstComplete 0 [1, 2] 3 .ok) = false := by decide
theorem test_wf_statusReceived : Instr.wf (.statusReceived 0 [0x81]) = false := by decide
theorem test_wf_respReceived : Instr.wf (.respReceived 0 [0x82, 0, 0, 0, 0]) = false := by decide
theorem test_wf_axisReply : Instr.wf (.axisReply 0 [0x5A]) = false := by decide
theorem test_wf_bar2Access_length : Instr.wf (.bar2Access false 0 0 []) = false := by decide
theorem test_wf_bar2Access_data : Instr.wf (.bar2Access true 0 2 [1]) = false := by decide
theorem test_wf_rpdoReceived : Instr.wf (.rpdoReceived 0 (List.replicate 65 0)) = false := by decide
theorem test_wf_bandwidthWindow : Instr.wf (.bandwidthWindow [1, 1, 1] [1, 1, 1, 1] [1, 1, 1, 1]) = false := by decide
theorem test_wf_fetchTagReread : Instr.wf (.fetchTagReread 0 65536 0) = false := by decide
theorem test_wf_fetchBlockAccept : Instr.wf (.fetchBlockAccept 0 65536 0) = false := by decide
theorem test_wf_usdoRequest : Instr.wf (.usdoRequest 0 0 0 []) = false := by decide
theorem test_wf_usdoRequest_ok : Instr.wf (.usdoRequest 2 0x2200 5 [0, 0]) = true := by decide

/-- No row of the table gives bits. -/
theorem test_decodeTableWord : decodeTableWord 32 0 = none := rfl

/-! Worked examples of the spec -/

/-- The nine ASCII characters 1 to 9 (R88, R100). -/
def nine : List Byte := [0x31, 0x32, 0x33, 0x34, 0x35, 0x36, 0x37, 0x38, 0x39]

theorem test_crc32c : crc32c nine = 0xE3069283 := by decide +kernel
theorem test_crc16 : crc16 nine = 0x29B1 := by decide +kernel

/-- The 24 decoded bytes of the example after R88, and the 12 coded ones. -/
def rows24 : List Byte :=
  [0x40, 0x40, 0x40, 0x40, 0x40, 0x41, 0x42, 0x43, 0x40, 0x40, 0x40, 0x40, 0x40, 0x41, 0x42, 0x43, 0x41, 0x42, 0x43, 0x41, 0x42,
   0x43, 0x7F, 0x7F]
def coded24 : List Byte := [0x20, 0x44, 0x20, 0x90, 0x88, 0x78, 0x47, 0x00, 0x04, 0x43, 0xFD, 0xF0]

theorem test_decodeBlock :
    decodeBlock 8 (parseHeader [1, 1, 0x0C, 0, 0x18, 0, 0, 0, 0x0C, 0, 0, 0, 0, 0, 0, 0]) coded24 [] 0 = .ok rows24.reverse 24 := by
  decide +kernel
theorem test_encodeBody : encodeBody rows24 8 0 24 0 = coded24 := by decide +kernel
theorem test_proofBlock_raw : proofBlock 0x0C 2 nine 8 0 9 0 =
    [2, 2, 0x0C, 0, 9, 0, 0, 0, 9, 0, 0, 0, 0x83, 0x92, 0x06, 0xE3] ++ nine := by decide +kernel

/-- The low half of a tag of 4 units in generation 5, VERIFIED and CHECKED (example after R103). -/
theorem test_tagWord : tagWord 0 false true true 5 4 = 0x7404 := by decide
/-- Tile 0 of that example is uniform at level 2, tile 1 has levels 0 and 3 by columns. -/
theorem test_tileMode_uniform : tileMode (List.replicate 64 2) = 1 ∧ tilePayload (List.replicate 64 2) = [false, true] := by decide +kernel
theorem test_tileMode_two : tileMode ((List.range 64).map (fun i => if i % 8 < 4 then 0 else 3)) = 2 ∧
    tilePayload ((List.range 64).map (fun i => if i % 8 < 4 then 0 else 3)) = natBits 2 0 ++ natBits 2 3 ++ natBits 64 0xF0F0F0F0F0F0F0F0 := by
  decide +kernel

/-- Screening of pixel 150 at (100,000, 50,000) (example after R117). -/
theorem test_level : Tables.level { curve := [(602, 540)], thr := [(53472, 180 + 1024 * 510 + 1048576 * 860)], ox := 64, oy := 128 }
    true 150 100000 50000 = 2 := by decide +kernel

/-- The store of the example after R125. -/
def refStore : Panels := { resNbr := 641, resNbx := 2363, banks := 255, storeBase := 0x40000000 }
theorem test_slot : refStore.slot 3 1562 781 = 0x4A688F := by decide
theorem test_slotAddr : refStore.slotAddr 0x4A688F = 0x169A23C00 ∧ refStore.tagAddr 0x4A688F = 0x0129A23C := by decide
theorem test_gen : refStore.gen 781 = 1 := by decide

/-- Swath row 4,040 with a stitch overlap of 32 (example after R132). -/
theorem test_elementsOf : elementsOf 32 4040 = ((1, 2024), some (2, 8)) := by decide
/-- The swath of the reference mode (R134, R135): 8,192 rows a transit, Y = 8,200,191 in transit 1,000 (example after R156). -/
theorem test_topRow : Panels.topRow { resH := 32768, resP := 4 } 1000 = 8200191 := by decide
/-- Swath row 18,928 of bank 4 lies under element 73:496 (example after R146). -/
theorem test_passElem : ({} : Engine).passElem 4 18928 = some (73 * 2048 + 496) ∧ ({} : Engine).passElem 4 2544 = some (65 * 2048 + 496) := by
  decide +kernel

/-- Head 73 of the example after R169: the DELAY fields of slice 7 sum to −190. -/
def fineHead : Engine :=
  { (((({} : Engine).put 0x27C9 1 4210).put 0x27C9 3 300).put 0x2702 5 45) with
    img := { working := (List.range 64).map (fun i => (73 * 2048 + 448 + i, if i < 62 then 64 * 29 else 64 * 30)) } }
theorem test_sliceDelay_forward : fineHead.sliceDelay 73 7 false = 1039 := by decide +kernel
theorem test_sliceDelay_reverse : fineHead.sliceDelay 73 7 true = 926 ∧ fineHead.peff 73 0 true = 4211 := by decide +kernel
theorem test_column : FineGeo.column { w := 151181, pmax := 18000, peff := [(146, 4210)] } 73 496 104210 = 100000 ∧
    FineGeo.column { w := 151181, pmax := 18000, reverse := true, peff := [(146, 4211)] } 73 496 64969 = 100000 := by decide +kernel

/-- The LINE frame of the example after R188. -/
theorem test_lineFrame_head : (lineFrame true false true 0x0A3C ([30, 15, 1] ++ List.replicate 29 0)
    ((List.range 32).map (fun s => (List.range 64).map (fun i => if s = 7 ∧ i = 48 then 5 else 0)))).take 7 =
    [0x01, 0x05, 0x3C, 0x0A, 0xFE, 0x05, 0x00] := by decide +kernel
/-- Element 496 with code 5: bits 2 to 0 of slice byte 18 (R188). -/
theorem test_lineFrame_code : (packLsb 24 (((List.range 64).map (fun i => if i = 48 then 5 else 0)).flatMap (natBits 3))).getD 18 0 = 5 := by
  decide +kernel
/-- The LINE_PERIOD command of the example after R205. -/
theorem test_commandFrame : (commandFrame 0x2E (writeCmd 0x20 (toLe 4 27778))).take 12 = [0x11, 0x2E, 0x20, 0, 4, 0, 0, 0, 0x82, 0x6C, 0, 0] := by
  decide +kernel

/-- Ramps of the examples after R239 and R245: 1,920 counts in 40 ms, 3,840 counts in 80 ms. -/
theorem test_rampSpan : rampSpan 0 96000 2400000 0 = 1920 ∧ rampSpan 0 96000 1200000 0 = 3840 := by decide +kernel
theorem test_rampLen : rampLen 96000 2400000 0 = 640 ∧ rampLen 96000 1200000 0 = 1280 := by decide
theorem test_feedCounts : feedCounts 8192 2400 = 16384 := by decide

/-- The job of the example after R245. -/
def refJob : Engine :=
  ([(0x300F, 3, 2400), (0x2202, 3, 48000), (0x3005, 1, 100000), (0x3005, 2, 2400000), (0x2201, 5, 240), (0x2700, 10, 64),
      (0x2700, 11, 151245)] : List (Nat × Nat × Nat)).foldl (fun e x => e.put x.1 x.2.1 x.2.2) { pan := { resW := 151181, resP := 4 } }
theorem test_launchPos : refJob.launchPos false = 97600 ∧ refJob.launchPos true = 404760 := by decide +kernel
theorem test_lastEdge : refJob.lastEdge false = 402488 ∧ refJob.lineZero true = 402360 := by decide +kernel

/-- The forecast of the example after R45: step 2 fits 16 transits; steps 0 and 1 do not. -/
theorem test_forecast : (Forecast.mk (32768 * 151245 * 8) 4 14000000000 2600000000 1 5
    [3270938, 3721072, 4321250, 5161500, 6421875, 8522500, 12723750] 16 0).choose = some (2, 16) := by decide +kernel

/-- The DRAM location of the example after R273. -/
def refDram : Dram := { chans := (List.range 4).map (fun c => (c, { up := true, lrank := [0, 1, 2] })) }
theorem test_place : refDram.place 0x169A23C00 = (0, 0x5A688C00) := by decide +kernel
theorem test_bankRow : refDram.bankRow 0x5A688C00 = (6 * 4 + 3, 5786) := by decide +kernel

/-- The sealed word of the example after R369: one faded bit is corrected, a second one is not. -/
theorem test_fuse_one : fuseDecode (sealedWord 1 - 1) = { data := 1, sealed := true, fixed := true } := by decide +kernel
theorem test_fuse_two : (fuseDecode (sealedWord 3 - 3)).bad = true := by decide +kernel

/-! Single commands -/

/-- An engine that serves in Idle: Dawn done, partitions up, PLLs locked. -/
def idle : State :=
  { e := ([(0x2001, 1, 9), (0x4281, 1, 2), (0x4282, 1, 2), (0x4283, 1, 2), (0x4211, 1, 250)] : List (Nat × Nat × Nat)).foldl
      (fun e x => e.put x.1 x.2.1 x.2.2) { mode := .running, dawn := { partUp := 15 } } }

/-- The engine with entries set. -/
def having (kvs : List (Nat × Nat × Nat)) : State := { idle with e := kvs.foldl (fun e x => e.put x.1 x.2.1 x.2.2) idle.e }

/-- The engine after the step that takes command `c`. -/
def after (c : Instr) (s : State) : Engine :=
  match step { s with pending := [c] } with
  | .next t => t.e
  | _ => {}

/-- R51: a pause in Idle is refused. -/
theorem test_jobPause_idle : (after .jobPause idle).sdo = 0x08000022 := by decide +kernel
/-- R45: the job length is a plain entry. -/
theorem test_jobLength : (after (.jobLengthWrite 77) idle).get 0x2200 9 = 77 := by decide +kernel
/-- R63: START in a single-buffer channel runs it; in RUNNING it is ignored and flagged. -/
theorem test_dmaStart : ((after (.dmaStart 5) idle).dma 5).st = .running := by decide +kernel
theorem test_dmaStart_running :
    ((after (.dmaStart 5) { idle with e := idle.e.setDma 5 { st := .running } }).dma 5).startIgnored = true := by decide +kernel
/-- R63: STOP of a running channel; RESET of any. -/
theorem test_dmaReset : ((after (.dmaReset 31) { idle with e := idle.e.setDma 31 { st := .error, errCode := 5 } }).dma 31).st = .idle := by
  decide +kernel
/-- R71: a Closed context cannot be closed. -/
theorem test_contextClose_closed : (after (.contextClose 255) idle).sdo = 0x08000022 := by decide +kernel
/-- R142: a reserved bit in a window write is refused. -/
theorem test_catalogueWindow_reserved : (after (.catalogueWindowWrite 0x800) (having [(0x2600, 5, 0xFFFFFFFF)])).sdo = 0x06090030 := by
  decide +kernel
/-- R142: the masked value is stored. -/
theorem test_catalogueWindow_mask : (after (.catalogueWindowWrite 0x7C3) (having [(0x2600, 1, 262143), (0x2600, 5, 3)])).stagingEntry 262143 = 3 := by
  decide +kernel
/-- R344: 15.9 V is stage 1, 12.9 V deeper. -/
theorem test_stage_one : (after (.sheddingStageEntry .voltage 15900 0) idle).stage = 1 := by decide +kernel
theorem test_stage_none : (after (.sheddingStageEntry .voltage 24000 0) idle).stage = 0 := by decide +kernel
/-- R236: an axis in state 1 cannot be disabled into a job; enabling one in state 0 asks for its drive. -/
theorem test_axisDisable : (after (.axisDisable 3) (having [(0x3030, 2, 1)])).get 0x3030 2 = 0 := by decide +kernel
/-- R324: an acknowledged entry is acknowledged. -/
theorem test_acknowledge_unknown : (after (.acknowledgeEntry 9) idle).sdo ≠ 0 := by decide +kernel
/-- R319: writing the FAULT_L hold. -/
theorem test_faultLHold : (after (.faultLHoldWrite true) idle).flt.faultLPin = false := by decide +kernel
/-- R366: programming in BLANK is refused by the life-cycle state. -/
theorem test_fuseProgram_blank : (after (.fuseProgram true []) (having [(0x4300, 1, 0)])).sdo ≠ 0 := by decide +kernel
/-- R407: a store needs the word "save". -/
theorem test_store_word : (after (.dictionaryStore 1 0 true) idle).sdo ≠ 0 := by decide +kernel
/-- R399: an index that does not exist; a read-only entry; a wrong length. -/
theorem test_write_noIndex : (after (.dictionaryWrite 0x0FFF 0 [0]) idle).sdo = 0x06020000 := by decide +kernel
theorem test_write_readOnly : (after (.dictionaryWrite 0x2200 2 [0]) idle).sdo = 0x06010002 := by decide +kernel
theorem test_write_length : (after (.dictionaryWrite 0x2200 5 [0]) idle).sdo = 0x06070010 := by decide +kernel
/-- R38: the scan resolution takes 600, 1,200 and 2,400 only. -/
theorem test_write_value : (after (.dictionaryWrite 0x2200 5 [1, 0]) idle).sdo = 0x06090030 := by decide +kernel
theorem test_write_ok : (after (.dictionaryWrite 0x2200 5 [0x58, 2]) idle).get 0x2200 5 = 600 := by decide +kernel
/-- Log entry 1: an empty queue lets one REF cycle pass. -/
theorem test_idle_tick : step idle = .next { idle with e := { idle.e with now := 1 } } := rfl
/-- R77: the ring's read index. -/
theorem test_ringRd : (after (.eventRingRdWrite 3) { idle with e := { idle.e with host.ringEnable := true, host.wr := 5 } }).host.rd = 3 := by
  decide +kernel
/-- R59: a read beyond usable DRAM is an unsupported request. -/
theorem test_bar2_beyond : (after (.bar2Access false 0 4 []) idle).host.bar2Err = 1 := by decide +kernel
/-- R349: below 6.5 V the engine is held in reset. -/
theorem test_powerOnReset : (after (.powerOnReset false) idle).live = false := by decide +kernel

end Sys2Proof.Tests
end

/-! The firmware partitions (R26-R30): what a watchdog expiry, a ready report, a fallback, an image write and a switch request
leave of the engine and of the boot flash. -/

namespace Sys2Proof.Machine

section General

/-- Entries of one index have the same key only for the same subindex. -/
@[simp] theorem ekey_same_index (i j j' : Nat) : ekey i j = ekey i j' ↔ j = j' := by
  unfold ekey
  omega

theorem bit_setBit_true (v i : Nat) : bit (setBit v i true) i = true := by
  unfold setBit
  by_cases hset : bit v i = true
  · simp [hset]
  · have hpos : 0 < 2 ^ i := Nat.two_pow_pos i
    simp only [bit, beq_iff_eq, Nat.shiftRight_eq_div_pow] at hset
    simp only [bit, Nat.shiftRight_eq_div_pow, beq_true, beq_iff_eq, hset, if_false, if_true,
      Nat.add_div_right _ hpos]
    omega

/-- A request that only stores an entry and is answered as done serves it. -/
theorem serves_of_put_done {c : Instr} {s : State} {i j v : Nat}
    (h : exec c s = .next { s with e := (s.e.put i j v).done }) : Serves c s [(ekey i j, v)] := by
  refine ⟨_, h, ?_, ?_, rfl⟩
  · intro p hp
    obtain rfl := List.mem_singleton.mp hp
    exact s.e.get_put_same i j v
  · intro k hk
    have hne : k ≠ ekey i j := by simpa using hk
    exact (s.e.ent_put i j v k).trans (if_neg hne)

end General

section Updates

variable (e : Engine) (p : Nat)

@[simp] theorem Engine.ent_setUp (up : Bool) (k : Nat) : (e.setUp p up).ent k = e.ent k := rfl
@[simp] theorem Engine.get_setUp (up : Bool) (i j : Nat) : (e.setUp p up).get i j = e.get i j := rfl
@[simp] theorem Engine.get_setStarting (v i j : Nat) : (e.setStarting p v).get i j = e.get i j := rfl
@[simp] theorem Engine.ent_setStarting (v k : Nat) : (e.setStarting p v).ent k = e.ent k := rfl
@[simp] theorem Engine.get_endWindows (f : WinKind → Bool) (i j : Nat) : (e.endWindows f).get i j = e.get i j := rfl
@[simp] theorem Engine.ent_endWindows (f : WinKind → Bool) (k : Nat) : (e.endWindows f).ent k = e.ent k := rfl

@[simp] theorem Engine.pan_setUp (up : Bool) : (e.setUp p up).pan = e.pan := rfl
@[simp] theorem Engine.pan_setStarting (v : Nat) : (e.setStarting p v).pan = e.pan := rfl
@[simp] theorem Engine.pan_endWindows (f : WinKind → Bool) : (e.endWindows f).pan = e.pan := rfl
@[simp] theorem Engine.dawn_endWindows (f : WinKind → Bool) : (e.endWindows f).dawn = e.dawn := rfl

/-- A partition serves when it is up and its state is neither 2 (switching) nor 3 (restarting). -/
theorem Engine.serving_iff :
    e.serving p = true ↔ bit e.dawn.partUp p = true ∧ e.get (partIdx p) 4 ≠ 2 ∧ e.get (partIdx p) 4 ≠ 3 := by
  simp [Engine.serving, partIdx, and_assoc]

/-- A partition in state 3 (restarting) does not serve, whether it is up or not. -/
theorem Engine.not_serving_of_restarting (h : e.get (partIdx p) 4 = 3) : e.serving p = false := by
  rw [Bool.eq_false_iff, ne_eq, e.serving_iff p]
  exact fun ⟨_, _, hne⟩ => hne h

/-- A ready report says nothing of the panel: a boundary that the partition holds is released apart from it. -/
theorem Engine.reportReady_pan : (e.reportReady p).pan = e.pan := by
  simp only [Engine.reportReady]
  split_ifs <;> simp

theorem Engine.reportReady_dawn : (e.reportReady p).dawn = ((e.setUp p true).setStarting p 0).dawn := by
  simp only [Engine.reportReady]
  split_ifs <;> simp

/-- R27: an image whose start is complete is no longer starting. -/
theorem Engine.starting_reportReady : (e.reportReady p).starting p = 0 := by
  simp [Engine.starting, Engine.reportReady_dawn, Engine.setStarting]

/-- Ready after a restart: the entries but the state stay, and the state says whether an image is staged. -/
theorem Engine.ent_reportReady_restart (h : e.starting p = 0) (k : Nat) :
    (e.reportReady p).ent k =
      if k = ekey (partIdx p) 4 then (if e.get (partIdx p) 3 = 0 then 0 else 1) else e.ent k := by
  rw [Engine.reportReady, h]
  exact Engine.ent_put _ _ _ _ k

/-- Ready after a switch: the staged image is the running one and none is staged. -/
theorem Engine.get_reportReady_switched (h : e.starting p = 1) :
    (e.reportReady p).get (partIdx p) 2 = e.get (partIdx p) 3 ∧
      (e.reportReady p).get (partIdx p) 3 = 0 ∧ (e.reportReady p).get (partIdx p) 4 = 0 := by
  simp [Engine.reportReady, h, Engine.get_put]

/-- A ready report leaves the state at 0, 1 or 4. -/
theorem Engine.serving_reportReady : (e.reportReady p).serving p = true := by
  rw [Engine.serving_iff]
  refine ⟨?_, ?_⟩
  · rw [Engine.reportReady_dawn]
    exact bit_setBit_true e.dawn.partUp p
  · simp only [Engine.reportReady]
    split_ifs <;> simp

/-- R27: for a partition that holds no boundary and is not the one losses wait for, ready is the report alone. -/
theorem Engine.partReady_eq_reportReady (hup : bit e.dawn.partUp p = false) (hstep : 7 ≤ e.get 0x2001 1)
    (hholder : e.pan.holder = none) (hp : p ≠ 2) : e.partReady p = e.reportReady p := by
  have hdawn : ¬ e.dawnStep < 7 := Nat.not_lt.mpr hstep
  simp [Engine.partReady, hup, hdawn, hp, Engine.reportReady_pan, hholder]

/-- The fallback count is an UNSIGNED16. -/
theorem entBits_fallbackCount (p : Fin 4) : entBits (partIdx p.val) 6 = 16 := by
  fin_cases p <;> rfl

/-- R29: a fallback raises 0Bh:02h on an engine with the slots exchanged, the fallback counted and nothing staged. -/
theorem Engine.fallBack_raises (p : Fin 4) : ∃ e' : Engine, e.fallBack p.val = e'.raise 0x0B 2 p.val ∧
    e'.get (partIdx p.val) 1 = 1 - e.get (partIdx p.val) 1 ∧
    e'.get (partIdx p.val) 6 = min 65535 (e.get (partIdx p.val) 6 + 1) ∧
    e'.get (partIdx p.val) 3 = 0 ∧ e'.get (partIdx p.val) 4 = 3 := by
  refine ⟨_, rfl, ?_⟩
  simp [Engine.bump, Engine.get_put, Engine.otherSlot, entBits_fallbackCount, satAdd]

end Updates

section Selectors

/-- The selectors in the boot flash follow the engine; the fuses do not. -/
@[simp] theorem State.withSelectors_fuses (s : State) (e : Engine) : (s.withSelectors e).nv.fuses = s.nv.fuses := by
  simp only [State.withSelectors]
  split_ifs <;> rfl

theorem NonVol.trial_saveSelectors (n : NonVol) (e : Engine) (p : Fin 4) :
    cellGet (fun _ => false) (n.saveSelectors e).trial p.val = (e.starting p.val == 1) := by
  fin_cases p <;> simp [NonVol.saveSelectors, cellSetAll, cellGet_cellSet]

/-- From Dawn step 5 on, TRIAL in the flash says whether a switched image is starting (R374). -/
theorem State.trial_withSelectors (s : State) (e : Engine) (p : Fin 4) (hlive : s.e.live = true)
    (hstep : 5 ≤ s.e.get 0x2001 1) :
    cellGet (fun _ => false) (s.withSelectors e).nv.trial p.val = (e.starting p.val == 1) := by
  simp [State.withSelectors, hlive, hstep, NonVol.trial_saveSelectors]

end Selectors

section Commands

variable {s : State} (p : Fin 4)

theorem exec_partitionWatchdogExpiry (hlive : s.e.live = true) :
    exec (.partitionWatchdogExpiry p) s = .next { s with e := s.e.watchdog p.val } := by
  rw [← whenLive_live s.e (f := fun e => e.watchdog p.val) hlive]
  rfl

theorem exec_partitionReady (hlive : s.e.live = true) :
    exec (.partitionReady p) s = .next (s.withSelectors (s.e.partReady p.val)) := by
  rw [← whenLive_live s.e (f := fun e => e.partReady p.val) hlive]
  rfl

theorem exec_partitionFallback (hlive : s.e.live = true) :
    exec (.partitionFallback p) s = .next (s.withSelectors (s.e.partFallback s.nv p.val)) := by
  rw [← whenLive_live s.e (f := fun e => e.partFallback s.nv p.val) hlive]
  rfl

theorem exec_switchRequest (hs : s.serves 3) (v : Byte) :
    exec (.switchRequest p v) s = .next { s with e := s.e.requestSwitch p.val v.toNat } := by
  obtain ⟨hlive, hserving⟩ := hs
  rw [← request_served s.e (idx := 0x4400) (f := fun e => e.requestSwitch p.val v.toNat) hlive hserving]
  rfl

/-- R26: the watchdog of a partition that is up leaves it restarting and raises 0Bh:01h. -/
theorem watchdogExpiry_raises (hlive : s.e.live = true) (hup : bit s.e.dawn.partUp p.val = true) :
    Raises (.partitionWatchdogExpiry p) s (fun e => e.get (partIdx p.val) 4 = 3 ∧ e.serving p.val = false ∧
      ∀ k, k ≠ ekey (partIdx p.val) 4 → e.ent k = s.e.ent k) 0x0B 1 p.val := by
  have hstate : ((s.e.put (partIdx p.val) 4 3).setUp p.val false).get (partIdx p.val) 4 = 3 := by simp
  refine ⟨_, ⟨hstate, Engine.not_serving_of_restarting _ _ hstate, fun k hk => ?_⟩, ?_⟩
  · simp [Engine.ent_put, hk]
  · rw [Becomes, exec_partitionWatchdogExpiry p hlive, Engine.watchdog, if_pos hup]

/-- R27: what the command PARTITION_READY leaves when the report is all that comes of it. -/
theorem exec_partitionReady_report (hlive : s.e.live = true) (hup : bit s.e.dawn.partUp p.val = false)
    (hstep : 7 ≤ s.e.get 0x2001 1) (hholder : s.e.pan.holder = none) (hp : p.val ≠ 2) :
    exec (.partitionReady p) s = .next (s.withSelectors (s.e.reportReady p.val)) := by
  rw [exec_partitionReady p hlive, Engine.partReady_eq_reportReady _ _ hup hstep hholder hp]

/-- R29: a switched image that is not ready in time falls back. -/
theorem exec_partitionFallback_switched (hlive : s.e.live = true) (hup : bit s.e.dawn.partUp p.val = false)
    (hstep : 6 ≤ s.e.get 0x2001 1) (hmode : s.e.mode = .running) (hstart : s.e.starting p.val = 1) :
    exec (.partitionFallback p) s = .next (s.withSelectors (s.e.fallBack p.val)) := by
  have hdawn : ¬ s.e.dawnStep < 6 := Nat.not_lt.mpr hstep
  rw [exec_partitionFallback p hlive]
  simp [Engine.partFallback, hup, hdawn, hmode, hstart]

/-- R27, R375: an image that is taken goes to the inactive slot; the signature check decides what is staged and answered. -/
theorem exec_partitionImageWrite_taken (img : List Byte) (hs : s.serves 3) (hlen : img.length ≤ 4194304)
    (hstate : s.e.get (partIdx p.val) 4 ≤ 1) (hstage : s.e.stage < 5) :
    exec (.partitionImageWrite p img) s = .next { s with
      nv := { s.nv with images := cellSet (fun _ => []) s.nv.images (2 * p.val + (1 - s.e.get (partIdx p.val) 1)) img },
      e := if s.e.verifies p.val img then
          ((s.e.put (partIdx p.val) 3 (imageVersion img)).put (partIdx p.val) 4 1).done
        else
          (((s.e.put (partIdx p.val) 3 0).put (partIdx p.val) 5 0).put (partIdx p.val) 4 0).refuse abAction } := by
  obtain ⟨hlive, hserving⟩ := hs
  have hlen' : ¬ 4194304 < img.length := by omega
  have hstate2 : s.e.get (partIdx p.val) 4 ≠ 2 := by omega
  have hstate3 : s.e.get (partIdx p.val) 4 ≠ 3 := by omega
  have hstage' : ¬ 5 ≤ s.e.stage := by omega
  have hunstaged : (if s.e.get (partIdx p.val) 4 = 1 then 0 else s.e.get (partIdx p.val) 4) = 0 := by
    split_ifs <;> omega
  change Host.Outcome.next (imageWrite p.val img s) = _
  simp only [imageWrite, hlive, hserving, hlen', hstate2, hstate3, hstage', hunstaged, Engine.otherSlot,
    Bool.not_true, Bool.false_eq_true, if_false, or_self]
  split_ifs <;> rfl

/-- R30: a switch is requested where an image is staged. -/
theorem switchRequest_serves (hs : s.serves 3) (hstaged : s.e.get (partIdx p.val) 3 ≠ 0) :
    Serves (.switchRequest p 1) s [(ekey (partIdx p.val) 5, 1)] := by
  apply serves_of_put_done
  rw [exec_switchRequest p hs]
  simp [Engine.requestSwitch, hstaged]

/-- R30: a switch without a staged image is refused. -/
theorem switchRequest_refuses (hs : s.serves 3) (hnone : s.e.get (partIdx p.val) 3 = 0) :
    Refuses (.switchRequest p 1) s abState := by
  rw [Refuses, Becomes, exec_switchRequest p hs]
  simp [Engine.requestSwitch, hnone, Engine.refuse]

/-- R30: a cancel is served whether a request stands or not. -/
theorem switchCancel_serves (hs : s.serves 3) : Serves (.switchRequest p 0) s [(ekey (partIdx p.val) 5, 0)] := by
  apply serves_of_put_done
  rw [exec_switchRequest p hs]
  simp [Engine.requestSwitch]

end Commands

theorem partitionLife : Says.PartitionLife := by
  intro s p hlive
  refine ⟨watchdogExpiry_raises p hlive, ?_, ?_, ?_⟩
  · intro hup hstep hholder hp hstart
    have hent := s.e.ent_reportReady_restart p.val hstart
    refine ⟨_, exec_partitionReady_report p hlive hup hstep hholder hp, s.e.serving_reportReady p.val, ?_, ?_, rfl,
      s.withSelectors_fuses _⟩
    · exact (hent _).trans (if_pos rfl)
    · exact fun k hk => (hent k).trans (if_neg hk)
  · intro hup hstep hholder hp hstart
    obtain ⟨hrunning, hstaged, hstate⟩ := s.e.get_reportReady_switched p.val hstart
    refine ⟨_, exec_partitionReady_report p hlive hup hstep hholder hp, s.e.serving_reportReady p.val, hrunning,
      hstaged, hstate, ?_⟩
    rw [s.trial_withSelectors _ p hlive (by omega), Engine.starting_reportReady]
    rfl
  · intro hup hstep hmode hstart
    exact ⟨_, exec_partitionFallback_switched p hlive hup hstep hmode hstart, s.e.fallBack_raises p⟩

theorem partitionImages : Says.PartitionImages := by
  intro s p img hs hlen hstate hstage
  have hwrite := exec_partitionImageWrite_taken p img hs hlen hstate hstage
  refine ⟨fun hgood => ?_, fun hbad => ?_, switchRequest_serves p hs, switchRequest_refuses p hs, switchCancel_serves p hs⟩
  · rw [if_pos hgood] at hwrite
    refine ⟨_, hwrite, rfl, cellGet_cellSet_same _ _ _ _, fun k hk => cellGet_cellSet_ne _ _ _ _ _ hk, ?_⟩
    simp [partIdx, Engine.get_put]
  · rw [if_neg (Bool.eq_false_iff.mp hbad)] at hwrite
    refine ⟨_, hwrite, ?_⟩
    simp [partIdx, Engine.get_put, abAction]

/-- Settles O14: each command's engine is computed once, and the clauses read its entries. -/
theorem firmwarePartitions : Obligations.FirmwarePartitions := ⟨partitionLife, partitionImages⟩

end Sys2Proof.Machine

/-! Jobs, panels and transits (R31-R36, R41, R46, R47): arming staged writes, the launch check and the axis-1 gate, the ends of
sweeps, the panel boundary and the forecast. -/

namespace Sys2Proof.Machine

section Requests

variable {c : Instr} {s : State} {f : Engine → Engine}

/-- An event on a live engine leaves what its effect makes of the engine. -/
theorem becomes_of_whenLive (hexec : exec c s = onEngine (whenLive f) s) (hlive : s.e.live = true) :
    Becomes c s (f s.e) := by
  rw [Becomes, hexec, onEngine, whenLive_live s.e hlive]

/-- A request that its partition serves leaves what its effect makes of the engine. -/
theorem becomes_of_request {idx : Nat} (hexec : exec c s = onEngine (request idx f) s) (hs : s.serves (owner idx)) :
    Becomes c s (f s.e) := by
  obtain ⟨hlive, hserving⟩ := hs
  rw [Becomes, hexec, onEngine, request_served s.e hlive hserving]

theorem Becomes.completes {e : Engine} {P : State → Prop} (h : Becomes c s e) (hP : P { s with e := e }) :
    Completes c s P := ⟨_, h, hP⟩

/-- Engine `b` is `a` but for numeric dictionary entries. -/
def Engine.EntriesOnly (a b : Engine) : Prop := ∃ dict, b = { a with d.dict := dict }

theorem Engine.EntriesOnly.refl (a : Engine) : a.EntriesOnly a := ⟨_, rfl⟩

theorem Engine.EntriesOnly.put {a b : Engine} (h : a.EntriesOnly b) (i j v : Nat) : a.EntriesOnly (b.put i j v) := by
  obtain ⟨dict, rfl⟩ := h
  exact ⟨_, rfl⟩

theorem Engine.EntriesOnly.eq {a b : Engine} (h : a.EntriesOnly b) : b = { a with d.dict := b.d.dict } := by
  obtain ⟨dict, rfl⟩ := h
  rfl

/-- A request that only writes entries and is answered as done serves them. -/
theorem serves_of_entriesOnly {b : Engine} {kvs : List (Nat × Nat)} (h : Becomes c s b.done) (hb : s.e.EntriesOnly b)
    (hkvs : ∀ p ∈ kvs, b.ent p.1 = p.2) (hrest : ∀ k, k ∉ kvs.map Prod.fst → b.ent k = s.e.ent k) : Serves c s kvs := by
  obtain ⟨dict, rfl⟩ := hb
  exact ⟨_, h, hkvs, hrest, rfl⟩

end Requests

/-! Arming staged writes (R47) -/

section Staging

variable (e : Engine)

theorem Engine.armStaged_inconsistent (h : e.armRefused = true) : e.armStaged = e.refuse abValue := by
  simp [Engine.armStaged, h]

theorem Engine.armStaged_inJob (h : e.armRefused = false) (hjob : e.jobState ≠ 0) :
    e.armStaged = (e.put 0x2201 6 1).done := by
  simp [Engine.armStaged, h, hjob]

theorem Engine.armStaged_idle (h : e.armRefused = false) (hidle : e.jobState = 0) :
    e.armStaged = e.applyStagedWrites.done := by
  simp [Engine.armStaged, h, hidle]

/-- Applying the staged writes leaves none held and none armed. -/
theorem Engine.applyStagedWrites_clears : e.applyStagedWrites.d.staged = [] ∧ e.applyStagedWrites.d.stagedDom = [] ∧
    e.applyStagedWrites.get 0x2201 6 = 0 := by
  refine ⟨rfl, rfl, ?_⟩
  exact Engine.get_put_same _ 0x2201 6 0

end Staging

/-- Settles O16: an arm is refused, armed for the boundary, or applied at once. -/
theorem stagedWritesArm : Obligations.StagedWritesArm := by
  intro s hs
  have harm : Becomes .applyStaged s s.e.armStaged := becomes_of_request (idx := 0x2201) rfl hs
  refine ⟨fun hbad => ?_, fun hgood hjob => ?_, fun hgood hidle => ?_⟩
  · rwa [s.e.armStaged_inconsistent hbad] at harm
  · rw [s.e.armStaged_inJob hgood hjob] at harm
    exact serves_of_put_done harm
  · rw [s.e.armStaged_idle hgood hidle] at harm
    obtain ⟨hnums, hdoms, happly⟩ := s.e.applyStagedWrites_clears
    exact harm.completes ⟨hnums, hdoms, happly, rfl, rfl⟩

/-! The launch check (R32, R36) -/

section Launch

variable (e : Engine)

/-- What every update of a list keeps is kept by all of them. -/
theorem Engine.each_keeps {α : Type} (g : Engine → α) {f : Engine → Nat → Engine} (is : List Nat)
    (h : ∀ e i, g (f e i) = g e) : g (e.each is f) = g e := by
  induction is generalizing e with
  | nil => rfl
  | cons i is ih => exact (ih (f e i)).trans (h e i)

theorem Engine.requestBlock_pan (b bx y : Nat) : (e.requestBlock b bx y).pan = e.pan := by
  simp only [Engine.requestBlock]
  split
  · rfl
  · rfl
  · rfl
  · rfl
  · dsimp only
    split <;> rfl

theorem Engine.requestBlocks_pan (f : Flight) (m : Nat) : (e.requestBlocks f m).pan = e.pan := by
  refine Engine.each_keeps e (·.pan) _ fun e h => Engine.each_keeps e (·.pan) _ fun e r =>
    Engine.each_keeps e (·.pan) _ fun e bx => Engine.each_keeps e (·.pan) _ fun e y => ?_
  split
  · rfl
  · exact e.requestBlock_pan _ _ _

theorem Engine.requestAll_flight (f : Flight) (ms : List Nat) :
    (e.each ms fun e m => e.requestBlocks f m).pan.flight = e.pan.flight :=
  Engine.each_keeps e (·.pan.flight) ms fun e m => congrArg Panels.flight (e.requestBlocks_pan f m)

/-- R32: the flight that a launched transit begins with; the requests for its blocks leave the panel alone. -/
theorem Engine.launchTransit_flight : ∃ f, e.launchTransit.pan.flight = some f ∧ f.t = e.pan.nextT ∧ f.ret = false ∧
    f.line = 0 ∧ f.gatePassed = false := by
  rw [Engine.launchTransit]
  exact ⟨_, Engine.requestAll_flight _ _ _, rfl, rfl, rfl, rfl⟩

/-- R32: what a launch needs beside the two axes. -/
def Engine.launchFree (e : Engine) : Bool :=
  !e.stopDemand && decide (e.stage < 3) && e.pllsLocked && e.gateFails.isEmpty

/-- The engine that checks a launch: from here on faults count into the panel fault record (R324). -/
def Engine.counts (e : Engine) : Engine := { e with flt.counting := true }

/-- R32: with a sweep to launch and both axes in place, the launch check launches what is next or cuts the panel. -/
theorem Engine.launchCheck_axesReady (hjob : e.jobState = 2) (hflight : e.pan.flight = none)
    (hsweep : e.pan.launched < e.get 0x2202 5 ∨ e.pan.returning = true) (hrest : e.atRest 0 = true) (hfeed : e.feedOk = true) :
    e.launchCheck = if e.launchFree then (if e.pan.returning then e.counts.launchReturn else e.counts.launchTransit)
      else e.counts.cutPanel := by
  have hready : (e.counts.axisFailed 0 (e.atRest 0)).axisFailed 1 e.feedOk = e.counts := by
    rw [hrest, hfeed]
    rfl
  have hgo : ¬ (e.jobState ≠ 2 ∨ e.pan.flight.isSome ∨ (e.get 0x2202 5 ≤ e.pan.launched ∧ !e.pan.returning)) := by
    rcases hsweep with hleft | hreturn
    · simp [hjob, hflight, hleft]
    · simp [hjob, hflight, hreturn]
  rw [Engine.launchCheck, if_neg hgo]
  change (let x := (e.counts.axisFailed 0 (e.atRest 0)).axisFailed 1 e.feedOk
    if !(e.atRest 0 && e.feedOk && !e.stopDemand && decide (e.stage < 3) && e.pllsLocked && e.gateFails.isEmpty) then x.cutPanel
    else if x.pan.returning then x.launchReturn else x.launchTransit) = _
  rw [hready, hrest, hfeed]
  change (if (!e.launchFree) = true then _ else _) = _
  cases e.launchFree <;> rfl

/-! A panel that is cut (R49): the hold causes leave the sweep and the cut alone -/

theorem Engine.toHeld_pan : e.toHeld.pan = e.pan := by
  refine Engine.each_keeps (e.put 0x2200 2 3) (·.pan) _ fun e a => ?_
  dsimp only
  split <;> rfl

/-- The sweep in progress, and whether the panel is cut. -/
def Engine.sweep (e : Engine) : Option Flight × Bool := (e.pan.flight, e.pan.cut)

theorem Engine.setPeerHold_sweep (is : List Nat) : (e.setPeerHold is).sweep = e.sweep := by
  simp [Engine.sweep, Engine.setPeerHold, Engine.setHold]

theorem Engine.setHold_sweep (i : Nat) (on : Bool) : (e.setHold i on).sweep = e.sweep := by
  simp [Engine.sweep, Engine.setHold]

theorem Engine.toHeld_sweep : e.toHeld.sweep = e.sweep := by
  simp [Engine.sweep, Engine.toHeld_pan]

theorem Engine.toBoundary_sweep : e.toBoundary.sweep = e.sweep :=
  Engine.each_keeps (e.put 0x2200 2 1) Engine.sweep [0, 1] fun e a => by simp [Engine.sweep]

theorem Engine.autoHolds_sweep : e.autoHolds.sweep = e.sweep := by
  simp only [Engine.autoHolds, Engine.setHold_sweep, Engine.setPeerHold_sweep]

theorem Engine.evalHolds_sweep : e.evalHolds.sweep = e.sweep := by
  simp only [Engine.evalHolds]
  split_ifs <;>
    simp only [Engine.setHold_sweep, Engine.toHeld_sweep, Engine.toBoundary_sweep, Engine.autoHolds_sweep]

theorem Engine.beginBoundary_sweep : e.beginBoundary.sweep = e.sweep := rfl

theorem Engine.stopHold_sweep (on : Bool) : Engine.sweep { e with flt.stopHold := on } = e.sweep := rfl

/-- R49: a cut leaves the flight as it is and marks the panel. -/
theorem Engine.cutPanel_sweep : e.cutPanel.sweep = (e.pan.flight, true) := by
  simp only [Engine.cutPanel, Engine.beginBoundary_sweep, Engine.evalHolds_sweep, Engine.stopHold_sweep]
  split_ifs <;> simp only [Engine.setHold_sweep, Engine.toHeld_sweep, Engine.setPeerHold_sweep] <;> rfl

/-- R36: what a return sweep launches, and what it leaves alone. -/
theorem Engine.launchReturn_starts :
    e.launchReturn.pan.flight = some { t := e.pan.nextT, ret := true, reverse := true } ∧
      e.launchReturn.pan.returning = false ∧ (e.launchReturn.enc 0).active = true ∧
      (e.launchReturn.enc 0).reverse = true ∧ e.launchReturn.d = e.d := by
  have henc : e.launchReturn.enc 0 = (e.launchAxis true).enc 0 := rfl
  refine ⟨rfl, rfl, ?_, ?_, rfl⟩ <;> simp [henc, Engine.launchAxis]

/-! The axis-1 gate -/

/-- A 32-bit entry read as an integer is the word it was. -/
theorem unsigned_signed (v : Nat) : unsigned 32 (signed 32 v) = v % 2 ^ 32 := by
  simp only [unsigned, signed]
  split_ifs <;> omega

/-- R34: at the gate of a printing transit that has not passed it, axis 1 at rest or not decides. -/
theorem Engine.feedGate_due {f : Flight} (hflight : e.pan.flight = some f) (hret : f.ret = false)
    (hgate : f.gatePassed = false) :
    e.feedGate =
      let gated : Engine := { e with pan.flight := some { f with gatePassed := true, gated := !e.atRest 1 } }
      if !e.atRest 1 then gated.raise 3 4 (2 ^ 37 + e.get 0x3010 6 % 2 ^ 32) else gated := by
  rw [← unsigned_signed]
  simp only [Engine.feedGate, hflight, hret, hgate]
  rfl

end Launch

/-- Settles O17: the launch check by what is next and what it fails, and the gate by axis 1. -/
theorem launchAndGate : Obligations.LaunchAndGate := by
  intro s hlive
  have hlaunch : Becomes .launchCheck s s.e.launchCheck := becomes_of_whenLive rfl hlive
  have hgate : Becomes .axis1Gate s s.e.feedGate := becomes_of_whenLive rfl hlive
  refine ⟨?_, ?_, ?_, ?_, ?_, ?_⟩
  · intro hjob
    rwa [Engine.launchCheck, if_pos (Or.inl hjob)] at hlaunch
  · intro hjob hflight hleft hreturn hrest hfeed hstop hstage hplls hpeers
    have hfree : s.e.launchFree = true := by simp [Engine.launchFree, hstop, hstage, hplls, hpeers]
    rw [s.e.launchCheck_axesReady hjob hflight (.inl hleft) hrest hfeed, if_pos hfree, hreturn,
      if_neg Bool.false_ne_true] at hlaunch
    obtain ⟨f, hstarted, ht, hret, hline, hpassed⟩ := s.e.counts.launchTransit_flight
    refine hlaunch.completes ?_
    dsimp only
    exact ⟨f, hstarted, ht, hret, hline, hpassed, rfl⟩
  · intro hjob hflight hreturn hrest hfeed hstop hstage hplls hpeers
    have hfree : s.e.launchFree = true := by simp [Engine.launchFree, hstop, hstage, hplls, hpeers]
    rw [s.e.launchCheck_axesReady hjob hflight (.inr hreturn) hrest hfeed, if_pos hfree,
      if_pos hreturn] at hlaunch
    exact hlaunch.completes s.e.counts.launchReturn_starts
  · intro hjob hflight hleft hrest hfeed hstage
    have hblocked : ¬ s.e.launchFree = true := by simp [Engine.launchFree, Nat.not_lt.mpr hstage]
    rw [s.e.launchCheck_axesReady hjob hflight (.inl hleft) hrest hfeed, if_neg hblocked] at hlaunch
    have hsweep := s.e.counts.cutPanel_sweep
    exact hlaunch.completes ⟨(congrArg Prod.fst hsweep).trans hflight, congrArg Prod.snd hsweep, rfl⟩
  · intro f hflight hret hpassed hrest
    rw [s.e.feedGate_due hflight hret hpassed, hrest] at hgate
    exact hgate
  · intro f hflight hret hpassed hrest
    rw [s.e.feedGate_due hflight hret hpassed, hrest] at hgate
    exact ⟨_, rfl, hgate⟩

end Sys2Proof.Machine

namespace Sys2Proof.Machine

/-! The ends of sweeps (R33, R129) -/

section Ends

variable (e : Engine)

@[simp] theorem Engine.goTo_pan (a : Nat) (x : Int) : (e.goTo a x).pan = e.pan := by
  simp only [Engine.goTo]
  split_ifs <;> rfl

@[simp] theorem Engine.goTo_d (a : Nat) (x : Int) : (e.goTo a x).d = e.d := by
  simp only [Engine.goTo]
  split_ifs <;> rfl

@[simp] theorem Engine.get_goTo (a : Nat) (x : Int) (i j : Nat) : (e.goTo a x).get i j = e.get i j :=
  Engine.get_of_d (e.goTo_d a x) i j

/-- Where the carriage lands, axis 0 alone is changed. -/
theorem Engine.landAxis_keeps (rev : Bool) (next : Option Int) :
    (e.landAxis rev next).pan = e.pan ∧ (e.landAxis rev next).flt = e.flt ∧ (e.landAxis rev next).d = e.d ∧
      (e.landAxis rev next).mot.tail = e.mot.tail ∧ (e.landAxis rev next).mot.encs = e.mot.encs := by
  simp only [Engine.landAxis]
  split_ifs <;> exact ⟨rfl, rfl, rfl, rfl, rfl⟩

/-- What the end of any sweep leaves. -/
theorem Engine.clearFlight_over : e.clearFlight.pan.flight = none ∧ e.clearFlight.pan.nextT = e.pan.nextT ∧
    e.clearFlight.flt.blankTransit = false ∧ e.clearFlight.mot.tail = true ∧ (e.clearFlight.enc 0).active = false := by
  refine ⟨rfl, rfl, rfl, rfl, ?_⟩
  simp [Engine.clearFlight, Engine.closeWindows, Engine.endWindows, Engine.onWindows, Engine.putI, Engine.enc, Engine.setEnc]

/-- R36: a return sweep that ran to its end leaves the carriage on its way to the next launch position. -/
theorem Engine.transitEnd_return {f : Flight} (hflight : e.pan.flight = some f) (hret : f.ret = true) (hgoes : f.aborted = false)
    (hran : f.stopped = false) :
    e.transitEnd = e.clearFlight.landAxis true (some (e.clearFlight.launchPos false)) := by
  simp [Engine.transitEnd, hflight, hret, Engine.returnEnd, hgoes, hran]

/-- The engine once printing transit `t` is over: the next one is due, after a return sweep or not. -/
def Engine.transitOver (e : Engine) (t : Nat) (returning : Bool) : Engine :=
  let e : Engine := { e with pan.nextT := t + 1, pan.lastEnd := some e.now, pan.returning := returning }
  (e.put 0x2200 0x0A ((t + 1) % 2 ^ 32)).put 0x2200 0x0B (advSum e.pan.resH e.pan.resP (t + 1) % 2 ^ 32)

/-- R33: a transit that is not its panel's last ends with the axes on their way to the next. -/
theorem Engine.printingEnd_inPanel {f : Flight} (hgoes : f.aborted = false) (hran : f.stopped = false)
    (hmore : e.pan.launched < e.get 0x2202 5) : ∃ (x : Engine) (returning : Bool) (p q : Int), e.printingEnd f =
      ((x.clearFlight.transitOver f.t returning).landAxis f.reverse (some p)).goTo 1 q := by
  have hlast : decide (e.get 0x2202 5 ≤ e.pan.launched) = false := decide_eq_false (by omega)
  rw [Engine.printingEnd, hlast, hgoes, hran]
  exact ⟨_, _, _, _, rfl⟩

theorem Engine.transitOver_next (t : Nat) (returning : Bool) :
    (e.transitOver t returning).pan.flight = e.pan.flight ∧ (e.transitOver t returning).pan.nextT = t + 1 ∧
      (e.transitOver t returning).get 0x2200 0x0A = (t + 1) % 2 ^ 32 ∧
      (e.transitOver t returning).pan.lastEnd.isSome = true := by
  refine ⟨rfl, rfl, ?_, rfl⟩
  simp [Engine.transitOver, Engine.get_put]

end Ends

theorem transitEnds : Says.TransitEnds := by
  intro s hlive
  have hend : Becomes .transitEnd s s.e.transitEnd := becomes_of_whenLive rfl hlive
  refine ⟨?_, ?_, ?_⟩
  · intro hflight
    rwa [Engine.transitEnd, hflight] at hend
  · intro f hflight hret hgoes hran
    rw [s.e.transitEnd_return hflight hret hgoes hran] at hend
    obtain ⟨hpan, hflt, -, htail, hencs⟩ := s.e.clearFlight.landAxis_keeps true (some (s.e.clearFlight.launchPos false))
    obtain ⟨hnone, hnext, hblank, hrun, hfilter⟩ := s.e.clearFlight_over
    refine hend.completes ?_
    dsimp only
    rw [hpan, hflt, htail, Engine.enc, hencs]
    exact ⟨hnone, hblank, hrun, hfilter, hnext⟩
  · intro f hflight hret hgoes hran hlines hmore
    obtain ⟨x, returning, p, q, hover⟩ := s.e.printingEnd_inPanel hgoes hran hmore
    have hprinted : s.e.transitEnd = s.e.printingEnd f := by
      simp [Engine.transitEnd, hflight, hret, Nat.not_lt.mpr hlines]
    rw [hprinted, hover] at hend
    obtain ⟨hpan, -, hd, -, -⟩ := (x.clearFlight.transitOver f.t returning).landAxis_keeps f.reverse (some p)
    obtain ⟨hflight', hnext, hcount, hlast⟩ := x.clearFlight.transitOver_next f.t returning
    refine hend.completes ?_
    dsimp only
    rw [Engine.goTo_pan, Engine.get_goTo, hpan, Engine.get_of_d hd]
    exact ⟨hflight'.trans x.clearFlight_over.1, hnext, hcount, hlast, rfl⟩

end Sys2Proof.Machine

namespace Sys2Proof.Machine

/-! Panel boundaries and the forecast (R41, R46) -/

section Commit

variable (e : Engine)

/-- A panel that commits counts as the job's next, with nothing launched. -/
def Engine.beginPanel (e : Engine) (t0 : Nat) : Engine :=
  { e with pan.panels := e.pan.panels + 1, pan.t0 := t0, pan.firstT := e.pan.nextT, pan.launched := 0, pan.returning := false }

theorem Engine.beginPanel_panels (t0 : Nat) : (e.beginPanel t0).pan.panels = e.pan.panels + 1 := rfl

theorem Engine.openReport_panels : e.openReport.pan.panels = e.pan.panels := rfl

/-- An armed proof takes the panel that commits as its first (R104). -/
def Engine.proofTakesPanel (e : Engine) : Engine :=
  if e.get 0x2471 2 = 1 then (e.put 0x2471 2 2).put 0x2471 0x0A (e.get 0x2202 1) else e

theorem Engine.proofTakesPanel_pan : e.proofTakesPanel.pan = e.pan := by
  rw [Engine.proofTakesPanel]
  split_ifs <;> rfl

theorem Engine.get_proofTakesPanel (j : Nat) (hj : j < 256) : e.proofTakesPanel.get 0x2202 j = e.get 0x2202 j := by
  rw [Engine.proofTakesPanel]
  split_ifs
  · rw [Engine.get_put_other _ (by decide) hj (by simp), Engine.get_put_other _ (by decide) hj (by simp)]
  · rfl

/-- R46: what a commit publishes in 2202h, and the steps that follow it. -/
theorem Engine.commit_eq (st n : Nat) : ∃ (x : Engine) (t0 : Nat) (p q : Int),
    e.commit st n = ((((x.openReport.beginPanel t0).goTo 0 p).goTo 1 q).proofTakesPanel).put 0x2200 2 2 ∧
      x.pan = e.pan ∧ x.get 0x2202 2 = st ∧ x.get 0x2202 3 = stepHz st ∧ x.get 0x2202 5 = n ∧ x.get 0x2202 6 = 0 := by
  refine ⟨_, _, _, _, rfl, ?_⟩
  simp [Engine.get_put, ekey]

/-- R41, R46: the panel a commit leaves. -/
theorem Engine.commit_panel (st n : Nat) :
    (e.commit st n).jobState = 2 ∧ (e.commit st n).get 0x2202 2 = st ∧ (e.commit st n).get 0x2202 3 = stepHz st ∧
      (e.commit st n).get 0x2202 5 = n ∧ (e.commit st n).get 0x2202 6 = 0 ∧
      (e.commit st n).pan.panels = e.pan.panels + 1 ∧ (e.commit st n).pan.launched = 0 := by
  obtain ⟨x, t0, p, q, hcommit, hpan, hstep, hfreq, hlen, hdone⟩ := e.commit_eq st n
  have hget (j : Nat) (hj : j < 256) : (e.commit st n).get 0x2202 j = x.get 0x2202 j := by
    rw [hcommit, Engine.get_put_other _ (by decide) hj (by simp), Engine.get_proofTakesPanel _ j hj, Engine.get_goTo,
      Engine.get_goTo]
    rfl
  have hkept : (e.commit st n).pan = (x.openReport.beginPanel t0).pan := by
    rw [hcommit, Engine.put_pan, Engine.proofTakesPanel_pan, Engine.goTo_pan, Engine.goTo_pan]
  refine ⟨?_, ?_, ?_, ?_, ?_, ?_, ?_⟩
  · rw [hcommit]
    exact Engine.get_put_same _ _ _ _
  · rw [hget 2 (by decide), hstep]
  · rw [hget 3 (by decide), hfreq]
  · rw [hget 5 (by decide), hlen]
  · rw [hget 6 (by decide), hdone]
  · rw [hkept, ← hpan, x.openReport.beginPanel_panels, x.openReport_panels]
  · rw [hkept]
    rfl

/-- Publishing a forecast writes 2203h:01h to :04h. -/
theorem Engine.publishForecast_eq (f : Forecast) : ∃ a b c d : Nat,
    e.publishForecast f = (((e.put 0x2203 1 a).put 0x2203 2 b).put 0x2203 3 c).put 0x2203 4 d := by
  rw [Engine.publishForecast]
  rcases e.measuredRate with ⟨m, w⟩
  exact ⟨_, _, _, _, rfl⟩

theorem Engine.publishForecast_pan (f : Forecast) : (e.publishForecast f).pan = e.pan := by
  obtain ⟨a, b, c, d, heq⟩ := e.publishForecast_eq f
  rw [heq]
  simp only [Engine.put_pan]

/-- R41: a forecast that finds a step and a length commits the panel at them. -/
theorem Engine.forecastCommit_commits {st n : Nat} (hclear : e.flag 0x2430 9 = false)
    (hchoice : e.forecastInputs.choose = some (st, n)) :
    ∃ x : Engine, e.forecastCommit = x.commit st n ∧ x.pan = e.pan := by
  refine ⟨(((e.publishForecast e.forecastInputs).put 0x2203 5 e.forecastInputs.result).put 0x2203 6 st), ?_, ?_⟩
  · simp only [Engine.forecastCommit, hclear, Bool.false_eq_true, if_false, hchoice]
  · rw [Engine.put_pan, Engine.put_pan, Engine.publishForecast_pan]

theorem Forecast.result_none {f : Forecast} (hnone : f.choose = none) : f.result = 3 := by
  rw [Forecast.result, hnone]

/-- R41: a forecast that finds nothing holds the job for STARVED. -/
theorem Engine.forecastCommit_starves (hclear : e.flag 0x2430 9 = false) (hnone : e.forecastInputs.choose = none) :
    e.forecastCommit = ((e.publishForecast e.forecastInputs).put 0x2203 5 3).toHeld.setHold 3 true := by
  rw [Engine.forecastCommit, hclear, if_neg Bool.false_ne_true]
  dsimp only
  rw [hnone, Forecast.result_none hnone]

/-- A boundary with nothing due looks at the hold causes and, if none holds the job, at the forecast. -/
theorem Engine.boundary_forecast {x : Engine} (hjob : e.jobState = 1) (hdue : e.pan.due = false) (hholder : e.pan.holder = none)
    (hgoes : e.jobOver = false) (hx : x = (e.returnHeads.peerRules (e.pan.panels == 0)).evalHolds) (hfree : x.jobState = 1) :
    e.boundary = x.forecastCommit := by
  have hrest : e.boundaryRest = x.forecastCommit := by
    rw [Engine.boundaryRest, hgoes, if_neg Bool.false_ne_true]
    dsimp only
    rw [← hx, if_pos hfree]
  simpa [Engine.boundary, hjob, hdue, hholder] using hrest

/-- Holding the job writes its state and those of axes 0 and 1. -/
theorem Engine.get_toHeld (i j : Nat) (hi : i ≠ 0x3000) (hi' : i ≠ 0x3010) (hj : j < 256) :
    e.toHeld.get i j = (e.put 0x2200 2 3).get i j := by
  have hstep (x : Engine) (a : Nat) (ha : i ≠ 0x3000 + 16 * a) :
      (if x.get (0x3000 + 16 * a) 2 = 6 ∧ (x.axis a).v = 0 ∧ (x.axis a).seg.isNone ∧ (x.axis a).plan.isEmpty then
        x.put (0x3000 + 16 * a) 2 1 else x).get i j = x.get i j := by
    split_ifs
    · exact Engine.get_put_other _ (by decide) hj fun h => ha h.1
    · rfl
  exact (hstep _ 1 hi').trans (hstep _ 0 hi)

theorem Engine.toHeld_jobState : e.toHeld.jobState = 3 :=
  (e.get_toHeld 0x2200 2 (by decide) (by decide) (by decide)).trans (Engine.get_put_same _ _ _ _)

theorem Engine.setHold_jobState (i : Nat) (on : Bool) : (e.setHold i on).jobState = e.jobState :=
  Engine.get_put_other _ (by decide) (by decide) (by decide)

theorem Engine.hold_setHold (i : Nat) : (e.setHold i true).hold i = true := by
  rw [Engine.hold, Engine.setHold, Engine.get_put_same, bit_setBit_true]

theorem Engine.get_setHold (i : Nat) (on : Bool) (j k : Nat) (hj : j ≠ 0x2200) (hk : k < 256) :
    (e.setHold i on).get j k = e.get j k :=
  Engine.get_put_other _ (by decide) hk fun h => hj h.1

end Commit

theorem boundaryAndForecast : Says.BoundaryAndForecast := by
  intro s hlive
  have hboundary {P : State → Prop} (h : ∀ t : State, t.e = s.e.boundary → P t) : Completes .panelBoundary s P := by
    refine ⟨s.withSelectors s.e.boundary, ?_, h _ rfl⟩
    rw [← whenLive_live s.e (f := Engine.boundary) hlive]
    rfl
  have hretry : Becomes .forecastRetry s s.e.retryForecast := becomes_of_whenLive rfl hlive
  refine ⟨?_, ?_, ?_, ?_, ?_⟩
  · intro h1 h3
    exact hboundary fun t ht => ht.trans (if_pos (.inl ⟨h1, h3⟩))
  · intro x st n hjob hdue hholder hgoes hx hfree hclear hchoice
    obtain ⟨y, hcommit, hpan⟩ := x.forecastCommit_commits hclear hchoice
    refine hboundary fun t ht => ?_
    rw [ht, s.e.boundary_forecast hjob hdue hholder hgoes hx hfree, hcommit, ← hpan]
    exact y.commit_panel st n
  · intro x hjob hdue hholder hgoes hx hfree hclear hnone
    refine hboundary fun t ht => ?_
    rw [ht, s.e.boundary_forecast hjob hdue hholder hgoes hx hfree, x.forecastCommit_starves hclear hnone]
    refine ⟨?_, Engine.hold_setHold _ 3, ?_⟩
    · rw [Engine.setHold_jobState, Engine.toHeld_jobState]
    · rw [Engine.get_setHold _ 3 true _ _ (by decide) (by decide), Engine.get_toHeld _ _ _ (by decide) (by decide) (by decide),
        Engine.get_put_other _ (by decide) (by decide) (by decide), Engine.get_put_same]
  · intro h3
    rwa [Engine.retryForecast, if_pos (.inl h3)] at hretry
  · intro h3 hstarved hclear hnone
    have hpublish : s.e.retryForecast = (s.e.publishForecast s.e.forecastInputs).put 0x2203 5 3 := by
      rw [Engine.retryForecast, if_neg (by simp [h3, hstarved, hclear])]
      dsimp only
      rw [hnone, Forecast.result_none hnone]
    obtain ⟨a, b, c, d, heq⟩ := s.e.publishForecast_eq s.e.forecastInputs
    rw [hpublish, heq] at hretry
    have honly := (((((Engine.EntriesOnly.refl s.e).put 0x2203 1 a).put 0x2203 2 b).put 0x2203 3 c).put 0x2203 4 d).put 0x2203 5 3
    refine hretry.completes ⟨Engine.get_put_same _ _ _ _, ?_, ?_, congrArg (fun e => { s with e := e }) honly.eq⟩
    · refine Eq.trans ?_ h3
      simp [Engine.jobState, Engine.get_put, ekey]
    · intro k hk
      simp only [List.mem_cons, List.not_mem_nil, or_false, not_or] at hk
      simp [Engine.ent_put, ekey, hk]

/-- Settles O18: what follows the end of a sweep, and what a boundary and a retry of the forecast commit or publish. -/
theorem transitEndsAndBoundaries : Obligations.TransitEndsAndBoundaries := ⟨transitEnds, boundaryAndForecast⟩

end Sys2Proof.Machine

/-! The dictionary (R31, R399-R408, R411): what a write request and a USDO request leave, and the dictionary store. -/

namespace Sys2Proof.Machine

/-! Steps 1 to 5 of a write (R399) -/

section WriteChecks

variable (e : Engine) {idx sub n : Nat} {d : DictRow}

theorem Engine.writeCode_noIndex (h : indexExists idx = false) : e.writeCode idx sub n = abIndex := by
  simp [Engine.writeCode, h]

theorem Engine.writeCode_noRow (h : indexExists idx = true) (hrow : dictRow idx sub = none) : e.writeCode idx sub n = abSub := by
  simp [Engine.writeCode, h, hrow]

theorem Engine.writeCode_readOnly (h : indexExists idx = true) (hrow : dictRow idx sub = some d)
    (hacc : d.acc = .ro ∨ d.acc = .const) : e.writeCode idx sub n = abReadOnly := by
  rcases hacc with hacc | hacc <;> simp [Engine.writeCode, h, hrow, hacc]

/-- A write to a numeric entry that the host may write is checked for its length and then for the entry's partition. -/
theorem Engine.writeCode_numeric (h : indexExists idx = true) (hrow : dictRow idx sub = some d)
    (hacc : d.acc = .rw ∨ d.acc = .wo) (hclock : clockEnable idx sub = false) (hnum : d.ty.numeric = true) :
    e.writeCode idx sub n = if n ≠ d.ty.bytes then abLength else if e.serving (owner idx) then 0 else abState := by
  rcases hacc with hacc | hacc <;> cases hserves : e.serving (owner idx) <;>
    simp [Engine.writeCode, h, hrow, hacc, hclock, hnum, hserves]

end WriteChecks

/-! Steps 6 and 7 of a write, and its effect (R399, R400) -/

section WriteEffects

variable (e : Engine) {idx sub v : Nat} {d : DictRow} {data : List Byte}

theorem Engine.writeEntry_stateFails (hnum : d.ty.numeric = true) (h : e.entryState d idx sub (le data) = false) :
    e.writeEntry d idx sub data = e.refuse abState := by
  simp [Engine.writeEntry, hnum, h]

theorem Engine.writeEntry_valueFails (hnum : d.ty.numeric = true) (h : e.entryState d idx sub (le data) = true)
    (hv : e.valueCode d idx sub (le data) ≠ 0) : e.writeEntry d idx sub data = e.refuse (e.valueCode d idx sub (le data)) := by
  simp [Engine.writeEntry, hnum, h, hv]

theorem Engine.writeEntry_stores (hnum : d.ty.numeric = true) (h : e.entryState d idx sub (le data) = true)
    (hv : e.valueCode d idx sub (le data) = 0) : e.writeEntry d idx sub data = (e.storeNum d idx sub (le data)).done := by
  simp [Engine.writeEntry, hnum, h, hv]

/-- Of the entries of partition 0 those are staged whose row says so. -/
theorem stagedEntry_partition0 (hidx : idx < 0x2800) : stagedEntry d idx sub = decide (d.cls = .staged) := by
  have h1 : (idx == 0x3001) = false := beq_false_of_ne (by omega)
  have h2 : (idx == 0x3011) = false := beq_false_of_ne (by omega)
  have h3 : ¬ 0x3100 ≤ idx := by omega
  simp [stagedEntry, h1, h2, h3]

/-- Nothing follows at once from the write of an entry of partition 0. -/
theorem Engine.follows_partition0 (hidx : idx < 0x2800) (old : Nat) : e.follows idx sub old v = e := by
  rw [Engine.follows, if_neg (by omega), if_neg (by omega), if_neg (by omega), if_neg (by omega), if_neg (by omega),
    if_neg (by omega)]

theorem Engine.storeNum_inForce (hidx : idx < 0x2800) (hstaged : d.cls ≠ .staged) (hlaunch : d.cls ≠ .launch) :
    e.storeNum d idx sub v = e.put idx sub v := by
  simp [Engine.storeNum, stagedEntry_partition0 hidx, hstaged, hlaunch, Engine.follows_partition0 _ hidx]

theorem Engine.storeNum_held (hidx : idx < 0x2800) (hstaged : d.cls = .staged) (hjob : e.jobState ≠ 0) :
    e.storeNum d idx sub v = e.stageNum (ekey idx sub) v := by
  simp [Engine.storeNum, stagedEntry_partition0 hidx, hstaged, hjob]

end WriteEffects

/-! Write requests -/

section WriteRequests

variable {s : State} {x : BitVec 16} {y : Byte} {data : List Byte}

/-- R399: a write that one of the first five checks fails is refused with that check's code. -/
theorem dictionaryWrite_refuses {code : Nat} (hlive : s.e.live = true)
    (hcode : s.e.writeCode x.toNat y.toNat data.length = code) (hne : code ≠ 0) : Refuses (.dictionaryWrite x y data) s code := by
  change execDictionaryWrite x y data s = _
  rw [execDictionaryWrite, if_pos hlive, serveWrite, hcode]
  dsimp only
  rw [if_pos hne]
  rfl

/-- A write that passes them and reaches no command entry goes to the entry. -/
theorem dictionaryWrite_entry {d : DictRow} (hlive : s.e.live = true) (hcode : s.e.writeCode x.toNat y.toNat data.length = 0)
    (hlow : 0x2100 ≤ x.toNat) (hhigh : x.toNat < 0x2800) (hcommand : s.e.command x.toNat y.toNat (le data) data = none)
    (hrow : dictRow x.toNat y.toNat = some d) :
    Becomes (.dictionaryWrite x y data) s (s.e.writeEntry d x.toNat y.toNat data) := by
  have hchecked : writeChecked x.toNat y.toNat data s = { s with e := s.e.writeEntry d x.toNat y.toNat data } := by
    have h1 : x.toNat ≠ 0x4302 := by omega
    have h2 : x.toNat ≠ 0x4310 := by omega
    have h3 : ¬ 0x4400 ≤ x.toNat := by omega
    have h4 : x.toNat ≠ 0x1010 := by omega
    have h5 : x.toNat ≠ 0x1011 := by omega
    simp [writeChecked, h1, h2, h3, h4, h5, hcommand, hrow]
  change execDictionaryWrite x y data s = _
  rw [execDictionaryWrite, if_pos hlive, serveWrite, hcode]
  exact congrArg Host.Outcome.next hchecked

end WriteRequests

theorem dictionaryWrites : Says.DictionaryWrites := by
  rintro s x y data _ _ hlive rfl rfl
  refine ⟨?_, ?_, ?_⟩
  · exact fun hidx => dictionaryWrite_refuses hlive (s.e.writeCode_noIndex hidx) (by decide)
  · exact fun hidx hrow => dictionaryWrite_refuses hlive (s.e.writeCode_noRow hidx hrow) (by decide)
  · intro d hidx hrow
    refine ⟨?_, ?_, ?_⟩
    · exact fun hacc => dictionaryWrite_refuses hlive (s.e.writeCode_readOnly hidx hrow hacc) (by decide)
    · intro hacc hclock hnum hlen
      refine dictionaryWrite_refuses hlive ?_ (by decide)
      rw [s.e.writeCode_numeric hidx hrow hacc hclock hnum, if_pos hlen]
      rfl
    · intro hacc hclock hnum hlen
      have hcode := s.e.writeCode_numeric (n := data.length) hidx hrow hacc hclock hnum
      rw [if_neg (not_not.mpr hlen)] at hcode
      refine ⟨?_, ?_⟩
      · intro hserves
        rw [hserves] at hcode
        exact dictionaryWrite_refuses hlive hcode (by decide)
      · intro hserves hlow hhigh hcommand
        have howner : owner x.toNat = 0 := by simp [owner, hlow, hhigh]
        rw [howner, hserves] at hcode
        have hwrite := dictionaryWrite_entry hlive hcode hlow hhigh hcommand hrow
        refine ⟨?_, ?_, ?_⟩
        · intro hstate
          rwa [s.e.writeEntry_stateFails hnum hstate] at hwrite
        · intro hstate hvalue
          rwa [s.e.writeEntry_valueFails hnum hstate hvalue] at hwrite
        · intro hstate hvalue
          rw [s.e.writeEntry_stores hnum hstate hvalue] at hwrite
          refine ⟨?_, ?_⟩
          · intro hcls
            rw [s.e.storeNum_inForce hhigh (by simp [hcls]) (by simp [hcls])] at hwrite
            exact serves_of_put_done hwrite
          · intro hcls hjob
            rwa [s.e.storeNum_held hhigh hcls hjob] at hwrite

/-! The job parameters (R31) -/

section JobParameters

variable (e : Engine) {sub : Nat} {d : DictRow}

/-- The rows of 2200h:05h to :08h (R56): numbers that the host reads and writes, in Idle only. -/
theorem jobParameter_row (hlow : 5 ≤ sub) (hhigh : sub ≤ 8) (hrow : dictRow 0x2200 sub = some d) :
    d.acc = .rw ∧ d.cls = .idle ∧ d.ty.numeric = true := by
  interval_cases sub <;> obtain rfl := Option.some.inj hrow <;> decide

theorem Engine.command_jobParameter (hlow : 5 ≤ sub) (hhigh : sub ≤ 8) (v : Nat) (data : List Byte) :
    e.command 0x2200 sub v data = none := by
  interval_cases sub <;> rfl

theorem Engine.entryState_jobParameter (hcls : d.cls = .idle) (v : Nat) :
    e.entryState d 0x2200 sub v = (e.jobState == 0) := by
  cases h : e.jobState == 0 <;> simp [Engine.entryState, hcls, h, EffectClass.idleOnly]

theorem Engine.valueCode_jobParameter (v : Nat) (h : d.range.ok d.ty v = true) : e.valueCode d 0x2200 sub v = 0 := by
  simp [Engine.valueCode, h, Engine.consistent]

end JobParameters

/-- Settles O59: the row of a job parameter is of the class that its checks let through in Idle only. -/
theorem jobParametersOnlyInIdle : Obligations.JobParametersOnlyInIdle := by
  intro s x y data ⟨hlive, hserves⟩ hx hlow hhigh d hrow hlen
  obtain ⟨hacc, hcls, hnum⟩ := jobParameter_row hlow hhigh hrow
  rw [← hx] at hrow
  have hcode : s.e.writeCode x.toNat y.toNat data.length = 0 := by
    rw [s.e.writeCode_numeric (by rw [hx]; rfl) hrow (.inl hacc) (by rw [hx]; rfl) hnum, if_neg (not_not.mpr hlen), hx]
    exact if_pos hserves
  have hcommand : s.e.command x.toNat y.toNat (le data) data = none := by
    rw [hx]
    exact s.e.command_jobParameter hlow hhigh _ _
  have hwrite := dictionaryWrite_entry hlive hcode (by omega) (by omega) hcommand hrow
  rw [hx] at hwrite
  have hstate : s.e.entryState d 0x2200 y.toNat (le data) = (s.e.jobState == 0) := s.e.entryState_jobParameter hcls _
  refine ⟨fun hjob => ?_, fun hidle hrange => ?_⟩
  · rwa [s.e.writeEntry_stateFails hnum (hstate.trans (beq_false_of_ne hjob))] at hwrite
  · rw [s.e.writeEntry_stores hnum (hstate.trans (beq_iff_eq.mpr hidle)) (s.e.valueCode_jobParameter _ hrange),
      s.e.storeNum_inForce (by decide) (by simp [hcls]) (by simp [hcls])] at hwrite
    exact serves_of_put_done hwrite

end Sys2Proof.Machine

namespace Sys2Proof.Machine

/-! The dictionary store (R407, R408) -/

section Store

variable {s : State} {g v : Nat} {ok save : Bool}

/-- The word that a store, or a restore, asks for (R407). -/
def storeWord (save : Bool) : Nat := if save then 0x65766173 else 0x64616F6C

/-- The copy that a store or a restore writes (R408). -/
def NonVol.spareCopy (n : NonVol) : Nat := if n.currentCopy = some 0 then 1 else 0

/-- Nothing keeps a store or a restore from writing: no partition switches, no record waits for the flash, no deep stage. -/
def Engine.StoreFree (e : Engine) : Prop :=
  (∀ p, p < 4 → e.get (partIdx p) 4 ≠ 2) ∧ e.integ.flashDue = [] ∧ e.stage < 4

theorem storeDict_group (h : g = 0 ∨ 3 < g) : storeDict save g v ok s = { s with e := s.e.refuse abSub } := by
  simp [storeDict, h]

/-- R407: past the checks of its group and of what blocks it, a store or restore turns on its word, the copy's length and the
read-back. -/
theorem storeDict_free {q : Nat} {bs : List Byte} (hlow : 1 ≤ g) (hhigh : g ≤ 3) (hfree : s.e.StoreFree)
    (hcopy : newCopy save g s.nv s.e = (q, bs)) :
    storeDict save g v ok s =
      if v ≠ storeWord save then { s with e := s.e.refuse abAction }
      else if 2 ^ 20 < bs.length then { s with e := s.e.refuse abAction }
      else if !ok then
        { s with nv := { s.nv with copies := cellErase s.nv.spareCopy s.nv.copies }
                 e := (s.e.bump 0x2003 7 1).refuse abAction }
      else
        { s with nv := { s.nv with copies := cellSet (fun _ => []) s.nv.copies s.nv.spareCopy bs }
                 e := (if save then ((s.e.put 0x2003 2 q).put 0x2003 3 s.nv.spareCopy).bump 0x2003 6 1
                   else (s.e.put 0x2003 2 q).put 0x2003 3 s.nv.spareCopy).done } := by
  obtain ⟨hpart, hflash, hstage⟩ := hfree
  have hgroup : ¬ (g = 0 ∨ 3 < g) := by omega
  have hbusy : ([0, 1, 2, 3].any (fun p => s.e.get (partIdx p) 4 == 2) || !s.e.integ.flashDue.isEmpty ||
      decide (4 ≤ s.e.stage)) = false := by
    simp [hpart, hflash, hstage]
  rw [storeDict, if_neg hgroup, hbusy, if_neg Bool.false_ne_true, hcopy]
  rfl

theorem storeDict_wrongWord (hlow : 1 ≤ g) (hhigh : g ≤ 3) (hfree : s.e.StoreFree) (hword : v ≠ storeWord save) :
    storeDict save g v ok s = { s with e := s.e.refuse abAction } := by
  rw [storeDict_free hlow hhigh hfree rfl, if_pos hword]

/-- R408: a copy that does not read back is left invalid, and the failure is counted. -/
theorem storeDict_unreadable {q : Nat} {bs : List Byte} (hlow : 1 ≤ g) (hhigh : g ≤ 3) (hfree : s.e.StoreFree)
    (hcopy : newCopy save g s.nv s.e = (q, bs)) (hroom : bs.length ≤ 2 ^ 20) :
    storeDict save g (storeWord save) false s =
      { s with nv := { s.nv with copies := cellErase s.nv.spareCopy s.nv.copies }
               e := (s.e.bump 0x2003 7 1).refuse abAction } := by
  rw [storeDict_free hlow hhigh hfree hcopy, if_neg (not_not.mpr rfl), if_neg (Nat.not_lt.mpr hroom)]
  rfl

/-- R408: a copy that reads back is current, and what it holds is published. -/
theorem storeDict_written {q : Nat} {bs : List Byte} (hlow : 1 ≤ g) (hhigh : g ≤ 3) (hfree : s.e.StoreFree)
    (hcopy : newCopy save g s.nv s.e = (q, bs)) (hroom : bs.length ≤ 2 ^ 20) :
    storeDict save g (storeWord save) true s =
      { s with nv := { s.nv with copies := cellSet (fun _ => []) s.nv.copies s.nv.spareCopy bs }
               e := (if save then ((s.e.put 0x2003 2 q).put 0x2003 3 s.nv.spareCopy).bump 0x2003 6 1
                 else (s.e.put 0x2003 2 q).put 0x2003 3 s.nv.spareCopy).done } := by
  rw [storeDict_free hlow hhigh hfree hcopy, if_neg (not_not.mpr rfl), if_neg (Nat.not_lt.mpr hroom)]
  rfl

theorem exec_dictionaryStore (g : Byte) (v : BitVec 32) (ok : Bool) (hs : s.serves 2) :
    exec (.dictionaryStore g v ok) s = .next (storeDict true g.toNat v.toNat ok s) := by
  obtain ⟨hlive, hserves⟩ := hs
  change Host.Outcome.next (onRequest 0x1010 _ s) = _
  simp [onRequest, hlive, show owner 0x1010 = 2 from rfl, hserves]

theorem exec_dictionaryRestore (g : Byte) (v : BitVec 32) (ok : Bool) (hs : s.serves 2) :
    exec (.dictionaryRestore g v ok) s = .next (storeDict false g.toNat v.toNat ok s) := by
  obtain ⟨hlive, hserves⟩ := hs
  change Host.Outcome.next (onRequest 0x1011 _ s) = _
  simp [onRequest, hlive, show owner 0x1011 = 2 from rfl, hserves]

end Store

/-! The error field list (R411) -/

section ErrorList

variable (e : Engine)

/-- The error field list emptied (R411): its entries alone are written, each with 0. -/
theorem Engine.ent_zeroAll (idx : Nat) (is : List Nat) (k : Nat) :
    (is.foldl (fun e i => e.put idx i 0) e).ent k = if k ∈ is.map (ekey idx) then 0 else e.ent k := by
  induction is generalizing e with
  | nil => simp
  | cons i is ih =>
    rw [List.foldl_cons, ih, Engine.ent_put]
    by_cases hmem : k ∈ is.map (ekey idx) <;> by_cases hk : k = ekey idx i <;> simp [hmem, hk]

theorem Engine.EntriesOnly.zeroAll (idx : Nat) (is : List Nat) :
    e.EntriesOnly (is.foldl (fun e i => e.put idx i 0) e) :=
  List.foldlRecOn (motive := e.EntriesOnly) is _ (.refl e) fun _ h i _ => h.put idx i 0

theorem Engine.clearErrors_refused {v : Nat} (h : v ≠ 0) : e.clearErrors v = e.refuse abValue := if_pos h

theorem Engine.clearErrors_zero : e.clearErrors 0 = ((List.range 9).foldl (fun e i => e.put 0x1003 i 0) e).done := if_neg (not_not.mpr rfl)

end ErrorList

theorem errorListClear_becomes {s : State} (v : Byte) (hs : s.serves 2) :
    Becomes (.errorListClear v) s (s.e.clearErrors v.toNat) :=
  becomes_of_request (idx := 0x1003) (f := fun e => e.clearErrors v.toNat) rfl hs

theorem errorListClear_serves {s : State} (hs : s.serves 2) :
    Serves (.errorListClear 0) s ((List.range 9).map (fun i => (ekey 0x1003 i, 0))) := by
  have hclear := errorListClear_becomes 0 hs
  rw [show (0 : Byte).toNat = 0 from rfl, Engine.clearErrors_zero] at hclear
  refine serves_of_entriesOnly hclear (.zeroAll s.e 0x1003 (List.range 9)) ?_ ?_
  · intro p hp
    obtain ⟨i, hi, rfl⟩ := List.mem_map.mp hp
    rw [Engine.ent_zeroAll, if_pos (List.mem_map_of_mem hi)]
  · intro k hk
    rw [Engine.ent_zeroAll, if_neg]
    simpa [Function.comp_def] using hk

/-! USDO requests to the engine (R406) -/

section Usdo

variable {s : State} {op : Byte} {x : BitVec 16} {y : Byte} {data : List Byte}

theorem Engine.wake_awake (e : Engine) (cause : Nat) (h : e.idle = 0) : e.wake cause = e := if_pos (.inl h)

/-- The answer to a USDO request on the active port (R406). -/
def Engine.answerUsdo (e : Engine) (op idx sub : Nat) : Engine :=
  e.send (.can (e.get 0x5000 0x0D) (0x580 + e.net.nodeId)
    (toLe 1 op ++ toLe 2 idx ++ toLe 1 sub ++ toLe 4 e.sdo ++ e.sdoData))

theorem usdoServe_silent {op idx sub : Nat} (hlive : s.e.live = true) (hidle : s.e.idle = 0) (h : s.e.usdoSilent idx = true) :
    usdoServe op idx sub data s = s := by
  simp [usdoServe, hlive, s.e.wake_awake 4 hidle, h]

/-- R406: a request that is heard is counted, served and, once the network runs, answered. -/
theorem usdoServe_heard {op idx sub : Nat} {t : State} (hlive : s.e.live = true) (hidle : s.e.idle = 0)
    (h : s.e.usdoSilent idx = false)
    (ht : t = if op = 2 then serveWrite idx sub data { s with e := s.e.wrap 0x2003 9 1 }
      else { s with e := (s.e.wrap 0x2003 9 1).serveRead idx sub }) (hdawn : 7 ≤ t.e.dawnStep) :
    usdoServe op idx sub data s = { t with e := t.e.answerUsdo op idx sub } := by
  have hnet : ¬ t.e.dawnStep < 7 := Nat.not_lt.mpr hdawn
  rw [usdoServe, hlive, s.e.wake_awake 4 hidle]
  simp only [Bool.not_true, Bool.false_eq_true, if_false, h]
  rw [← ht, if_neg hnet]
  rfl

theorem exec_usdoRequest : exec (.usdoRequest op x y data) s = .next (usdoServe op.toNat x.toNat y.toNat data s) := rfl

theorem Engine.dawnStep_usdoSilent {e : Engine} {idx : Nat} (h : e.usdoSilent idx = false) : 7 ≤ e.dawnStep := by
  simp only [Engine.usdoSilent, Bool.or_eq_false_iff, decide_eq_false_iff_not] at h
  omega

/-- Counting a request changes nothing that a write is checked by. -/
theorem Engine.writeCode_counted (e : Engine) (idx sub n : Nat) : (e.wrap 0x2003 9 1).writeCode idx sub n = e.writeCode idx sub n := by
  have hstate : (e.wrap 0x2003 9 1).get (0x4400 + owner idx) 4 = e.get (0x4400 + owner idx) 4 :=
    Engine.get_put_other _ (by decide) (by decide) (by omega)
  have hserving : (e.wrap 0x2003 9 1).serving (owner idx) = e.serving (owner idx) := by
    rw [Engine.serving, hstate]
    rfl
  simp only [Engine.writeCode, hserving]

end Usdo

section StoreCommands

variable {s : State} {g : Byte} {q : Nat} {bs : List Byte}

theorem dictionaryStore_completes (hs : s.serves 2) (hlow : 1 ≤ g.toNat) (hhigh : g.toNat ≤ 3) (hfree : s.e.StoreFree)
    (hcopy : newCopy true g.toNat s.nv s.e = (q, bs)) (hroom : bs.length ≤ 2 ^ 20) :
    Completes (.dictionaryStore g 0x65766173 true) s (fun t =>
      t.nv = { s.nv with copies := cellSet (fun _ => []) s.nv.copies s.nv.spareCopy bs } ∧ t.e.get 0x2003 2 = q ∧
      t.e.get 0x2003 3 = s.nv.spareCopy ∧ t.e.get 0x2003 6 = satAdd (entBits 0x2003 6) (s.e.get 0x2003 6) 1 ∧ t.e.sdo = 0 ∧
      (∀ j, j ≠ 0x200302 → j ≠ 0x200303 → j ≠ 0x200306 → t.e.ent j = s.e.ent j)) := by
  have hstored := storeDict_written hlow hhigh hfree hcopy hroom
  rw [if_pos rfl] at hstored
  refine ⟨_, (exec_dictionaryStore g _ true hs).trans (congrArg Host.Outcome.next hstored), rfl, ?_, ?_, ?_, rfl, ?_⟩
  · simp [Engine.bump, Engine.get_put]
  · simp [Engine.bump, Engine.get_put]
  · simp [Engine.bump, Engine.get_put]
  · intro j h2 h3 h6
    change (Engine.bump _ 0x2003 6 1).ent j = s.e.ent j
    simp [Engine.bump, Engine.ent_put, ekey, h2, h3, h6]

theorem dictionaryStore_failed (hs : s.serves 2) (hlow : 1 ≤ g.toNat) (hhigh : g.toNat ≤ 3) (hfree : s.e.StoreFree)
    (hcopy : newCopy true g.toNat s.nv s.e = (q, bs)) (hroom : bs.length ≤ 2 ^ 20) :
    Completes (.dictionaryStore g 0x65766173 false) s (fun t =>
      t.nv = { s.nv with copies := cellErase s.nv.spareCopy s.nv.copies } ∧ t.e.sdo = abAction ∧
      t.e.get 0x2003 7 = satAdd (entBits 0x2003 7) (s.e.get 0x2003 7) 1 ∧ (∀ j, j ≠ 0x200307 → t.e.ent j = s.e.ent j)) := by
  have hfailed := storeDict_unreadable hlow hhigh hfree hcopy hroom
  refine ⟨_, (exec_dictionaryStore g _ false hs).trans (congrArg Host.Outcome.next hfailed), rfl, rfl, ?_, ?_⟩
  · simp [Engine.bump]
  · intro j h7
    exact (Engine.ent_put _ _ _ _ _).trans (if_neg h7)

theorem dictionaryRestore_completes (hs : s.serves 2) (hlow : 1 ≤ g.toNat) (hhigh : g.toNat ≤ 3) (hfree : s.e.StoreFree)
    (hcopy : newCopy false g.toNat s.nv s.e = (q, bs)) (hroom : bs.length ≤ 2 ^ 20) :
    Completes (.dictionaryRestore g 0x64616F6C true) s (fun t =>
      t.nv = { s.nv with copies := cellSet (fun _ => []) s.nv.copies s.nv.spareCopy bs } ∧ t.e.get 0x2003 2 = q ∧
      t.e.get 0x2003 3 = s.nv.spareCopy ∧ t.e.sdo = 0 ∧
      (∀ j, j ≠ 0x200302 → j ≠ 0x200303 → t.e.ent j = s.e.ent j)) := by
  have hstored := storeDict_written hlow hhigh hfree hcopy hroom
  rw [if_neg Bool.false_ne_true] at hstored
  refine ⟨_, (exec_dictionaryRestore g _ true hs).trans (congrArg Host.Outcome.next hstored), rfl, ?_, ?_, rfl, ?_⟩
  · simp [Engine.get_put]
  · simp
  · intro j h2 h3
    change ((s.e.put 0x2003 2 q).put 0x2003 3 s.nv.spareCopy).ent j = s.e.ent j
    simp [Engine.ent_put, ekey, h2, h3]

end StoreCommands

/-- R406: a write that is refused is counted and its refusal answered. -/
theorem usdoRequest_refused {s : State} {op : Byte} {x : BitVec 16} {y : Byte} {data : List Byte} {code : Nat}
    (hlive : s.e.live = true) (hidle : s.e.idle = 0) (hheard : s.e.usdoSilent x.toNat = false) (hop : op.toNat = 2)
    (hcode : s.e.writeCode x.toNat y.toNat data.length = code) (hne : code ≠ 0) :
    Becomes (.usdoRequest op x y data) s (((s.e.wrap 0x2003 9 1).refuse code).answerUsdo 2 x.toNat y.toNat) := by
  have hrefused : serveWrite x.toNat y.toNat data { s with e := s.e.wrap 0x2003 9 1 } =
      { s with e := (s.e.wrap 0x2003 9 1).refuse code } := by
    rw [serveWrite, Engine.writeCode_counted, hcode]
    exact if_pos hne
  have hdawn : 7 ≤ ((s.e.wrap 0x2003 9 1).refuse code).dawnStep := by
    refine (Engine.dawnStep_usdoSilent hheard).trans_eq (Eq.symm ?_)
    exact Engine.get_put_other _ (by decide) (by decide) (by decide)
  rw [Becomes, exec_usdoRequest, hop,
    usdoServe_heard (t := { s with e := (s.e.wrap 0x2003 9 1).refuse code }) hlive hidle hheard (by rw [if_pos rfl, hrefused]) hdawn]

theorem dictionaryStoreAndUsdo : Says.DictionaryStoreAndUsdo := by
  rintro s op g x y data r _ hs hidle hr rfl
  obtain ⟨hlive, hserving⟩ := hs
  refine ⟨?_, ?_, ?_, ?_, ?_, ?_, errorListClear_serves ⟨hlive, hserving⟩⟩
  · intro hsilent
    rw [Becomes, exec_usdoRequest, usdoServe_silent hlive hidle hsilent]
  · intro hheard hop hdawn
    rw [Becomes, exec_usdoRequest, usdoServe_heard (t := { s with e := r }) hlive hidle hheard (by rw [if_neg hop, hr]) hdawn]
    rfl
  · intro hheard hop hcode
    have hport : (s.e.wrap 0x2003 9 1).get 0x5000 0x0D = s.e.get 0x5000 0x0D :=
      Engine.get_put_other _ (by decide) (by decide) (by decide)
    refine (usdoRequest_refused hlive hidle hheard hop rfl hcode).completes ⟨?_, Engine.get_put_same _ _ _ _, ?_⟩
    · dsimp only
      rw [Engine.answerUsdo, Engine.send_out, Engine.get_refuse, hport]
      rfl
    · exact fun j hj => (Engine.ent_put _ _ _ _ _).trans (if_neg hj)
  · intro v ok hgroup
    rw [Refuses, Becomes, Refuses, Becomes, exec_dictionaryStore g v ok ⟨hlive, hserving⟩,
      exec_dictionaryRestore g v ok ⟨hlive, hserving⟩, storeDict_group hgroup, storeDict_group hgroup]
    exact ⟨rfl, rfl⟩
  · intro hlow hhigh hpart hflash hstage
    have hfree : s.e.StoreFree := ⟨hpart, hflash, hstage⟩
    refine ⟨?_, ?_, ?_, ?_⟩
    · intro v ok hword
      rw [Refuses, Becomes, exec_dictionaryStore g v ok ⟨hlive, hserving⟩, storeDict_wrongWord hlow hhigh hfree hword]
      rfl
    · intro v ok hword
      rw [Refuses, Becomes, exec_dictionaryRestore g v ok ⟨hlive, hserving⟩, storeDict_wrongWord hlow hhigh hfree hword]
      rfl
    · intro q bs hcopy hroom
      exact ⟨dictionaryStore_completes ⟨hlive, hserving⟩ hlow hhigh hfree hcopy hroom,
        dictionaryStore_failed ⟨hlive, hserving⟩ hlow hhigh hfree hcopy hroom⟩
    · exact fun q bs hcopy hroom => dictionaryRestore_completes ⟨hlive, hserving⟩ hlow hhigh hfree hcopy hroom
  · intro v hv
    have hclear := errorListClear_becomes v ⟨hlive, hserving⟩
    rwa [s.e.clearErrors_refused hv] at hclear

/-- Settles O58: the checks of a write in their order, the effect of one that passes, USDO, the store and the error list. -/
theorem dictionaryAccess : Obligations.DictionaryAccess := ⟨dictionaryWrites, dictionaryStoreAndUsdo⟩

end Sys2Proof.Machine

/-! DMA channels (R61-R69): START, STOP, DOORBELL and RESET, descriptors, bursts and chains. -/

namespace Sys2Proof.Machine

theorem Completes.imp {c : Instr} {s : State} {P Q : State → Prop} (h : Completes c s P) (himp : ∀ t, P t → Q t) :
    Completes c s Q := by
  obtain ⟨t, hexec, ht⟩ := h
  exact ⟨t, hexec, himp t ht⟩

/-! An engine with one channel set -/

section ChannelSet

variable {a b : Engine} {d : Nat} {x : Dma} {c : Instr} {s : State}

/-- Engine `b` is `a` but for DMA channel `d`, which is `x`. -/
def Engine.ChannelSet (a b : Engine) (d : Nat) (x : Dma) : Prop :=
  b.dma d = x ∧ (∀ j, j ≠ d → b.dma j = a.dma j) ∧ ∃ chans, b = { a with host.dma := chans }

theorem Engine.ChannelSet.setDma (a : Engine) (d : Nat) (x : Dma) : a.ChannelSet (a.setDma d x) d x :=
  ⟨by simp, fun j hj => by simp [hj], _, rfl⟩

/-- Of several writes to one channel the last stands. -/
theorem Engine.ChannelSet.again (h : a.ChannelSet b d x) (y : Dma) : a.ChannelSet (b.setDma d y) d y := by
  obtain ⟨-, hother, chans, rfl⟩ := h
  exact ⟨by simp, fun j hj => by simpa [hj] using hother j hj, _, rfl⟩

theorem Becomes.setsDma (h : Becomes c s b) (hb : a.ChannelSet b d x) : SetsDma c s a d x := by
  obtain ⟨hchan, hother, chans, rfl⟩ := hb
  exact h.completes ⟨hchan, hother, rfl⟩

/-- A command that sets a channel and sends for bytes of the host. -/
theorem Becomes.setsDma_sends {o : Output} (h : Becomes c s (b.send o)) (hb : a.ChannelSet b d x) :
    Completes c s (fun t => t.e.dma d = x ∧ t.e.out = o :: a.out ∧ (∀ j, j ≠ d → t.e.dma j = a.dma j) ∧
      t = { s with e := { a with host.dma := t.e.host.dma, out := t.e.out } }) := by
  obtain ⟨hchan, hother, chans, rfl⟩ := hb
  exact h.completes ⟨hchan, rfl, hother, rfl⟩

end ChannelSet

/-! The steps that channel commands share -/

section ChannelSteps

variable (e : Engine) (d : Nat)

/-- R76: a channel whose interrupts are off signals no vector. -/
theorem Engine.dmaIrq_disabled (was : Bool) (h : (e.dma d).irqEn = false) : e.dmaIrq d was = e := by
  simp [Engine.dmaIrq, h]

theorem Engine.dmaError_quiet (code addr : Nat) (h : (e.dma d).irqEn = false) :
    e.dmaError d code addr = e.setDma d { e.dma d with
      st := .error, errorEvt := true, errCode := code, errAddr := addr, waiting := false, fetching := none,
      rereading := false } :=
  Engine.dmaIrq_disabled _ d _ (by simp [h])

theorem Engine.dmaStopped_quiet (h : (e.dma d).irqEn = false) :
    e.dmaStopped d = e.setDma d { e.dma d with
      st := .stopped, stoppedEvt := true, fetching := none, rereading := false, dbPending := false, waiting := false,
      exec := none } :=
  Engine.dmaIrq_disabled _ d _ (by simp [h])

theorem Engine.dmaAtEnd_quiet (h : (e.dma d).irqEn = false) :
    e.dmaAtEnd d = e.setDma d { e.dma d with st := .atEnd, atEndEvt := true, rereading := false } :=
  Engine.dmaIrq_disabled _ d _ (by simp [h])

theorem Engine.dmaFetch_aligned {a : Nat} (h : a % 32 = 0) :
    e.dmaFetch d a =
      (e.setDma d { e.dma d with st := .running, fetching := some a, rereading := false }).send (.hostRead a 32) :=
  if_neg (not_not.mpr h)

end ChannelSteps

/-! Copy descriptors: CTRL 0 (R62) -/

section Copies

variable (e : Engine) (d : Nat) {desc : Desc}

theorem Desc.kind_copy (h : desc.ctrl = 0) : desc.kind = 0 := by simp [Desc.kind, h, bits]

theorem Desc.toHost_copy (h : desc.ctrl = 0) : desc.toHost = false := by simp [Desc.toHost, h, bit]

theorem Desc.irq_copy (h : desc.ctrl = 0) : desc.irq = false := by simp [Desc.irq, h, bit]

theorem Desc.fin_copy (h : desc.ctrl = 0) : desc.fin = false := by simp [Desc.fin, h, bit]

/-- R65: a copy within usable DRAM is legal. -/
theorem Engine.descError_copy (hctrl : desc.ctrl = 0) (hroom : desc.dst + desc.count ≤ e.mem.usable) :
    e.descError d desc = none := by
  simp [Engine.descError, Desc.kind_copy hctrl, Desc.toHost_copy hctrl, hctrl, bit, Engine.inDram, hroom]

theorem Engine.dmaExec_copy (hctrl : desc.ctrl = 0) :
    e.dmaExec d desc = e.setDma d { e.dma d with
      exec := some desc, remain := desc.count, fetching := none, waiting := false } := by
  simp [Engine.dmaExec, Desc.kind_copy hctrl]

end Copies

/-! START (R63) -/

section Start

variable (e : Engine) (d : Nat)

/-- The descriptor that the registers of a channel give (R63). -/
def Dma.registerDesc (x : Dma) : Desc := { src := x.src, dst := x.dst, count := x.count, ctrl := x.mode % 2 ^ 31, next := 0 }

theorem Dma.registerDesc_copy {x : Dma} (hmode : x.mode = 0) :
    x.registerDesc = { src := x.src, dst := x.dst, count := x.count, ctrl := 0, next := 0 } := by
  simp [Dma.registerDesc, hmode]

theorem Engine.dmaGo_chain (hst : (e.dma d).st = .idle ∨ (e.dma d).st = .stopped) (hchain : (e.dma d).chain = true)
    (halign : (e.dma d).desc % 32 = 0) : ∃ b : Engine, e.dmaGo d = b.send (.hostRead (e.dma d).desc 32) ∧
      e.ChannelSet b d { e.dma d with
        st := .running, doneCount := 0, dbPending := false, direct := false, rereading := false,
        fetching := some (e.dma d).desc } := by
  rw [Engine.dmaGo, if_pos hst, if_pos hchain, Engine.dmaFetch_aligned _ _ halign]
  refine ⟨_, rfl, ?_⟩
  simpa [hchain] using (Engine.ChannelSet.setDma e d _).again _

/-- R63: a legal register descriptor is executed at once. -/
theorem Engine.dmaGo_legal (hst : (e.dma d).st = .idle ∨ (e.dma d).st = .stopped) (hchain : (e.dma d).chain = false)
    (hlegal : e.descError d (e.dma d).registerDesc = none) :
    ∃ b : Engine, e.dmaGo d = b.dmaExec d (e.dma d).registerDesc ∧ e.ChannelSet b d { e.dma d with
      st := .running, doneCount := 0, dbPending := false, direct := true, cur := 0 } := by
  have hsame (x : Dma) : (e.setDma d x).descError d (e.dma d).registerDesc = none := hlegal
  refine ⟨_, ?_, .setDma e d _⟩
  simp only [Dma.registerDesc] at hsame ⊢
  simp only [Engine.dmaGo, if_pos hst, hchain, Bool.false_eq_true, if_false, Bool.not_false, hsame]

theorem Engine.dmaGo_direct (hst : (e.dma d).st = .idle ∨ (e.dma d).st = .stopped) (hchain : (e.dma d).chain = false)
    (hmode : (e.dma d).mode = 0) (hroom : (e.dma d).dst + (e.dma d).count ≤ e.mem.usable) :
    e.ChannelSet (e.dmaGo d) d { e.dma d with
      st := .running, doneCount := 0, dbPending := false, direct := true, cur := 0, fetching := none, waiting := false,
      remain := (e.dma d).count, exec := some (e.dma d).registerDesc } := by
  have hctrl : (e.dma d).registerDesc.ctrl = 0 := by rw [Dma.registerDesc_copy hmode]
  obtain ⟨b, hgo, hset⟩ := e.dmaGo_legal d hst hchain (e.descError_copy d hctrl hroom)
  rw [hgo, b.dmaExec_copy d hctrl, hset.1]
  exact hset.again _

theorem Engine.dmaGo_ignored (hidle : (e.dma d).st ≠ .idle) (hstopped : (e.dma d).st ≠ .stopped) :
    e.dmaGo d = e.setDma d { e.dma d with startIgnored := true } :=
  if_neg (not_or.mpr ⟨hidle, hstopped⟩)

end Start

/-! The completion of a descriptor (R64, R66, R67) -/

section Completion

variable (e : Engine) (d : Nat) {desc : Desc}

/-- A channel whose descriptor, one without an interrupt, has been executed. -/
def Dma.completed (x : Dma) : Dma := { x with exec := none, doneCount := (x.doneCount + 1) % 2 ^ 32 }

/-- R64: what follows the end of a running channel's descriptor. -/
theorem Engine.dmaComplete_running (hexec : (e.dma d).exec = some desc) (hremain : (e.dma d).remain = 0)
    (hst : (e.dma d).st = .running) (hirq : desc.irq = false) :
    e.dmaComplete d =
      let b := e.setDma d (e.dma d).completed
      if (e.dma d).direct then b.setDma d { b.dma d with st := .idle }
      else if desc.fin then (if (e.dma d).dbPending then b.dmaReread d else b.dmaAtEnd d)
      else b.dmaFetch d desc.next := by
  have hgo : ¬ ((e.dma d).remain ≠ 0 ∨ ((e.dma d).st ≠ .running ∧ (e.dma d).st ≠ .stopping)) := by simp [hremain, hst]
  have hrun : ¬ (e.dma d).st = .stopping := by simp [hst]
  simp only [Engine.dmaComplete, hexec, if_neg hgo, hirq, Bool.or_false, Bool.false_eq_true, if_false, if_neg hrun,
    Dma.completed]

theorem Engine.dmaComplete_direct (hexec : (e.dma d).exec = some desc) (hremain : (e.dma d).remain = 0)
    (hst : (e.dma d).st = .running) (hirq : desc.irq = false) (hdirect : (e.dma d).direct = true) :
    e.ChannelSet (e.dmaComplete d) d { (e.dma d).completed with st := .idle } := by
  rw [e.dmaComplete_running d hexec hremain hst hirq, if_pos hdirect]
  simpa using (Engine.ChannelSet.setDma e d (e.dma d).completed).again _

theorem Engine.dmaComplete_follows (hexec : (e.dma d).exec = some desc) (hremain : (e.dma d).remain = 0)
    (hst : (e.dma d).st = .running) (hirq : desc.irq = false) (hdirect : (e.dma d).direct = false)
    (hfin : desc.fin = false) (halign : desc.next % 32 = 0) :
    ∃ b : Engine, e.dmaComplete d = b.send (.hostRead desc.next 32) ∧
      e.ChannelSet b d { (e.dma d).completed with st := .running, fetching := some desc.next, rereading := false } := by
  rw [e.dmaComplete_running d hexec hremain hst hirq, hdirect, hfin]
  refine ⟨_, Engine.dmaFetch_aligned _ d halign, ?_⟩
  simpa using (Engine.ChannelSet.setDma e d (e.dma d).completed).again _

theorem Engine.dmaComplete_parks (hexec : (e.dma d).exec = some desc) (hremain : (e.dma d).remain = 0)
    (hst : (e.dma d).st = .running) (hirq : desc.irq = false) (hdirect : (e.dma d).direct = false)
    (hfin : desc.fin = true) (hbell : (e.dma d).dbPending = false) (hquiet : (e.dma d).irqEn = false) :
    e.ChannelSet (e.dmaComplete d) d { (e.dma d).completed with st := .atEnd, atEndEvt := true, rereading := false } := by
  rw [e.dmaComplete_running d hexec hremain hst hirq, hdirect, hfin, hbell]
  dsimp only
  rw [if_neg Bool.false_ne_true, if_pos rfl, if_neg Bool.false_ne_true,
    Engine.dmaAtEnd_quiet _ d (by simp [Dma.completed, hquiet])]
  simpa using (Engine.ChannelSet.setDma e d (e.dma d).completed).again _

theorem descriptorComplete_becomes {s : State} (d : Fin 32) (hlive : s.e.live = true) :
    Becomes (.descriptorComplete d) s (s.e.dmaComplete d.val) :=
  becomes_of_whenLive (f := fun e => e.dmaComplete d.val) rfl hlive

end Completion

/-- Settles O9: START by the channel's state and by its mode, and the end of a direct transfer. -/
theorem dmaStartRuns : Obligations.DmaStartRuns := by
  rintro s _ d hlive rfl
  have hstart : Becomes (.dmaStart d) s ((s.e.wake 1).dmaGo d.val) :=
    becomes_of_whenLive (f := fun e => (e.wake 1).dmaGo d.val) rfl hlive
  refine ⟨?_, ?_, ?_, ?_⟩
  · intro hst hchain halign
    obtain ⟨b, hgo, hset⟩ := (s.e.wake 1).dmaGo_chain d.val hst hchain halign
    rw [hgo] at hstart
    exact hstart.setsDma_sends hset
  · intro hst hchain hmode hroom
    have hset := (s.e.wake 1).dmaGo_direct d.val hst hchain hmode hroom
    rw [Dma.registerDesc_copy hmode] at hset
    exact hstart.setsDma hset
  · intro hidle hstopped
    rw [Engine.dmaGo_ignored _ _ hidle hstopped] at hstart
    exact hstart.setsDma (.setDma _ _ _)
  · intro desc hexec hremain hst hdirect hctrl
    obtain ⟨hchan, -, -⟩ := s.e.dmaComplete_direct d.val hexec hremain hst (Desc.irq_copy hctrl) hdirect
    refine (descriptorComplete_becomes d hlive).completes ?_
    dsimp only
    rw [hchan]
    exact ⟨rfl, rfl⟩

end Sys2Proof.Machine

/-! DMA channels, continued: stops, doorbells, descriptor reads, bursts and chains. -/

namespace Sys2Proof.Machine

/-! STOP, DOORBELL and RESET (R61, R66, R67) -/

section Control

variable (e : Engine) (d : Nat)

theorem Engine.dmaHalt_executing (hst : (e.dma d).st = .running) (hfetch : (e.dma d).fetching = none)
    (hread : (e.dma d).rereading = false) : e.dmaHalt d = e.setDma d { e.dma d with st := .stopping } := by
  simp [Engine.dmaHalt, hst, hfetch, hread]

theorem Engine.dmaHalt_atEnd (hst : (e.dma d).st = .atEnd) : e.dmaHalt d = e.dmaStopped d := by
  simp [Engine.dmaHalt, hst]

theorem Engine.dmaBell_running (hst : (e.dma d).st = .running) :
    e.dmaBell d = e.setDma d { e.dma d with dbPending := true } := by
  simp [Engine.dmaBell, hst]

theorem Engine.dmaBell_atEnd (hst : (e.dma d).st = .atEnd) (hread : (e.dma d).rereading = false) :
    e.dmaBell d = e.dmaReread d := by
  simp [Engine.dmaBell, hst, hread]

theorem Engine.dmaClear_over (hst : (e.dma d).st = .error ∨ (e.dma d).st = .stopped) :
    e.dmaClear d = e.setDma d { e.dma d with
      st := .idle, dbPending := false, waiting := false, done := false, atEndEvt := false, stoppedEvt := false,
      errorEvt := false, errCode := 0, startIgnored := false, exec := none } :=
  if_pos hst

theorem Engine.dmaClear_ignored (herror : (e.dma d).st ≠ .error) (hstopped : (e.dma d).st ≠ .stopped) : e.dmaClear d = e :=
  if_neg (not_or.mpr ⟨herror, hstopped⟩)

end Control

theorem dmaStopDoorbellReset : Says.DmaStopDoorbellReset := by
  rintro s _ d hlive rfl
  have hstop : Becomes (.dmaStop d) s ((s.e.wake 1).dmaHalt d.val) :=
    becomes_of_whenLive (f := fun e => (e.wake 1).dmaHalt d.val) rfl hlive
  have hbell : Becomes (.dmaDoorbell d) s ((s.e.wake 1).dmaBell d.val) :=
    becomes_of_whenLive (f := fun e => (e.wake 1).dmaBell d.val) rfl hlive
  have hreset : Becomes (.dmaReset d) s ((s.e.wake 1).dmaClear d.val) :=
    becomes_of_whenLive (f := fun e => (e.wake 1).dmaClear d.val) rfl hlive
  refine ⟨?_, ?_, ?_, ?_, ?_, ?_⟩
  · intro hst hfetch hread
    rw [Engine.dmaHalt_executing _ _ hst hfetch hread] at hstop
    exact hstop.setsDma (.setDma _ _ _)
  · intro hst hquiet
    rw [Engine.dmaHalt_atEnd _ _ hst, Engine.dmaStopped_quiet _ _ hquiet] at hstop
    exact hstop.setsDma (.setDma _ _ _)
  · intro hst
    rw [Engine.dmaBell_running _ _ hst] at hbell
    exact hbell.setsDma (.setDma _ _ _)
  · intro hst hread
    rw [Engine.dmaBell_atEnd _ _ hst hread] at hbell
    exact hbell.setsDma_sends (.setDma _ _ _)
  · intro hst
    rw [Engine.dmaClear_over _ _ hst] at hreset
    exact hreset.setsDma (.setDma _ _ _)
  · intro herror hstopped
    rwa [Engine.dmaClear_ignored _ _ herror hstopped] at hreset

/-! Descriptor reads and bursts (R62, R64, R65) -/

section Reads

variable (e : Engine) (d : Nat) {a : Nat} {desc : Desc}

theorem Engine.dmaFetched_fails (hfetch : (e.dma d).fetching = some a) (hquiet : (e.dma d).irqEn = false) :
    e.ChannelSet (e.dmaFetched d none) d { e.dma d with
      st := .error, errorEvt := true, errCode := 1, errAddr := a, cur := a, waiting := false, fetching := none,
      rereading := false } := by
  have hfails : e.dmaFetched d none = (e.setDma d { e.dma d with cur := a, fetching := none }).dmaError d 1 a := by
    simp only [Engine.dmaFetched, hfetch]
  rw [hfails, Engine.dmaError_quiet _ d 1 a (by simp [hquiet])]
  simpa using (Engine.ChannelSet.setDma e d _).again _

theorem Engine.dmaFetched_copy {bs : List Byte} (hfetch : (e.dma d).fetching = some a) (hctrl : (parseDesc bs).ctrl = 0)
    (hroom : (parseDesc bs).dst + (parseDesc bs).count ≤ e.mem.usable) :
    e.ChannelSet (e.dmaFetched d (some bs)) d { e.dma d with
      cur := a, fetching := none, exec := some (parseDesc bs), remain := (parseDesc bs).count, waiting := false } := by
  have hlegal (x : Dma) : (e.setDma d x).descError d (parseDesc bs) = none := e.descError_copy d hctrl hroom
  have hbegins : e.dmaFetched d (some bs) =
      (e.setDma d { e.dma d with cur := a, fetching := none }).dmaExec d (parseDesc bs) := by
    simp only [Engine.dmaFetched, hfetch, hlegal]
  rw [hbegins, Engine.dmaExec_copy _ d hctrl]
  simpa using (Engine.ChannelSet.setDma e d _).again _

/-- R270: a store that touches no BAD line in part is the write alone. -/
theorem Engine.dramStore_whole {bs : List Byte} (h : e.badPartial a bs.length = none) :
    e.dramStore a bs = e.dramWrite a bs := by
  simp only [Engine.dramStore, h]

/-- R64: a burst of a copy stores its bytes where the descriptor stands. -/
theorem Engine.dmaBurst_copy {data : List Byte} (late : Nat) (hexec : (e.dma d).exec = some desc) (hctrl : desc.ctrl = 0)
    (hburst : data.length ≤ 4096) (hleft : data.length ≤ (e.dma d).remain) (hcount : (e.dma d).remain ≤ desc.count)
    (hwhole : e.badPartial (desc.dst + (desc.count - (e.dma d).remain)) data.length = none) :
    e.dmaBurst d data late .ok = (e.setDma d { e.dma d with remain := (e.dma d).remain - data.length }).dramWrite
      (desc.dst + (desc.count - (e.dma d).remain)) data := by
  have hlen : min data.length (burstLen (e.dma d).remain) = data.length := by
    rw [burstLen]
    omega
  have hremain : desc.count - (desc.count - (e.dma d).remain) - data.length = (e.dma d).remain - data.length := by omega
  have hwhole' (x : Dma) : (e.setDma d x).badPartial (desc.dst + (desc.count - (e.dma d).remain)) data.length = none := hwhole
  simp only [Engine.dmaBurst, hexec, hlen, Desc.kind_copy hctrl, Engine.dmaMove, Desc.toHost_copy hctrl, hremain,
    List.take_length]
  exact Engine.dramStore_whole _ (hwhole' _)

/-- R64, R69: the bursts of channels 0 to 31 move the bytes of descriptors, those of the others are internal. -/
theorem dmaBurstComplete_becomes {s : State} (d : Fin 36) (data : List Byte) (late : Nat) (status : BurstStatus)
    (hlive : s.e.live = true) : Becomes (.dmaBurstComplete d data late status) s
      (if d.val < 32 then s.e.dmaBurst d.val data late status else s.e.internalBurst d.val late) :=
  becomes_of_whenLive
    (f := fun e => if d.val < 32 then e.dmaBurst d.val data late status else e.internalBurst d.val late) rfl hlive

end Reads

theorem dmaDescriptorFlow : Says.DmaDescriptorFlow := by
  intro s d hlive
  have hread (reply : Option (List Byte)) : Becomes (.descriptorFetch d reply) s (s.e.dmaFetched d.val reply) :=
    becomes_of_whenLive (f := fun e => e.dmaFetched d.val reply) rfl hlive
  refine ⟨?_, ?_, ?_, ?_⟩
  · intro a hfetch hquiet
    exact (hread none).setsDma (s.e.dmaFetched_fails d.val hfetch hquiet)
  · intro a bs hfetch hctrl hroom
    exact (hread (some bs)).setsDma (s.e.dmaFetched_copy d.val hfetch hctrl hroom)
  · intro desc data late hexec hctrl hburst hleft hcount hwhole
    have hmoved := dmaBurstComplete_becomes (d.castLE (by omega)) data late .ok hlive
    rw [Fin.val_castLE, if_pos d.isLt, s.e.dmaBurst_copy d.val late hexec hctrl hburst hleft hcount hwhole] at hmoved
    obtain ⟨hchan, hother, -⟩ :=
      Engine.ChannelSet.setDma s.e d.val { s.e.dma d.val with remain := (s.e.dma d.val).remain - data.length }
    exact hmoved.completes ⟨congrArg Dma.remain hchan, (congrArg Dma.exec hchan).trans hexec, rfl, hother⟩
  · intro desc hexec hremain hst hdirect hctrl
    have hset := s.e.dmaComplete_direct d.val hexec hremain hst (Desc.irq_copy hctrl) hdirect
    exact (descriptorComplete_becomes d hlive).setsDma hset

/-! Re-reads of the tail, internal channels, withdrawn requests (R67-R69) -/

section Returns

variable (e : Engine) (d : Nat)

/-- A bit tested as the model tests it. -/
theorem bit_eq_testBit (v i : Nat) : bit v i = v.testBit i := by
  rw [bit, Nat.testBit_eq_decide_div_mod_eq, Nat.shiftRight_eq_div_pow]
  rfl

/-- R67: a re-read that shows END again leaves a parked channel parked. -/
theorem Engine.dmaReread2_end {bs : List Byte} (hread : (e.dma d).rereading = true) (hst : (e.dma d).st = .atEnd)
    (hbell : (e.dma d).dbPending = false) (hend : (le (bs.take 4)).testBit 31 = true) :
    e.dmaReread2 d (some bs) = e.setDma d { e.dma d with rereading := false } := by
  simp [Engine.dmaReread2, hread, bit_eq_testBit, hend, hbell, hst]

/-- R67: a re-read that shows a NEXT follows it. -/
theorem Engine.dmaReread2_next {bs : List Byte} (hread : (e.dma d).rereading = true)
    (hend : (le (bs.take 4)).testBit 31 = false) (halign : le ((bs.drop 4).take 8) % 32 = 0) :
    ∃ b : Engine, e.dmaReread2 d (some bs) = b.send (.hostRead (le ((bs.drop 4).take 8)) 32) ∧
      e.ChannelSet b d { e.dma d with
        st := .running, fetching := some (le ((bs.drop 4).take 8)), rereading := false } := by
  have hfollows : e.dmaReread2 d (some bs) =
      (e.setDma d { e.dma d with rereading := false }).dmaFetch d (le ((bs.drop 4).take 8)) := by
    simp [Engine.dmaReread2, hread, bit_eq_testBit, hend]
  rw [hfollows]
  refine ⟨_, Engine.dmaFetch_aligned _ d halign, ?_⟩
  simpa using (Engine.ChannelSet.setDma e d _).again _

/-- R69: of a burst on channel 32 or 33 only its surplus shows. -/
theorem Engine.internalBurst_controller (late : Nat) (h : d < 34) :
    e.internalBurst d late = e.setDma d { e.dma d with surplus := min (2 ^ 32 - 1) ((e.dma d).surplus + late) } :=
  if_pos h

theorem Engine.dmaRequestBack_idle (h : (e.dma d).exec = none) :
    e.dmaRequestBack d = e.setDma d { e.dma d with waiting := false } := by
  simp only [Engine.dmaRequestBack, h]

theorem Engine.dmaRequestBack_intake {desc : Desc} (hexec : (e.dma d).exec = some desc)
    (hopen : e.ctxState (desc.dst % 256) = 1) (hready : e.intakeReady (desc.dst % 256) (e.dma d).remain = true) :
    e.dmaRequestBack d = e.setDma d { e.dma d with waiting := false } := by
  simp [Engine.dmaRequestBack, hexec, hopen, hready]

end Returns

/-- R64, R67: what follows the completion of a chained descriptor. -/
theorem descriptorComplete_chains {s : State} {d : Fin 32} {desc : Desc} (hlive : s.e.live = true)
    (hexec : (s.e.dma d.val).exec = some desc) (hremain : (s.e.dma d.val).remain = 0) (hst : (s.e.dma d.val).st = .running)
    (hdirect : (s.e.dma d.val).direct = false) :
    (desc.ctrl = 0 → desc.next % 32 = 0 →
      Completes (.descriptorComplete d) s (fun t =>
        t.e.dma d.val = { (s.e.dma d.val).completed with st := .running, fetching := some desc.next, rereading := false } ∧
        t.e.out = .hostRead desc.next 32 :: s.e.out ∧ (∀ j, j ≠ d.val → t.e.dma j = s.e.dma j) ∧
        t = { s with e := { s.e with host.dma := t.e.host.dma, out := t.e.out } })) ∧
    (desc.ctrl = 2 ^ 31 → (s.e.dma d.val).dbPending = false → (s.e.dma d.val).irqEn = false →
      SetsDma (.descriptorComplete d) s s.e d.val
        { (s.e.dma d.val).completed with st := .atEnd, atEndEvt := true, rereading := false }) := by
  have hdone := descriptorComplete_becomes d hlive
  refine ⟨fun hctrl halign => ?_, fun hctrl hbell hquiet => ?_⟩
  · obtain ⟨b, hfollows, hset⟩ := s.e.dmaComplete_follows d.val hexec hremain hst (Desc.irq_copy hctrl) hdirect
      (Desc.fin_copy hctrl) halign
    rw [hfollows] at hdone
    exact hdone.setsDma_sends hset
  · have hirq : desc.irq = false := by rw [Desc.irq, hctrl]; rfl
    have hfin : desc.fin = true := by rw [Desc.fin, hctrl]; rfl
    exact hdone.setsDma (s.e.dmaComplete_parks d.val hexec hremain hst hirq hdirect hfin hbell hquiet)

theorem dmaChainFollows : Says.DmaChainFollows := by
  intro s d hlive
  have hreread (c : Fin 32) (bs : List Byte) :
      Becomes (.doorbellReread c (some bs)) s (s.e.dmaReread2 c.val (some bs)) :=
    becomes_of_whenLive (f := fun e => e.dmaReread2 c.val (some bs)) rfl hlive
  have hback : Becomes (.peripheralRequestReturn d) s (s.e.dmaRequestBack d.val) :=
    becomes_of_whenLive (f := fun e => e.dmaRequestBack d.val) rfl hlive
  refine ⟨?_, ?_, ?_, ?_, ?_, ?_, ?_⟩
  · intro c desc hexec hremain hst hdirect hctrl halign
    refine ((descriptorComplete_chains hlive hexec hremain hst hdirect).1 hctrl halign).imp ?_
    rintro t ⟨hchan, hout, hother, hframe⟩
    rw [hchan]
    exact ⟨rfl, rfl, rfl, hout, hother, hframe⟩
  · intro c desc hexec hremain hst hdirect hbell hquiet hctrl
    refine ((descriptorComplete_chains hlive hexec hremain hst hdirect).2 hctrl hbell hquiet).imp ?_
    rintro t ⟨hchan, hother, hframe⟩
    rw [hchan]
    exact ⟨rfl, rfl, hother, hframe⟩
  · intro c bs hread hst hbell hend
    have hparked := hreread c bs
    rw [s.e.dmaReread2_end c.val hread hst hbell hend] at hparked
    exact hparked.setsDma (.setDma _ _ _)
  · intro c bs hread hend halign
    obtain ⟨b, hfollows, hset⟩ := s.e.dmaReread2_next c.val hread hend halign
    have hnext := hreread c bs
    rw [hfollows] at hnext
    refine (hnext.setsDma_sends hset).imp ?_
    rintro t ⟨hchan, -, hother, -⟩
    rw [hchan]
    exact ⟨rfl, rfl, hother⟩
  · intro data late st hlow hhigh
    have hburst := dmaBurstComplete_becomes d data late st hlive
    rw [if_neg (Nat.not_lt.mpr hlow), s.e.internalBurst_controller d.val late hhigh] at hburst
    exact hburst.setsDma (.setDma _ _ _)
  · intro hexec
    rw [s.e.dmaRequestBack_idle d.val hexec] at hback
    exact hback.setsDma (.setDma _ _ _)
  · intro desc hexec _ hopen hready
    rw [s.e.dmaRequestBack_intake d.val hexec hopen hready] at hback
    exact hback.setsDma (.setDma _ _ _)

/-- Settles O10: the channel that each command and each event leaves, by the state it finds. -/
theorem dmaCommandsAndDescriptors : Obligations.DmaCommandsAndDescriptors :=
  ⟨dmaStopDoorbellReset, dmaDescriptorFlow, dmaChainFollows⟩

end Sys2Proof.Machine

/-! Engine DRAM read back after a write (R59, R269, R270), and BAR2. -/

namespace Sys2Proof.Machine

/-! Sparse stores and intervals, read after several writes -/

section Stores

theorem cellGet_cellErase {α : Type} (d : Nat → α) (m : List (Nat × α)) (k j : Nat) :
    cellGet d (cellErase k m) j = if j = k then d j else cellGet d m j := by
  unfold cellGet
  rw [cellFind_erase]
  split_ifs <;> rfl

theorem cellGet_eraseAll {α : Type} (d : Nat → α) (ls : List Nat) (m : List (Nat × α)) (j : Nat) :
    cellGet d (ls.foldl (fun w l => cellErase l w) m) j = if j ∈ ls then d j else cellGet d m j := by
  induction ls generalizing m with
  | nil => simp
  | cons l ls ih =>
    rw [List.foldl_cons, ih, cellGet_cellErase]
    by_cases hmem : j ∈ ls <;> by_cases hj : j = l <;> simp [hmem, hj]

/-- Bytes stored from `a` on read back there, and every other byte is what it was. -/
theorem cellGet_setBytes (d : Nat → Byte) (bs : List Byte) (a : Nat) (m : List (Nat × Byte)) (j : Nat) :
    cellGet d (cellSetAll d (bytePairs a bs) m) j =
      if a ≤ j ∧ j < a + bs.length then bs.getD (j - a) 0 else cellGet d m j := by
  induction bs generalizing a m with
  | nil =>
    rw [if_neg (by simp)]
    rfl
  | cons b bs ih =>
    rw [bytePairs, cellSetAll, ih, cellGet_cellSet, List.length_cons]
    by_cases hlater : a + 1 ≤ j ∧ j < a + 1 + bs.length
    · obtain ⟨i, rfl⟩ : ∃ i, j = a + 1 + i := ⟨j - (a + 1), by omega⟩
      rw [if_pos hlater, if_pos (by omega), show a + 1 + i - (a + 1) = i by omega, show a + 1 + i - a = i + 1 by omega,
        List.getD_cons_succ]
    · rw [if_neg hlater]
      by_cases hfirst : j = a
      · rw [if_pos hfirst, if_pos (by omega), hfirst, Nat.sub_self, List.getD_cons_zero]
      · rw [if_neg hfirst, if_neg (by omega)]

theorem spanMem_spanAdd (k lo hi : Nat) (m : List (Nat × Nat)) :
    spanMem k (spanAdd lo hi m) = true ↔ (lo ≤ k ∧ k < hi) ∨ spanMem k m = true := by
  induction m generalizing lo hi with
  | nil =>
    rw [spanAdd]
    split_ifs with h
    · simp [spanMem]
    · simp [spanMem]
      omega
  | cons p r ih =>
    obtain ⟨a, b⟩ := p
    rw [spanAdd]
    split_ifs with hempty hbefore hafter
    · have hnone : ¬ (lo ≤ k ∧ k < hi) := by omega
      simp [hnone]
    · simp [spanMem]
    · simp only [spanMem, Bool.or_eq_true, ih, Bool.and_eq_true, decide_eq_true_eq]
      tauto
    · have hjoin : (min lo a ≤ k ∧ k < max hi b) ↔ (lo ≤ k ∧ k < hi) ∨ (a ≤ k ∧ k < b) := by omega
      simp only [spanMem, Bool.or_eq_true, ih, Bool.and_eq_true, decide_eq_true_eq, hjoin, or_assoc]

theorem spanMem_addLines (k : Nat) (ls : List Nat) (m : List (Nat × Nat)) :
    spanMem k (ls.foldl (fun w l => spanAdd l (l + 1) w) m) = true ↔ k ∈ ls ∨ spanMem k m = true := by
  induction ls generalizing m with
  | nil => simp
  | cons l ls ih =>
    have hline : (l ≤ k ∧ k < l + 1) ↔ k = l := by omega
    rw [List.foldl_cons, ih, spanMem_spanAdd, hline, List.mem_cons]
    tauto

theorem filter_eq_nil_of_firstIdx {p : Nat → Bool} {ls : List Nat} (h : firstIdx p ls = none) : ls.filter p = [] := by
  induction ls with
  | nil => rfl
  | cons l ls ih =>
    rw [firstIdx] at h
    split_ifs at h with hl
    rw [List.filter_cons_of_neg hl, ih h]

end Stores

/-! A write that touches no BAD line in part (R270) -/

section Writes

variable (e : Engine) {a : Nat} {bs : List Byte}

theorem Engine.dramWrite_whole (h : e.badPartial a bs.length = none) :
    e.dramWrite a bs = { e.bump 0x4001 0x0B 0 with
      mem.bytes := cellSetAll (fun _ => 0) (bytePairs a bs) e.mem.bytes
      mem.written := (linesOf a bs.length).foldl (fun w l => spanAdd l (l + 1) w) e.mem.written
      mem.bad := (linesOf a bs.length).foldl (fun w l => cellErase l w) e.mem.bad } := by
  rw [Engine.dramWrite, filter_eq_nil_of_firstIdx h]
  simp

theorem Engine.dramByte_write (h : e.badPartial a bs.length = none) (j : Nat) :
    (e.dramWrite a bs).dramByte j = if a ≤ j ∧ j < a + bs.length then bs.getD (j - a) 0 else e.dramByte j := by
  rw [e.dramWrite_whole h]
  exact cellGet_setBytes _ bs a e.mem.bytes j

theorem Engine.lineOk_write (h : e.badPartial a bs.length = none) {l : Nat} (hl : l ∈ linesOf a bs.length) :
    (e.dramWrite a bs).lineOk l = true := by
  rw [e.dramWrite_whole h, Engine.lineOk, Bool.and_eq_true, spanMem_addLines, cellGet_eraseAll, if_pos hl]
  exact ⟨.inl hl, rfl⟩

theorem Engine.host_dramWrite : (e.dramWrite a bs).host = e.host := rfl

end Writes

/-! BAR2 (R59) -/

section Bar2

variable (e : Engine) {a n : Nat}

theorem Engine.bar2_beyond (write : Bool) (data : List Byte) (h : e.inDram a n = false) :
    e.bar2 write a n data = e.bar2Refuse 1 := by
  simp [Engine.bar2, h]

theorem Engine.bar2_reaches (hin : e.inDram a n = true) (hroom : a + n ≤ 2 ^ 36) :
    ¬ (2 ^ 36 < a + n ∨ (!e.inDram a n) = true) := by
  simpa [hin] using hroom

theorem Engine.bar2_read (data : List Byte) (hserving : e.dramServing = true) (hin : e.inDram a n = true)
    (hroom : a + n ≤ 2 ^ 36) :
    e.bar2 false a n data = if e.busError a n = none then
        e.send (.bar2 0 ((List.range n).map (fun i => e.dramByte (a + i)))) else e.bar2Refuse 2 := by
  rw [Engine.bar2, if_neg (e.bar2_reaches hin hroom), hserving, Engine.dramRead]
  cases e.busError a n <;> rfl

theorem Engine.bar2_write {data : List Byte} (hserving : e.dramServing = true) (hin : e.inDram a n = true)
    (hroom : a + n ≤ 2 ^ 36) (hwhole : e.badPartial a data.length = none) :
    e.bar2 true a n data = e.dramWrite a data := by
  rw [Engine.bar2, if_neg (e.bar2_reaches hin hroom), if_pos rfl, hserving, if_neg (by simp), e.dramStore_whole hwhole]

end Bar2

theorem bar2Accesses : Says.Bar2Accesses := by
  rintro s _ a n data hlive rfl
  have haccess (write : Bool) (data : List Byte) :
      Becomes (.bar2Access write a n data) s ((s.e.wake 2).bar2 write a.toNat n data) :=
    becomes_of_whenLive (f := fun e => (e.wake 2).bar2 write a.toNat n data) rfl hlive
  refine ⟨?_, ?_, ?_, ?_⟩
  · intro hserving hin hroom hdata
    have hread := haccess false []
    rwa [Engine.bar2_read _ _ hserving hin hroom, if_pos hdata] at hread
  · intro hout
    have hread := haccess false data
    rwa [Engine.bar2_beyond _ _ _ hout] at hread
  · intro hserving hin hroom herror
    have hread := haccess false data
    rwa [Engine.bar2_read _ _ hserving hin hroom, if_neg herror] at hread
  · rintro hserving hin hroom rfl hwhole
    have hwrite := haccess true data
    rw [Engine.bar2_write _ hserving hin hroom hwhole] at hwrite
    refine hwrite.completes ⟨?_, ?_, fun l hl => Engine.lineOk_write _ hwhole hl, rfl⟩
    · intro i hi
      dsimp only
      rw [Engine.dramByte_write _ hwhole, if_pos (by omega), Nat.add_sub_cancel_left]
    · intro b hb
      dsimp only
      rw [Engine.dramByte_write _ hwhole, if_neg (by omega)]

/-- R57, R353: the events of the link, each with its own effect. -/
theorem pcieLink : Says.PcieLink := by
  intro s hlive
  have hlink (ev : LinkEvent) : Becomes (.pcieLinkEvent ev) s (s.e.linkEvent ev) :=
    becomes_of_whenLive (f := fun e => e.linkEvent ev) rfl hlive
  refine ⟨hlink .l1Exit, hlink .l1Entry, ?_, ?_, fun speed width => hlink (.trained speed width)⟩
  · intro d3 hchange
    have hstate := hlink (.dState d3)
    rwa [Engine.linkEvent, if_neg hchange] at hstate
  · intro d3 hsame
    have hstate := hlink (.dState d3)
    rwa [Engine.linkEvent, if_pos hsame] at hstate

/-- Settles O13: a BAR2 access by where it reaches and what the lines hold, and the link event by event. -/
theorem hostBusAccesses : Obligations.HostBusAccesses := ⟨bar2Accesses, pcieLink⟩

end Sys2Proof.Machine

/-! Stream contexts as commanded (R71, R74). -/

namespace Sys2Proof.Machine

/-! Entries and contexts after the operations that a context command ends with -/

section ContextEffects

variable (e : Engine)

/-- What an engine with the same supply path holds of a context. -/
theorem Engine.ctx_of_sup {a b : Engine} (h : a.sup = b.sup) (c : Nat) : a.ctx c = b.ctx c := by
  simp [Engine.ctx, h]

@[simp] theorem Engine.ctx_done (c : Nat) : e.done.ctx c = e.ctx c := rfl
@[simp] theorem Engine.ent_done (k : Nat) : e.done.ent k = e.ent k := rfl

theorem Engine.ctx_publishFrontier (c : Nat) : e.publishFrontier.ctx c = e.ctx c :=
  Engine.ctx_of_sup (e.put_sup _ _ _) c

theorem Engine.ent_publishFrontier (k : Nat) (hk : k ≠ 0x240007) : e.publishFrontier.ent k = e.ent k :=
  (Engine.ent_put e 0x2400 7 _ k).trans (if_neg hk)

/-- The entries of the contexts stand below 2400h. -/
theorem Engine.get_publishFrontier {i : Nat} (hi : i < 0x2400) {j : Nat} (hj : j < 256) :
    e.publishFrontier.get i j = e.get i j :=
  Engine.get_put_other _ (by decide) hj (by omega)

theorem Engine.ctx_settleChangeover (b c : Nat) : (e.settleChangeover b).ctx c = e.ctx c := by
  rw [Engine.settleChangeover]
  split_ifs <;> rfl

theorem Engine.get_settleChangeover (b : Nat) {i : Nat} (hi : i < 0x2400) {j : Nat} (hj : j < 256) :
    (e.settleChangeover b).get i j = e.get i j := by
  rw [Engine.settleChangeover]
  split_ifs
  · exact Engine.get_put_other _ (by decide) hj (by omega)
  · rfl

@[simp] theorem Engine.get_setCtx (c : Nat) (x : Ctx) (i j : Nat) : (e.setCtx c x).get i j = e.get i j := rfl

theorem Engine.EntriesOnly.trans {a b x : Engine} (h : a.EntriesOnly b) (h' : b.EntriesOnly x) : a.EntriesOnly x := by
  obtain ⟨dict, rfl⟩ := h
  obtain ⟨dict', rfl⟩ := h'
  exact ⟨_, rfl⟩

theorem Engine.EntriesOnly.publishFrontier {a b : Engine} (h : a.EntriesOnly b) : a.EntriesOnly b.publishFrontier :=
  h.put 0x2400 7 _

/-- What a request that writes entries and is answered as done leaves. -/
theorem Engine.EntriesOnly.done_eq {a b : Engine} (h : a.EntriesOnly b) :
    b.done = { a with d.dict := b.done.d.dict, sdo := 0, sdoData := [] } := by
  obtain ⟨dict, rfl⟩ := h
  rfl

/-- The same for one that sets a context too. -/
theorem Engine.EntriesOnly.done_eq_setCtx {a b : Engine} {c : Nat} {x : Ctx} (h : (a.setCtx c x).EntriesOnly b) :
    b.done = { a with d.dict := b.done.d.dict, sup.ctxs := b.done.sup.ctxs, sdo := 0, sdoData := [] } := by
  obtain ⟨dict, rfl⟩ := h
  rfl

end ContextEffects

/-! Open, close, abort, retry -/

section ContextCommands

variable (e : Engine) {c : Nat}

theorem Engine.openCtx_notClosed (h : e.ctxState c ≠ 0) : e.openCtx c = e.refuse abState := if_pos h

theorem Engine.openCtx_inconsistent (hclosed : e.ctxState c = 0) (h : e.openRefused c = true) :
    e.openCtx c = e.refuse abValue := by
  simp [Engine.openCtx, hclosed, h]

/-- The entries that an open clears: blocks and rows complete, the resume offset, the fault cause and the counters. -/
def contextCounters : List Nat := [0x0C, 0x0D, 0x0E, 0x0F, 0x10, 0x11]

/-- R71: a context that begins is Open and empty. -/
def Engine.beginCtx (e : Engine) (c : Nat) : Engine :=
  contextCounters.foldl (fun e sub => e.put (ctxIdx c) sub 0) ((e.setCtx c {}).put (ctxIdx c) 2 1)

theorem Engine.openCtx_begins (hclosed : e.ctxState c = 0) (h : e.openRefused c = false) :
    e.openCtx c = (e.beginCtx c).publishFrontier.done := by
  rw [Engine.openCtx, if_neg (not_not.mpr hclosed), h]
  rfl

theorem Engine.beginCtx_entriesOnly : (e.setCtx c {}).EntriesOnly (e.beginCtx c) :=
  ((Engine.EntriesOnly.refl _).put (ctxIdx c) 2 1).trans (.zeroAll _ _ _)

theorem Engine.ctx_beginCtx (j : Nat) : (e.beginCtx c).ctx j = if j = c then {} else e.ctx j :=
  (Engine.ctx_of_sup (a := e.beginCtx c) (b := e.setCtx c {}) rfl j).trans (e.ctx_setCtx c j {})

theorem Engine.ent_beginCtx (k : Nat) : (e.beginCtx c).ent k =
    if k ∈ contextCounters.map (ekey (ctxIdx c)) then 0 else if k = ekey (ctxIdx c) 2 then 1 else e.ent k := by
  rw [Engine.beginCtx, Engine.ent_zeroAll, Engine.ent_put]
  rfl

theorem Engine.ctxState_beginCtx : (e.beginCtx c).ctxState c = 1 := by
  rw [Engine.ctxState, Engine.get, Engine.ent_beginCtx, if_neg (by simp [contextCounters]), if_pos rfl]

theorem Engine.get_beginCtx_counter {sub : Nat} (hlow : 0x0C ≤ sub) (hhigh : sub ≤ 0x11) :
    (e.beginCtx c).get (ctxIdx c) sub = 0 := by
  have hcounter : sub ∈ contextCounters := by
    interval_cases sub <;> decide
  rw [Engine.get, Engine.ent_beginCtx, if_pos (List.mem_map_of_mem hcounter)]

theorem Engine.ent_beginCtx_other {k : Nat} (hk : k / 256 ≠ 0x2300 + c) : (e.beginCtx c).ent k = e.ent k := by
  have hne (sub : Nat) (hsub : sub < 256) : k ≠ ekey (ctxIdx c) sub := by
    rintro rfl
    exact hk (by unfold ekey ctxIdx; omega)
  have hcounter : k ∉ contextCounters.map (ekey (ctxIdx c)) := by
    simp [contextCounters, hne]
  rw [Engine.ent_beginCtx, if_neg hcounter, if_neg (hne 2 (by decide))]

/-- A context that is left is Closed, and nothing is kept of it. -/
theorem Engine.leaveCtx_closes (hc : c < 256) : (e.leaveCtx c).ctxState c = 0 ∧ (e.leaveCtx c).ctx c = {} := by
  have hidx : ctxIdx c < 0x2400 := by unfold ctxIdx; omega
  rw [Engine.leaveCtx, Engine.ctxState]
  refine ⟨?_, ?_⟩
  · rw [Engine.get_publishFrontier _ hidx (by decide), Engine.get_settleChangeover _ _ hidx (by decide), Engine.get_setCtx,
      Engine.get_put_same]
  · rw [Engine.ctx_publishFrontier, Engine.ctx_settleChangeover, Engine.ctx_setCtx, if_pos rfl]

theorem Engine.closeCommand_accepted
    (h : e.ctxState c = 2 ∨ e.ctxState c = 3 ∨ (e.ctxState c = 1 ∧ (e.ctx c).wpos = (e.ctx c).rpos)) :
    e.closeCommand c = (e.closeCtx c).done :=
  if_pos h

theorem Engine.closeCommand_refused
    (h : ¬ (e.ctxState c = 2 ∨ e.ctxState c = 3 ∨ (e.ctxState c = 1 ∧ (e.ctx c).wpos = (e.ctx c).rpos))) :
    e.closeCommand c = e.refuse abState :=
  if_neg h

/-- Closing leaves the context once its rows are screened and its block dropped. -/
theorem Engine.closeCtx_leaves : ∃ x : Engine, e.closeCtx c = x.leaveCtx c := ⟨_, rfl⟩

theorem Engine.abortCtx_leaves (h : e.ctxState c ≠ 0) : e.abortCtx c = (e.dropEngine c).leaveCtx c := if_neg h

theorem Engine.retryCtx_refused (h : e.ctxState c ≠ 3) : e.retryCtx c = e.refuse abState := if_pos h

/-- R74: a context whose LAST block has not passed is Open again, and that is all. -/
theorem Engine.retryCtx_reopens (h : e.ctxState c = 3) (hlast : (e.ctx c).lastPassed = false) :
    e.retryCtx c = (e.put (ctxIdx c) 2 1).publishFrontier.done := by
  have hstate : (e.put (ctxIdx c) 2 1).ctxState c = 1 := Engine.get_put_same _ _ _ _
  have hpassed : ((e.put (ctxIdx c) 2 1).ctx c).lastPassed = false := hlast
  have hend : (e.put (ctxIdx c) 2 1).ctxEnd c = e.put (ctxIdx c) 2 1 := by simp [Engine.ctxEnd, hpassed]
  have hafter : (e.put (ctxIdx c) 2 1).afterEnd c = e.put (ctxIdx c) 2 1 := by simp [Engine.afterEnd, hstate]
  rw [Engine.retryCtx, if_neg (not_not.mpr h), hend, hafter]

end ContextCommands

/-- R71: what an open leaves. -/
theorem contextOpen_completes {s : State} {c : Fin 256} (hopen : Becomes (.contextOpen c) s (s.e.openCtx c.val))
    (hclosed : s.e.ctxState c.val = 0) (h : s.e.openRefused c.val = false) :
    Completes (.contextOpen c) s (fun t =>
      t.e.ctxState c.val = 1 ∧ t.e.ctx c.val = {} ∧
      (∀ sub, 0x0C ≤ sub → sub ≤ 0x11 → t.e.get (0x2300 + c.val) sub = 0) ∧
      (∀ k, k ≠ 0x240007 → k / 256 ≠ 0x2300 + c.val → t.e.ent k = s.e.ent k) ∧
      (∀ j, j ≠ c.val → t.e.ctx j = s.e.ctx j) ∧
      t = { s with e := { s.e with d.dict := t.e.d.dict, sup.ctxs := t.e.sup.ctxs, sdo := 0, sdoData := [] } }) := by
  have hidx : ctxIdx c.val < 0x2400 := by unfold ctxIdx; omega
  rw [s.e.openCtx_begins hclosed h] at hopen
  have hframe := (s.e.beginCtx_entriesOnly (c := c.val)).publishFrontier.done_eq_setCtx
  refine hopen.completes ⟨?_, ?_, ?_, ?_, ?_, congrArg (fun e => { s with e := e }) hframe⟩
  · exact (Engine.get_done _ _ _).trans <| (Engine.get_publishFrontier _ hidx (by decide)).trans s.e.ctxState_beginCtx
  · exact (Engine.ctx_done _ _).trans <| (Engine.ctx_publishFrontier _ _).trans <| (s.e.ctx_beginCtx _).trans (if_pos rfl)
  · intro sub hlow hhigh
    exact (Engine.get_done _ _ _).trans <| (Engine.get_publishFrontier _ hidx (by omega)).trans <|
      s.e.get_beginCtx_counter hlow hhigh
  · intro k hk hother
    exact (Engine.ent_done _ k).trans <| (Engine.ent_publishFrontier _ k hk).trans (s.e.ent_beginCtx_other hother)
  · intro j hj
    exact (Engine.ctx_done _ _).trans <| (Engine.ctx_publishFrontier _ _).trans <| (s.e.ctx_beginCtx j).trans (if_neg hj)

/-- Settles O19: each command by the state of its context. -/
theorem contextCommands : Obligations.ContextCommands := by
  intro s c hs
  have hopen : Becomes (.contextOpen c) s (s.e.openCtx c.val) :=
    becomes_of_request (idx := 0x2300) (f := fun e => e.openCtx c.val) rfl hs
  have hclose : Becomes (.contextClose c) s (s.e.closeCommand c.val) :=
    becomes_of_request (idx := 0x2300) (f := fun e => e.closeCommand c.val) rfl hs
  have habort : Becomes (.contextAbort c) s
      (if s.e.ctxState c.val = 0 then s.e.refuse abState else (s.e.abortCtx c.val).done) :=
    becomes_of_request (idx := 0x2300)
      (f := fun e => if e.ctxState c.val = 0 then e.refuse abState else (e.abortCtx c.val).done) rfl hs
  have hretry : Becomes (.contextRetry c) s (s.e.retryCtx c.val) :=
    becomes_of_request (idx := 0x2300) (f := fun e => e.retryCtx c.val) rfl hs
  refine ⟨?_, ?_, contextOpen_completes hopen, ?_, ?_, ?_, ?_, ?_, ?_, ?_⟩
  · intro hstate
    rwa [s.e.openCtx_notClosed hstate] at hopen
  · intro hclosed hbad
    rwa [s.e.openCtx_inconsistent hclosed hbad] at hopen
  · intro hclosed
    rwa [s.e.closeCommand_refused (by simp [hclosed])] at hclose
  · intro hstate hring
    rwa [s.e.closeCommand_refused (by simp [hstate, hring])] at hclose
  · intro hstate
    obtain ⟨x, hleaves⟩ := s.e.closeCtx_leaves (c := c.val)
    obtain ⟨hclosed, hempty⟩ := x.leaveCtx_closes c.isLt
    rw [s.e.closeCommand_accepted hstate, hleaves] at hclose
    exact hclose.completes ⟨(Engine.get_done _ _ _).trans hclosed, (Engine.ctx_done _ _).trans hempty, rfl, rfl, rfl⟩
  · intro hclosed
    rwa [if_pos hclosed] at habort
  · intro hstate
    obtain ⟨hclosed, hempty⟩ := (s.e.dropEngine c.val).leaveCtx_closes c.isLt
    rw [if_neg hstate, s.e.abortCtx_leaves hstate] at habort
    exact habort.completes ⟨(Engine.get_done _ _ _).trans hclosed, (Engine.ctx_done _ _).trans hempty, rfl, rfl, rfl⟩
  · intro hstate
    rwa [s.e.retryCtx_refused hstate] at hretry
  · intro hstate hlast
    have hidx : ctxIdx c.val < 0x2400 := by unfold ctxIdx; omega
    rw [s.e.retryCtx_reopens hstate hlast] at hretry
    have hframe := ((Engine.EntriesOnly.refl s.e).put (ctxIdx c.val) 2 1).publishFrontier.done_eq
    refine hretry.completes ⟨?_, ?_, congrArg (fun e => { s with e := e }) hframe⟩
    · exact (Engine.get_done _ _ _).trans <| (Engine.get_publishFrontier _ hidx (by decide)).trans (Engine.get_put_same _ _ _ _)
    · intro k hk hkey
      exact (Engine.ent_done _ k).trans <| (Engine.ent_publishFrontier _ k hk).trans <|
        (Engine.ent_put _ _ _ _ k).trans (if_neg hkey)

end Sys2Proof.Machine

/-! Decode engines (R73, R89-R91): taking a block, ending it, going on after a stall. -/

namespace Sys2Proof.Machine

section Decode

variable (e : Engine) {j c : Nat} {d : DecEng}

@[simp] theorem Engine.decEng_setCtx (x : Ctx) (i : Nat) : (e.setCtx c x).decEng i = e.decEng i := rfl

/-! Taking a block (R73, R112) -/

theorem Engine.blockTake_waits (h : e.supplyRuns = false) : e.blockTake = e := by
  simp [Engine.blockTake, h]

/-- What an engine takes from context `c`: its oldest block, stalled where its output does not fit behind what lane `j` holds
(R91). -/
def Engine.takenBlock (e : Engine) (j c : Nat) : DecEng :=
  { ctx := c, block := (e.ctx c).blocks.headD {}
    stalled := if 98304 < e.buffered j + e.rawLenAt c ((e.ctx c).blocks.headD {}).off then some e.now else none }

theorem Engine.blockTake_takes (hruns : e.supplyRuns = true)
    (hfree : firstIdx (fun j => (e.decEng j).isNone) (List.range 16) = some j)
    (hnext : firstIdx e.eligible ((List.range 256).map (fun k => (e.sup.served + 1 + k) % 256)) = some c) :
    e.blockTake = (Engine.setDecEng { e with sup.served := c } j (some (e.takenBlock j c))).setCtx c
      { e.ctx c with lane := j } := by
  simp [Engine.blockTake, hruns, hfree, hnext, Engine.takenBlock]

/-! The end of a block (R87-R89) -/

section SetDecEng

variable (x : Option DecEng)

@[simp] theorem Engine.get_setDecEng (i k : Nat) : (e.setDecEng j x).get i k = e.get i k := rfl
@[simp] theorem Engine.ctx_setDecEng (i : Nat) : (e.setDecEng j x).ctx i = e.ctx i := rfl
@[simp] theorem Engine.lineOk_setDecEng (l : Nat) : (e.setDecEng j x).lineOk l = e.lineOk l := rfl
@[simp] theorem Engine.ringAddr_setDecEng (o : Nat) : (e.setDecEng j x).ringAddr c o = e.ringAddr c o := rfl
@[simp] theorem Engine.ringBytes_setDecEng (o n : Nat) : (e.setDecEng j x).ringBytes c o n = e.ringBytes c o n := rfl

end SetDecEng

theorem Engine.blockComplete_idle (poisoned : Bool) (h : e.decEng j = none) : e.blockComplete j poisoned = e := by
  simp [Engine.blockComplete, h]

/-- R89: a block whose ring bytes can all be read and which decodes is checked by its CRC. -/
theorem Engine.blockComplete_decoded {h : BlockHeader} {hist : List Byte} {produced : Nat} (hdec : e.decEng j = some d)
    (hstall : d.stalled = none) (hh : h = parseHeader (e.ringBytes d.ctx d.block.off 16))
    (hlines : ∀ i, i < d.block.len → e.lineOk (e.ringAddr d.ctx (d.block.off + i) / 64) = true)
    (hok : decodeBlock (e.get (ctxIdx d.ctx) 9) h (e.ringBytes d.ctx (d.block.off + 16) h.coded) (e.ctx d.ctx).hist
      (e.ctx d.ctx).produced = .ok hist produced) :
    e.blockComplete j false =
      if crc32c ((hist.take h.raw).reverse) ≠ h.crc then (e.setDecEng j none).crcFault d.ctx d.block.off
      else (e.setDecEng j none).commitBlock d.ctx d.block h hist produced := by
  have hread : (List.range d.block.len).any (fun i => !e.lineOk (e.ringAddr d.ctx (d.block.off + i) / 64)) = false := by
    simpa using hlines
  rw [hh] at hok ⊢
  simp only [Engine.blockComplete, hdec, hstall, Option.isSome_none, Bool.false_eq_true, if_false, Engine.ringBytes_setDecEng,
    Engine.lineOk_setDecEng, Engine.ringAddr_setDecEng, Engine.get_setDecEng, Engine.ctx_setDecEng, hread, or_self, hok]

/-- R80, R81, R89: a block without FLUSH, LAST or a record adds its bytes to its context and frees its ring space. -/
theorem Engine.commitBlock_plain (b : RingBlock) {h : BlockHeader} {hist : List Byte} {produced : Nat} (hflags : h.flags = 0)
    (hpad : (e.ctx c).skipPad = 0) :
    e.commitBlock c b h hist produced = (e.setCtx c { e.ctx c with
      rpos := b.off + b.len, blocks := (e.ctx c).blocks.tail, hist := hist.take 16384, produced := produced,
      checked := (e.ctx c).checked ++ (hist.take h.raw).reverse }).wrap (ctxIdx c) 0x0C 1 := by
  simp [Engine.commitBlock, hflags, hpad, bit]

/-! Going on after a stall (R91) -/

theorem Engine.decodeResume_goesOn {t : Nat} (hdec : e.decEng j = some d) (hstall : d.stalled = some t)
    (hroom : e.buffered j + e.rawLenAt d.ctx d.block.off ≤ 98304) :
    e.decodeResume j = (e.bump 0x2472 6 (32 * (e.now - t))).setDecEng j (some { d with stalled := none }) := by
  have hbase (n : Nat) : (e.bump 0x2472 6 n).get (ctxIdx d.ctx) 0x0A = e.get (ctxIdx d.ctx) 0x0A :=
    Engine.get_put_other _ (by decide) (by decide) (by omega)
  have hsize (n : Nat) : (e.bump 0x2472 6 n).get (ctxIdx d.ctx) 0x0B = e.get (ctxIdx d.ctx) 0x0B :=
    Engine.get_put_other _ (by decide) (by decide) (by omega)
  have hring (n o k : Nat) : (e.bump 0x2472 6 n).ringBytes d.ctx o k = e.ringBytes d.ctx o k := by
    simp only [Engine.ringBytes, Engine.ringAddr, hbase, hsize]
    rfl
  have hraw (n : Nat) : (e.bump 0x2472 6 n).rawLenAt d.ctx d.block.off = e.rawLenAt d.ctx d.block.off := by
    rw [Engine.rawLenAt, hring, Engine.rawLenAt]
  have hbuffered (n : Nat) : (e.bump 0x2472 6 n).buffered j = e.buffered j := rfl
  have hfits : ¬ 98304 < e.buffered j + e.rawLenAt d.ctx d.block.off := Nat.not_lt.mpr hroom
  simp only [Engine.decodeResume, hdec, hstall, hbuffered, hraw, hfits, decide_false, Bool.false_eq_true, if_false]

end Decode

/-- R73: what a take leaves. -/
theorem decodeBlockTake_completes {s : State} {j c : Nat} (hlive : s.e.live = true) (hruns : s.e.supplyRuns = true)
    (hfree : firstIdx (fun j => (s.e.decEng j).isNone) (List.range 16) = some j)
    (hnext : firstIdx s.e.eligible ((List.range 256).map (fun k => (s.e.sup.served + 1 + k) % 256)) = some c) :
    Completes .decodeBlockTake s (fun t => t.e.decEng j = some (s.e.takenBlock j c) ∧ t.e.sup.served = c ∧
      (∀ i, i ≠ j → t.e.decEng i = s.e.decEng i) ∧ t = { s with e := { s.e with sup := t.e.sup } }) := by
  have htake : Becomes .decodeBlockTake s s.e.blockTake := becomes_of_whenLive rfl hlive
  rw [s.e.blockTake_takes hruns hfree hnext] at htake
  refine htake.completes ⟨?_, rfl, fun i hi => ?_, rfl⟩
  · rw [Engine.decEng_setCtx, Engine.decEng_setDecEng, if_pos rfl]
  · rw [Engine.decEng_setCtx, Engine.decEng_setDecEng, if_neg hi]
    rfl

/-- Settles O20: a take by what is free and eligible, the end of a block by its CRC, and the end of a stall. -/
theorem decodeBlocks : Obligations.DecodeBlocks := by
  intro s hlive
  have hcomplete (j : Fin 16) (p : Bool) : Becomes (.decodeBlockComplete j p) s (s.e.blockComplete j.val p) :=
    becomes_of_whenLive (f := fun e => e.blockComplete j.val p) rfl hlive
  refine ⟨?_, ?_, ?_, ?_, ?_, ?_⟩
  · intro hruns
    have htake : Becomes .decodeBlockTake s s.e.blockTake := becomes_of_whenLive rfl hlive
    rwa [s.e.blockTake_waits hruns] at htake
  · intro j c hruns hfree hnext
    refine (decodeBlockTake_completes hlive hruns hfree hnext).imp ?_
    rintro t ⟨htaken, hserved, hother, hframe⟩
    exact ⟨_, htaken, rfl, rfl, hserved, hother, hframe⟩
  · intro j p hfree
    have hidle := hcomplete j p
    rwa [s.e.blockComplete_idle p hfree] at hidle
  · rintro j d _ h hist produced hdec hstall rfl hh hlines hok hcrc hflags hpad
    have hpadded : ((s.e.setDecEng j.val none).ctx d.ctx).skipPad = 0 := hpad
    have hcommit := hcomplete j false
    rw [s.e.blockComplete_decoded hdec hstall hh hlines hok, if_neg (not_not.mpr hcrc),
      Engine.commitBlock_plain _ _ hflags hpadded] at hcommit
    refine hcommit.completes ⟨?_, ?_, fun k hk => ?_, rfl⟩
    · exact (s.e.decEng_setDecEng j.val j.val none).trans (if_pos rfl)
    · exact (Engine.ctx_of_sup (Engine.put_sup _ _ _ _) _).trans ((Engine.ctx_setCtx _ _ _ _).trans (if_pos rfl))
    · exact (Engine.ent_put _ _ _ _ k).trans (if_neg hk)
  · rintro j d _ h hist produced hdec hstall rfl hh hlines hok hcrc
    have hfault := hcomplete j false
    rwa [s.e.blockComplete_decoded hdec hstall hh hlines hok, if_pos hcrc] at hfault
  · intro j d t0 hdec hstall hroom
    have hresume : Becomes (.decodeResume j) s (s.e.decodeResume j.val) :=
      becomes_of_whenLive (f := fun e => e.decodeResume j.val) rfl hlive
    rw [s.e.decodeResume_goesOn hdec hstall hroom] at hresume
    refine hresume.completes ⟨?_, ?_, fun k hk => ?_, fun i hi => ?_⟩
    · exact (Engine.decEng_setDecEng _ _ _ _).trans (if_pos rfl)
    · exact Engine.get_put_same _ _ _ _
    · exact (Engine.ent_put _ _ _ _ k).trans (if_neg hk)
    · exact (Engine.decEng_setDecEng _ _ _ _).trans (if_neg hi)

end Sys2Proof.Machine

/-! The proof encoder (R104-R107, R109): arm, end, cancel, the read offset, and a block that does not end its unit. -/

namespace Sys2Proof.Machine

/-! The encoder as commanded -/

section ProofCommands

variable (e : Engine)

theorem Engine.proofArm_busy (hlow : 1 ≤ e.get 0x2471 2) (hhigh : e.get 0x2471 2 ≤ 3) : e.proofArm = e.refuse abState :=
  if_pos ⟨hlow, hhigh⟩

theorem Engine.proofArm_unfit (hfree : e.get 0x2471 2 = 0 ∨ 3 < e.get 0x2471 2) (h : e.proofRefused = true) :
    e.proofArm = e.refuse abValue := by
  have hidle : ¬ (1 ≤ e.get 0x2471 2 ∧ e.get 0x2471 2 ≤ 3) := by omega
  rw [Engine.proofArm, if_neg hidle, if_pos h]

/-- R106: the engine once a proof is armed, its offsets taken modulo the ring. -/
def Engine.armedProof (e : Engine) : Engine :=
  { ((e.put 0x2471 2 1).put 0x2471 6 (e.get 0x2471 6 % e.get 0x2471 5)).put 0x2471 7 (e.get 0x2471 7 % e.get 0x2471 5) with
      sup.proof := {} }

theorem Engine.proofArm_arms (hfree : e.get 0x2471 2 = 0 ∨ 3 < e.get 0x2471 2) (h : e.proofRefused = false) :
    e.proofArm = e.armedProof.done := by
  have hidle : ¬ (1 ≤ e.get 0x2471 2 ∧ e.get 0x2471 2 ≤ 3) := by omega
  rw [Engine.proofArm, if_neg hidle, h]
  rfl

theorem Engine.ent_armedProof (k : Nat) : e.armedProof.ent k =
    if k = 0x247107 then e.get 0x2471 7 % e.get 0x2471 5 else if k = 0x247106 then e.get 0x2471 6 % e.get 0x2471 5
    else if k = 0x247102 then 1 else e.ent k := by
  refine (Engine.ent_put _ _ _ _ k).trans ?_
  rw [Engine.ent_put, Engine.ent_put]
  rfl

/-- R107: an end command latches for the block in progress. -/
theorem Engine.proofEnd_latches (flush : Bool) (hrun : e.get 0x2471 2 = 2) (hunits : e.sup.proof.units ≠ [])
    (hnone : e.sup.proof.ended = none) : e.proofEnd flush = Engine.done { e with sup.proof.ended := some flush } := by
  simp [Engine.proofEnd, hrun, hunits, hnone]

theorem Engine.proofEnd_idle (flush : Bool) (h : e.get 0x2471 2 = 0) : e.proofEnd flush = e.done := by
  simp [Engine.proofEnd, h]

theorem Engine.proofReadOffset_beyond {v : Nat} (h : e.get 0x2471 5 ≤ v) : e.proofReadOffset v = e.refuse abValue :=
  if_pos (.inl h)

/-- In a ring of `n`, `x` stands `x - r` after `r`. -/
theorem ring_distance {n r x : Nat} (hr : r ≤ x) (hx : x < n) : (x + n - r) % n = x - r := by
  rw [show x + n - r = x - r + n by omega, Nat.add_mod_right, Nat.mod_eq_of_lt (by omega)]

/-- R106: a read offset that moves on below the write offset is stored, and a held encoder runs again. -/
theorem Engine.proofReadOffset_resumes {v : Nat} (hfrom : e.get 0x2471 7 ≤ v) (hto : v ≤ e.get 0x2471 6)
    (hring : e.get 0x2471 6 < e.get 0x2471 5) (hheld : e.get 0x2471 2 = 3) :
    e.proofReadOffset v = ((e.put 0x2471 7 v).put 0x2471 2 2).done := by
  have hwithin : ¬ (e.get 0x2471 5 ≤ v ∨ (e.get 0x2471 6 + e.get 0x2471 5 - e.get 0x2471 7) % e.get 0x2471 5 <
      (v + e.get 0x2471 5 - e.get 0x2471 7) % e.get 0x2471 5) := by
    rw [ring_distance (hfrom.trans hto) hring, ring_distance hfrom (hto.trans_lt hring)]
    omega
  have hstill : (e.put 0x2471 7 v).get 0x2471 2 = 3 :=
    (Engine.get_put_other e (by decide) (by decide) (by decide)).trans hheld
  rw [Engine.proofReadOffset, if_neg hwithin]
  dsimp only
  rw [if_pos hstill]

end ProofCommands

/-! The block that is written (R104-R106) -/

section ProofBlocks

variable (e : Engine)

theorem firstIdx_eq_none {p : Nat → Bool} {ls : List Nat} (h : ∀ l, p l = false) : firstIdx p ls = none := by
  induction ls with
  | nil => rfl
  | cons l ls ih => simp [firstIdx, h l, ih]

theorem Engine.badPartial_noBad (a n : Nat) (h : e.mem.bad = []) : e.badPartial a n = none :=
  firstIdx_eq_none fun l => by simp [h]

theorem foldl_cellErase_nil {α : Type} (ls : List Nat) :
    ls.foldl (fun w l => cellErase l w) ([] : List (Nat × α)) = [] := by
  induction ls with
  | nil => rfl
  | cons l ls ih => exact ih

/-- R270: where no line is BAD, a store leaves none BAD, and of the entries only the counters of 4001h may change. -/
theorem Engine.dramStore_noBad (a : Nat) (bs : List Byte) (h : e.mem.bad = []) : (e.dramStore a bs).mem.bad = [] ∧
    ∀ i j, i ≠ 0x4001 → j < 256 → (e.dramStore a bs).get i j = e.get i j := by
  have hwhole := e.badPartial_noBad a bs.length h
  rw [e.dramStore_whole hwhole, e.dramWrite_whole hwhole, h]
  exact ⟨foldl_cellErase_nil _, fun i j hi hj => Engine.get_put_other e (by decide) hj fun hij => hi hij.1⟩

theorem Engine.proofStore_noBad (o : Nat) (bs : List Byte) (h : e.mem.bad = []) : (e.proofStore o bs).mem.bad = [] ∧
    ∀ i j, i ≠ 0x4001 → j < 256 → (e.proofStore o bs).get i j = e.get i j := by
  induction bs generalizing e o with
  | nil => exact ⟨h, fun _ _ _ _ => rfl⟩
  | cons b bs ih =>
    obtain ⟨hbad, hget⟩ := e.dramStore_noBad (e.get 0x2471 4 + o % e.get 0x2471 5) [b] h
    obtain ⟨hbads, hgets⟩ := ih _ (o + 1) hbad
    exact ⟨hbads, fun i j hi hj => (hgets i j hi hj).trans (hget i j hi hj)⟩

/-- A block in the proof ring: its body is stored before its header. -/
def Engine.ringBlock (e : Engine) (blk : List Byte) : Engine :=
  (e.proofStore (e.get 0x2471 6 + 16) (blk.drop 16)).proofStore (e.get 0x2471 6) (blk.take 16)

theorem Engine.ringBlock_noBad (blk : List Byte) (h : e.mem.bad = []) : (e.ringBlock blk).mem.bad = [] ∧
    ∀ i j, i ≠ 0x4001 → j < 256 → (e.ringBlock blk).get i j = e.get i j := by
  obtain ⟨hbody, hget⟩ := e.proofStore_noBad (e.get 0x2471 6 + 16) (blk.drop 16) h
  obtain ⟨hblock, hgets⟩ := Engine.proofStore_noBad _ (e.get 0x2471 6) (blk.take 16) hbody
  exact ⟨hblock, fun i j hi hj => (hgets i j hi hj).trans (hget i j hi hj)⟩

/-- R106: the entries once a block is in the ring: the write offset behind it, one more block counted, state 2 (running). -/
def Engine.countBlock (e : Engine) (o n : Nat) : Engine :=
  ((e.put 0x2471 6 ((o + n) % e.get 0x2471 5)).wrap 0x2471 9 1).put 0x2471 2 2

theorem Engine.get_countBlock (o n : Nat) :
    (e.countBlock o n).get 0x2471 2 = 2 ∧ (e.countBlock o n).get 0x2471 6 = (o + n) % e.get 0x2471 5 := by
  simp [Engine.countBlock, Engine.wrap, Engine.get_put]

theorem Engine.proofBlockWrite_idle (h : e.sup.proof.units = []) : e.proofBlockWrite = e := by
  simp only [Engine.proofBlockWrite, h]

/-- R104-R106: a running encoder with no end command latched, raw bytes of its unit left beyond the block's and room in its
ring writes the block and goes on behind its bytes. -/
theorem Engine.proofBlockWrite_inUnit {u : ProofUnit} {us : List ProofUnit} {fin : Nat} {blk : List Byte}
    (hunits : e.sup.proof.units = u :: us) (hrun : e.get 0x2471 2 = 2) (hended : e.sup.proof.ended = none)
    (hfin : fin = e.sup.proof.off + e.get 0x2471 8) (hpart : fin < (e.unitBytes u).length) (hsize : 0 < e.get 0x2471 8)
    (hblk : blk = proofBlock u.stream 0 (e.unitBytes u) ((u.width + 3) / 4) e.sup.proof.off fin e.sup.proof.start)
    (hroom : blk.length ≤ e.proofRoom) :
    e.proofBlockWrite = { (Engine.ringBlock { e with freeIdx := e.freeIdx + u.width * u.rows } blk).countBlock
      (e.get 0x2471 6) blk.length with sup.proof := { e.sup.proof with off := fin } } := by
  subst hblk
  have hmost : min (e.unitBytes u).length
      (e.sup.proof.off + Engine.get { e with freeIdx := e.freeIdx + u.width * u.rows } 0x2471 8) = fin :=
    (Nat.min_eq_right (hfin ▸ hpart.le)).trans hfin.symm
  have hmoves : fin ≠ e.sup.proof.off := by omega
  simp only [Engine.proofBlockWrite, hunits, hrun, hended, hmost, hmoves, hpart.ne, Option.isSome_none, reduceCtorEq,
    beq_iff_eq, Bool.false_eq_true, if_false, false_and, decide_false, Bool.false_or, Bool.false_and, ofBool]
  exact if_neg (Nat.not_lt.mpr hroom)

end ProofBlocks

/-- Settles O21: the commands by the state of the encoder, and a block of a unit that goes on. -/
theorem proofEncoder : Obligations.ProofEncoder := by
  intro s hs
  have harm : Becomes .proofArm s s.e.proofArm := becomes_of_request (idx := 0x2471) rfl hs
  have hend : Becomes .proofEndBlock s (s.e.proofEnd false) :=
    becomes_of_request (idx := 0x2471) (f := fun e => e.proofEnd false) rfl hs
  have hflush : Becomes .proofEndBlockFlush s (s.e.proofEnd true) :=
    becomes_of_request (idx := 0x2471) (f := fun e => e.proofEnd true) rfl hs
  have hcancel : Becomes .proofCancel s s.e.proofCancel := becomes_of_request (idx := 0x2471) rfl hs
  have hread (v : BitVec 32) : Becomes (.proofReadOffsetWrite v) s (s.e.proofReadOffset v.toNat) :=
    becomes_of_request (idx := 0x2471) (f := fun e => e.proofReadOffset v.toNat) rfl hs
  have hblock : Becomes .proofBlockWritten s s.e.proofBlockWrite := becomes_of_whenLive rfl hs.1
  refine ⟨?_, ?_, ?_, ?_, ?_, ?_, ?_, ?_, ?_, ?_⟩
  · intro hlow hhigh
    rwa [s.e.proofArm_busy hlow hhigh] at harm
  · intro hfree hbad
    rwa [s.e.proofArm_unfit hfree hbad] at harm
  · intro hfree hgood
    rw [s.e.proofArm_arms hfree hgood] at harm
    have hent := s.e.ent_armedProof
    refine harm.completes ⟨hent _, hent _, hent _, rfl, rfl, fun k hk => ?_⟩
    simp only [List.mem_cons, List.not_mem_nil, or_false, not_or] at hk
    obtain ⟨hstate, hwrite, hread⟩ := hk
    exact (hent k).trans (by rw [if_neg hread, if_neg hwrite, if_neg hstate])
  · intro hrun hunits hnone
    rw [s.e.proofEnd_latches _ hrun hunits hnone] at hend hflush
    exact ⟨hend, hflush⟩
  · intro hidle
    rw [s.e.proofEnd_idle _ hidle] at hend hflush
    exact ⟨hend, hflush⟩
  · exact hcancel.completes ⟨Engine.get_put_same _ _ _ _, rfl, fun k hk => (Engine.ent_put _ _ _ _ k).trans (if_neg hk), rfl⟩
  · intro v hbeyond
    have hrefused := hread v
    rwa [s.e.proofReadOffset_beyond hbeyond] at hrefused
  · intro v _ hfrom hto hring hheld
    have hmoved := hread v
    rw [s.e.proofReadOffset_resumes hfrom hto hring hheld] at hmoved
    refine serves_of_entriesOnly hmoved (((Engine.EntriesOnly.refl _).put _ _ _).put _ _ _) ?_ ?_
    · simp [Engine.ent_put, ekey]
    · intro k hk
      simp only [List.map_cons, List.map_nil, List.mem_cons, List.not_mem_nil, or_false, not_or] at hk
      simp [Engine.ent_put, ekey, hk]
  · intro hnone
    rwa [s.e.proofBlockWrite_idle hnone] at hblock
  · rintro u us _ blk hunits hrun rfl hended hpart hsize hblk hroom hbad
    rw [s.e.proofBlockWrite_inUnit hunits hrun hended rfl hpart hsize hblk hroom] at hblock
    obtain ⟨hbad', hget⟩ := Engine.ringBlock_noBad { s.e with freeIdx := s.e.freeIdx + u.width * u.rows } blk hbad
    obtain ⟨hstate, hoffset⟩ := Engine.get_countBlock _ (s.e.get 0x2471 6) blk.length
    exact hblock.completes ⟨hstate, rfl, hoffset.trans (congrArg _ (hget _ _ (by decide) (by decide))), hbad'⟩

end Sys2Proof.Machine

/-! Fetch and compose deadlines (R162, R163, R99): blocks requested again and accepted, and the lines that a deadline fails. -/

namespace Sys2Proof.Machine

/-! Blocks in the fetch buffer (R163, R99) -/

section Fetch

variable (e : Engine) {b bx y slot : Nat}

/-- A store after the entry of a key is replaced. -/
theorem cellFind_replace {α : Type} (k j : Nat) (v : α) (m : List (Nat × α)) :
    cellFind j (cellInsert k v (cellErase k m)) = if j = k then some v else cellFind j m := by
  rw [cellFind_insert k j v _ ((cellFind_erase k k m).trans (if_pos rfl)), cellFind_erase]
  split_ifs <;> rfl

/-- The engine once the fetch buffer holds `x` for a slot. -/
def Engine.setFetched (e : Engine) (slot : Nat) (x : Fetched) : Engine :=
  { e with path.fetch := cellInsert slot x (cellErase slot e.path.fetch) }

theorem Engine.fetch_setFetched (x : Fetched) (k : Nat) :
    cellFind k (e.setFetched slot x).path.fetch = if k = slot then some x else cellFind k e.path.fetch :=
  cellFind_replace slot k x e.path.fetch

/-- In a transit, a block of the state that a command asks for is due. -/
theorem Engine.fetched_due {x : Fetched} (hflight : e.pan.flight.isSome = true)
    (hfind : cellFind slot e.path.fetch = some x) :
    ¬ (e.pan.flight.isNone = true ∨ cellFind slot e.path.fetch ≠ some x) := by
  simp [hfind, Option.isSome_iff_ne_none.mp hflight]

theorem Engine.tagReread_noFlight (h : e.pan.flight = none) : e.tagReread b bx y = e := by
  simp [Engine.tagReread, h]

theorem Engine.blockAccept_noFlight (h : e.pan.flight = none) : e.blockAccept b bx y = e := by
  simp [Engine.blockAccept, h]

/-- R163: an unwritten block whose tag names a stored form of its generation is requested. -/
theorem Engine.tagReread_requests {w : Nat} (hslot : slot = e.pan.slot b bx y) (hflight : e.pan.flight.isSome = true)
    (hfind : cellFind slot e.path.fetch = some .unwritten) (htag : e.tagOf slot = some w) (hlen : 2 ≤ tagLen w)
    (hgen : tagGen w = e.pan.gen y) : e.tagReread b bx y = e.setFetched slot .requested := by
  subst hslot
  have hstored : ¬ (tagLen w = 0 ∨ tagGen w ≠ e.pan.gen y) := by
    rw [hgen]
    omega
  have hform : tagLen w ≠ 1 := by omega
  rw [Engine.tagReread, if_neg (e.fetched_due hflight hfind)]
  simp only [Engine.requestBlock, hfind, htag, hstored, hform, if_false]
  rfl

/-- R99, R103: the payload of a requested block is accepted or refused by its checks. -/
theorem Engine.blockAccept_checks {bs : List Byte} (hslot : slot = e.pan.slot b bx y) (hflight : e.pan.flight.isSome = true)
    (hfind : cellFind slot e.path.fetch = some .requested)
    (hread : e.dramRead (e.pan.slotAddr slot) (8 * min 128 (tagLen ((e.tagOf slot).getD 0))) = some bs) :
    e.blockAccept b bx y = (acceptBlock ((e.tagOf slot).getD 0) bs).elim
      ((e.bump 0x2470 0x15 1).setFetched slot .refused) (fun l => e.setFetched slot (.accepted l)) := by
  subst hslot
  rw [Engine.blockAccept, if_neg (e.fetched_due hflight hfind)]
  simp only [hread]
  cases acceptBlock ((e.tagOf (e.pan.slot b bx y)).getD 0) bs with
  | none => rfl
  | some l => rfl

end Fetch

theorem fetchBlocks : Says.FetchBlocks := by
  intro s b bx y slot hlive hslot
  have hreread : Becomes (.fetchTagReread b bx y) s (s.e.tagReread b.val bx y) :=
    becomes_of_whenLive (f := fun e => e.tagReread b.val bx y) rfl hlive
  have haccept : Becomes (.fetchBlockAccept b bx y) s (s.e.blockAccept b.val bx y) :=
    becomes_of_whenLive (f := fun e => e.blockAccept b.val bx y) rfl hlive
  refine ⟨?_, ?_, ?_, ?_⟩
  · intro hflight
    rw [s.e.tagReread_noFlight hflight] at hreread
    rw [s.e.blockAccept_noFlight hflight] at haccept
    exact ⟨hreread, haccept⟩
  · intro w hflight hfind htag hlen hgen
    rw [s.e.tagReread_requests hslot hflight hfind htag hlen hgen] at hreread
    have hfetch := s.e.fetch_setFetched (slot := slot) .requested
    exact hreread.completes ⟨(hfetch _).trans (if_pos rfl), fun k hk => (hfetch k).trans (if_neg hk), rfl⟩
  · intro bs l hflight hfind hread hgood
    rw [s.e.blockAccept_checks hslot hflight hfind hread, hgood] at haccept
    have hfetch := s.e.fetch_setFetched (slot := slot) (.accepted l)
    exact haccept.completes ⟨(hfetch _).trans (if_pos rfl), fun k hk => (hfetch k).trans (if_neg hk), rfl⟩
  · intro bs hflight hfind hread hbad
    rw [s.e.blockAccept_checks hslot hflight hfind hread, hbad] at haccept
    refine haccept.completes ⟨?_, Engine.get_put_same _ _ _ _, fun k hk => (Engine.ent_put _ _ _ _ k).trans (if_neg hk)⟩
    exact (Engine.fetch_setFetched _ _ _).trans (if_pos rfl)

/-! The slice-lines of a compose line, one update each -/

section Slices

variable (e : Engine)

/-- The slices of heads `hs`: head and slice. -/
def slicesOf (hs : List Nat) : List (Nat × Nat) := hs.flatMap fun h => (List.range 32).map fun i => (h, i)

theorem mem_slicesOf {hs : List Nat} {p : Nat × Nat} : p ∈ slicesOf hs ↔ p.1 ∈ hs ∧ p.2 < 32 := by
  obtain ⟨h, i⟩ := p
  simp [slicesOf]

/-- Updates of each slice of each head are one list of updates. -/
theorem Engine.each_slices (hs : List Nat) (f : Engine → Nat → Nat → Engine) :
    (e.each hs fun e h => e.each (List.range 32) fun e i => f e h i) = (slicesOf hs).foldl (fun e p => f e p.1 p.2) e := by
  simp [Engine.each, slicesOf, List.foldl_flatMap, List.foldl_map]

/-- What no slice's update changes is what it was after all of them. -/
theorem Engine.each_slices_keeps {α : Type} (g : Engine → α) (hs : List Nat) {f : Engine → Nat → Nat → Engine}
    (h : ∀ e h i, g (f e h i) = g e) : g (e.each hs fun e h => e.each (List.range 32) fun e i => f e h i) = g e :=
  Engine.each_keeps e g _ fun e _ => Engine.each_keeps e g _ fun e _ => h e _ _

/-- Where every update of a list keeps `I` and, under `I`, establishes its own `P` and keeps that of every other, all hold
in the end. -/
theorem foldl_reaches {α β : Type} {I : β → Prop} {P : α → β → Prop} {f : β → α → β} (ps : List α) (x : β) (hI : I x)
    (hstep : ∀ x, I x → ∀ p ∈ ps, I (f x p) ∧ P p (f x p) ∧ ∀ q, P q x → P q (f x p)) :
    ∀ p ∈ ps, P p (ps.foldl f x) := by
  have hreach (qs : List α) (hsub : ∀ p ∈ qs, p ∈ ps) (x : β) (hI : I x) :
      (∀ p ∈ qs, P p (qs.foldl f x)) ∧ ∀ q, P q x → P q (qs.foldl f x) := by
    induction qs generalizing x with
    | nil => exact ⟨fun p hp => absurd hp List.not_mem_nil, fun q hq => hq⟩
    | cons a qs ih =>
      obtain ⟨hI', hown, hothers⟩ := hstep x hI a (hsub a List.mem_cons_self)
      obtain ⟨hrest, hkeep⟩ := ih (fun p hp => hsub p (List.mem_cons_of_mem _ hp)) _ hI'
      refine ⟨fun p hp => ?_, fun q hq => hkeep q (hothers q hq)⟩
      rcases List.mem_cons.mp hp with rfl | hp
      · exact hkeep p hown
      · exact hrest p hp
  exact (hreach ps (fun _ hp => hp) x hI).1

end Slices

/-! The fetch deadline (R163) -/

section FetchDeadline

variable (e : Engine) (f : Flight) (h i : Nat)

/-- What the elements of slice `i` of head `h` lack of compose line `m`. -/
def Engine.sliceLacks (e : Engine) (f : Flight) (h i m : Nat) : List Nat :=
  (List.range 64).map fun k => e.elemLack f h (64 * i + k) m

/-- The cause of a slice-line whose elements lack `ls`; a refused block and a bus error come before a missing block. -/
def lackCause (ls : List Nat) : Nat := if ls.any (fun l => l == 3 || l == 13) then 3 else if ls.contains 4 then 4 else 0

/-- The cause that the slice-line of key `k` fails with, 0 where it lacks nothing. -/
def Engine.causeAt (e : Engine) (f : Flight) (k : Nat) : Nat := lackCause (e.sliceLacks f (k / 32) (k % 32) f.composed)

/-- A slice-line with a bus error and one with a missing block are counted. -/
def Engine.countLacks (e : Engine) (ls : List Nat) : Engine :=
  let e := if ls.contains 13 then e.bump 0x2700 7 1 else e
  if ls.contains 4 then e.bump 0x2700 4 1 else e

/-- The fetch deadline at slice `i` of head `h`. -/
def Engine.cutSlice (e : Engine) (f : Flight) (h i : Nat) : Engine :=
  let ls := e.sliceLacks f h i f.composed
  let three := ls.any (fun l => l == 3 || l == 13)
  let e := e.countLacks ls
  if three ∨ ls.contains 4 then
    { e with path.fails := cellSet (fun _ => 0) e.path.fails (32 * h + i) (if three then 3 else 4) }
  else e

/-- The engine as the fetch deadline of the line in compose begins: no slice-line has failed. -/
def Engine.beginCut (e : Engine) (f : Flight) : Engine := { e with path.cutFor := some f.composed, path.fails := [] }

/-- The slices of the line in compose at its fetch deadline. -/
def Engine.cutLine (e : Engine) (f : Flight) : Engine :=
  (e.beginCut f).each e.storeHeads fun e h => e.each (List.range 32) fun e i => e.cutSlice f h i

/-- The heads whose slices lack nothing meet the deadline (R323). -/
theorem Engine.fetchDeadline_eq : e.fetchDeadline f = (e.cutLine f).each (e.cutLine f).storeHeads fun e h =>
    if (e.head h).serving ∧ (List.range 32).all (fun i => cellGet (fun _ => 0) e.path.fails (32 * h + i) == 0) then
      e.deadlineMet 1 h (e.lineSeq h f.composed)
    else e := rfl

/-- R163: the cause of a slice-line, element by element. -/
theorem Engine.lackCause_sliceLacks (m : Nat) : lackCause (e.sliceLacks f h i m) =
    if (List.range 64).any (fun k => e.elemLack f h (64 * i + k) m == 3 || e.elemLack f h (64 * i + k) m == 13) then 3
    else if (List.range 64).any (fun k => e.elemLack f h (64 * i + k) m == 4) then 4 else 0 := by
  rw [lackCause, ← List.any_beq', Engine.sliceLacks, List.any_map, List.any_map]
  rfl

theorem Engine.causeAt_slice (hi : i < 32) : e.causeAt f (32 * h + i) = lackCause (e.sliceLacks f h i f.composed) := by
  have hhead : (32 * h + i) / 32 = h := by omega
  have hslice : (32 * h + i) % 32 = i := by omega
  rw [Engine.causeAt, hhead, hslice]

theorem Engine.countLacks_entriesOnly (ls : List Nat) : e.EntriesOnly (e.countLacks ls) := by
  simp only [Engine.countLacks]
  split_ifs <;> exact ⟨_, rfl⟩

theorem Engine.ent_countLacks (ls : List Nat) {k : Nat} (hmissing : k ≠ 0x270004) (hbus : k ≠ 0x270007) :
    (e.countLacks ls).ent k = e.ent k := by
  have hbump {x : Engine} (j : Nat) (hk : k ≠ ekey 0x2700 j) : (x.bump 0x2700 j 1).ent k = x.ent k :=
    (Engine.ent_put x _ _ _ k).trans (if_neg hk)
  simp only [Engine.countLacks]
  split_ifs
  · rw [hbump 4 hmissing, hbump 7 hbus]
  · rw [hbump 4 hmissing]
  · rw [hbump 7 hbus]
  · rfl

/-- A slice at the fetch deadline changes the failures and entries alone. -/
theorem Engine.cutSlice_eq : ∃ dict fails, e.cutSlice f h i = { e with d.dict := dict, path.fails := fails } := by
  obtain ⟨dict, heq⟩ := e.countLacks_entriesOnly (e.sliceLacks f h i f.composed)
  simp only [Engine.cutSlice, heq]
  split_ifs <;> exact ⟨dict, _, rfl⟩

theorem Engine.elemLack_cutSlice : (e.cutSlice f h i).elemLack = e.elemLack := by
  obtain ⟨dict, fails, heq⟩ := e.cutSlice_eq f h i
  rw [heq]
  rfl

theorem Engine.pan_cutSlice : (e.cutSlice f h i).pan = e.pan := by
  obtain ⟨dict, fails, heq⟩ := e.cutSlice_eq f h i
  rw [heq]

theorem Engine.cutFor_cutSlice : (e.cutSlice f h i).path.cutFor = e.path.cutFor := by
  obtain ⟨dict, fails, heq⟩ := e.cutSlice_eq f h i
  rw [heq]

theorem Engine.ent_cutSlice {k : Nat} (hmissing : k ≠ 0x270004) (hbus : k ≠ 0x270007) :
    (e.cutSlice f h i).ent k = e.ent k := by
  rw [← e.ent_countLacks (e.sliceLacks f h i f.composed) hmissing hbus]
  simp only [Engine.cutSlice]
  split_ifs <;> rfl

/-- A slice-line that lacks a block fails with its cause. -/
theorem Engine.fails_cutSlice : (e.cutSlice f h i).path.fails =
    if lackCause (e.sliceLacks f h i f.composed) = 0 then e.path.fails
    else cellSet (fun _ => 0) e.path.fails (32 * h + i) (lackCause (e.sliceLacks f h i f.composed)) := by
  obtain ⟨dict, heq⟩ := e.countLacks_entriesOnly (e.sliceLacks f h i f.composed)
  rw [Engine.cutSlice, heq, lackCause]
  cases (e.sliceLacks f h i f.composed).any fun l => l == 3 || l == 13 with
  | true => simp
  | false =>
    cases (e.sliceLacks f h i f.composed).contains 4 with
    | true => simp
    | false => simp

theorem Engine.get_fails_cutSlice (k : Nat) : cellGet (fun _ => 0) (e.cutSlice f h i).path.fails k =
    if k = 32 * h + i ∧ lackCause (e.sliceLacks f h i f.composed) ≠ 0 then lackCause (e.sliceLacks f h i f.composed)
    else cellGet (fun _ => 0) e.path.fails k := by
  rw [Engine.fails_cutSlice]
  by_cases hnone : lackCause (e.sliceLacks f h i f.composed) = 0
  · simp [hnone]
  · simp [hnone, cellGet_cellSet]

/-- Slices of the line that begins as `e` have been cut: what elements lack is what it was, and a slice-line has no failure or
the one it lacks a block by. -/
def Engine.CutFrom (e : Engine) (f : Flight) (x : Engine) : Prop :=
  x.elemLack = e.elemLack ∧
    ∀ k, cellGet (fun _ => 0) x.path.fails k = 0 ∨ cellGet (fun _ => 0) x.path.fails k = e.causeAt f k

/-- The failure of a slice-line is the one it lacks a block by. -/
def Engine.CutAt (e : Engine) (f : Flight) (p : Nat × Nat) (x : Engine) : Prop :=
  cellGet (fun _ => 0) x.path.fails (32 * p.1 + p.2) = e.causeAt f (32 * p.1 + p.2)

theorem Engine.cutFrom_beginCut : e.CutFrom f (e.beginCut f) := ⟨rfl, fun _ => .inl rfl⟩

theorem Engine.cutSlice_cuts {x : Engine} (hx : e.CutFrom f x) (hi : i < 32) :
    e.CutFrom f (x.cutSlice f h i) ∧ e.CutAt f (h, i) (x.cutSlice f h i) ∧
      ∀ q, e.CutAt f q x → e.CutAt f q (x.cutSlice f h i) := by
  obtain ⟨hlack, hfails⟩ := hx
  have hcause : lackCause (x.sliceLacks f h i f.composed) = e.causeAt f (32 * h + i) := by
    rw [e.causeAt_slice f h i hi, Engine.sliceLacks, hlack, Engine.sliceLacks]
  have hread := x.get_fails_cutSlice f h i
  rw [hcause] at hread
  have hown : e.CutAt f (h, i) (x.cutSlice f h i) := by
    refine (hread _).trans ?_
    by_cases hnone : e.causeAt f (32 * h + i) = 0
    · rw [if_neg fun hset => hset.2 hnone]
      rcases hfails (32 * h + i) with hclear | hset
      · exact hclear.trans hnone.symm
      · exact hset
    · rw [if_pos ⟨rfl, hnone⟩]
  have hother {k : Nat} (hk : k ≠ 32 * h + i) :
      cellGet (fun _ => 0) (x.cutSlice f h i).path.fails k = cellGet (fun _ => 0) x.path.fails k :=
    (hread k).trans (if_neg fun hset => hk hset.1)
  refine ⟨⟨(x.elemLack_cutSlice f h i).trans hlack, fun k => ?_⟩, hown, fun q hq => ?_⟩
  · by_cases hk : k = 32 * h + i
    · exact .inr (hk ▸ hown)
    · rw [hother hk]
      exact hfails k
  · by_cases hk : 32 * q.1 + q.2 = 32 * h + i
    · rw [Engine.CutAt, hk]
      exact hown
    · exact (hother hk).trans hq

/-- The slices fail one by one, each with the cause that the line's beginning gives it. -/
theorem Engine.fails_cutLine (hh : h ∈ e.storeHeads) (hi : i < 32) :
    cellGet (fun _ => 0) (e.cutLine f).path.fails (32 * h + i) = e.causeAt f (32 * h + i) := by
  rw [Engine.cutLine, Engine.each_slices]
  refine foldl_reaches (I := e.CutFrom f) (P := e.CutAt f) (slicesOf e.storeHeads) _ (e.cutFrom_beginCut f) ?_ (h, i)
    (mem_slicesOf.mpr ⟨hh, hi⟩)
  intro x hx p hp
  exact e.cutSlice_cuts f p.1 p.2 hx (mem_slicesOf.mp hp).2

/-- The slices cut leave the panel, the other entries and the line that was cut. -/
theorem Engine.cutLine_keeps : (e.cutLine f).pan = e.pan ∧ (e.cutLine f).path.cutFor = some f.composed ∧
    ∀ k, k ≠ 0x270004 → k ≠ 0x270007 → (e.cutLine f).ent k = e.ent k :=
  ⟨Engine.each_slices_keeps _ (·.pan) _ fun x h i => x.pan_cutSlice f h i,
   Engine.each_slices_keeps _ (·.path.cutFor) _ fun x h i => x.cutFor_cutSlice f h i,
   fun k hmissing hbus => Engine.each_slices_keeps _ (·.ent k) _ fun x h i => x.ent_cutSlice f h i hmissing hbus⟩

/-! A head that meets a deadline: only its least slack is noted (R323) -/

theorem Engine.pan_deadlineMet (stage h seq : Nat) : (e.deadlineMet stage h seq).pan = e.pan := by
  simp only [Engine.deadlineMet]
  split_ifs <;> rfl

theorem Engine.path_deadlineMet (stage h seq : Nat) : (e.deadlineMet stage h seq).path = e.path := by
  simp only [Engine.deadlineMet]
  split_ifs <;> rfl

theorem Engine.ent_deadlineMet (stage h seq : Nat) {k : Nat} (hslack : k ≠ ekey 0x4110 (4 + stage))
    (hline : k ≠ ekey 0x4110 (8 + stage)) : (e.deadlineMet stage h seq).ent k = e.ent k := by
  simp only [Engine.deadlineMet]
  split_ifs
  · rw [Engine.ent_put, if_neg hline, Engine.ent_put, if_neg hslack]
  · rfl

/-- What no head's slack is part of is, after the fetch deadline, what the slices left. -/
theorem Engine.fetchDeadline_keeps {α : Type} (g : Engine → α)
    (hmet : ∀ (x : Engine) (h seq : Nat), g (x.deadlineMet 1 h seq) = g x) : g (e.fetchDeadline f) = g (e.cutLine f) := by
  rw [Engine.fetchDeadline_eq]
  refine Engine.each_keeps (e.cutLine f) g _ fun x h => ?_
  split_ifs
  · exact hmet x h _
  · rfl

/-- FETCH_DEADLINE: the line in compose, if there is one, is cut once. -/
def Engine.cutDue (e : Engine) : Engine :=
  match e.composing with
  | some f => if e.path.cutFor = some f.composed then e else e.fetchDeadline f
  | none => e

theorem Engine.cutDue_none (hnone : e.composing = none) : e.cutDue = e := by
  simp only [Engine.cutDue, hnone]

theorem Engine.cutDue_some (hcomp : e.composing = some f) :
    e.cutDue = if e.path.cutFor = some f.composed then e else e.fetchDeadline f := by
  simp only [Engine.cutDue, hcomp]

end FetchDeadline

/-! The compose deadline (R162) -/

section ComposeDeadline

variable (e : Engine)

/-- The slice-line of key `k` as line `m` finds it unwritten at its deadline: idle codes, failed by the compose deadline. -/
def Engine.missedLine (e : Engine) (m k : Nat) : SliceLine :=
  { line := m, codes := List.replicate 64 0, check := checkWord (List.replicate 64 0),
    cause3 := cellGet (fun _ => 0) e.path.fails k == 3 && e.path.cutFor == some m, cause4 := 2 }

/-- The compose deadline of line `m` at slice `i` of head `h`. -/
def Engine.missSlice (e : Engine) (m h i : Nat) : Engine := e.storeSlice h i (e.missedLine m (32 * h + i))

theorem Engine.lines_missSlice (m h i k : Nat) : cellFind k (e.missSlice m h i).path.lines =
    if k = (32 * h + i) * 64 + m % 64 then some (e.missedLine m (32 * h + i)) else cellFind k e.path.lines :=
  cellFind_replace _ k _ e.path.lines

/-- The slices of compose line `m` at its deadline. -/
def Engine.missLine (e : Engine) (m : Nat) : Engine :=
  (e.bump 0x2700 5 1).each (e.bump 0x2700 5 1).storeHeads fun e h => e.each (List.range 32) fun e i => e.missSlice m h i

theorem Engine.ent_of_d {a b : Engine} (h : a.d = b.d) (k : Nat) : a.ent k = b.ent k := by
  simp [Engine.ent, h]

theorem Engine.missLine_d (m : Nat) : (e.missLine m).d = (e.bump 0x2700 5 1).d :=
  Engine.each_slices_keeps _ (·.d) _ fun _ _ _ => rfl

/-- R162: a line of a printing transit, with PLL-A locked, is failed at its deadline and compose goes on with the next. -/
theorem Engine.lineDeadline_due {f : Flight} (hflight : e.pan.flight = some f) (hret : f.ret = false)
    (hleft : f.composed < e.linesC) (hdue : f.composed ≤ f.line) (hlocked : e.get 0x4281 1 = 2) :
    e.lineDeadline = { e.missLine f.composed with
      path.started := none, pan.flight := some { f with composed := f.composed + 1 } } := by
  have hruns : ¬ (f.ret = true ∨ e.linesC ≤ f.composed ∨ f.line < f.composed) := by
    simp [hret, Nat.not_le.mpr hleft, Nat.not_lt.mpr hdue]
  have hpll : ¬ (e.missLine f.composed).get 0x4281 1 ≠ 2 := by
    rw [Engine.get_of_d (e.missLine_d _), Engine.bump, Engine.get_put_other _ (by decide) (by decide) (by decide)]
    exact not_not.mpr hlocked
  simp only [Engine.lineDeadline, hflight, if_neg hruns]
  change ({ e.missLine f.composed with
    path.started := none
    pan.flight := some { f with
      composed := f.composed + 1
      miss := if (e.missLine f.composed).get 0x4281 1 ≠ 2 then f.miss.or (some f.composed) else f.miss } } : Engine) = _
  rw [if_neg hpll]

theorem Engine.storeHeads_bump (i j n : Nat) (hi : i ≠ 0x2520) (hj : j < 256) :
    (e.bump i j n).storeHeads = e.storeHeads := by
  refine List.filter_congr fun h hh => ?_
  have hsvc : (e.bump i j n).svc h = e.svc h :=
    Engine.get_put_other _ hj (by have := List.mem_range.mp hh; omega) fun h => hi h.1.symm
  rw [Engine.populated, hsvc]
  rfl

/-- The slice-line of a slice is line `m`, failed by the compose deadline. -/
def Engine.MissedAt (m : Nat) (p : Nat × Nat) (x : Engine) : Prop :=
  ∃ l, cellFind ((32 * p.1 + p.2) * 64 + m % 64) x.path.lines = some l ∧ l.line = m ∧ l.cause4 = 2

theorem Engine.missSlice_misses (m h i : Nat) : Engine.MissedAt m (h, i) (e.missSlice m h i) ∧
    ∀ q, Engine.MissedAt m q e → Engine.MissedAt m q (e.missSlice m h i) := by
  refine ⟨⟨_, (e.lines_missSlice m h i _).trans (if_pos rfl), rfl, rfl⟩, fun q hq => ?_⟩
  by_cases hown : (32 * q.1 + q.2) * 64 + m % 64 = (32 * h + i) * 64 + m % 64
  · exact ⟨_, (e.lines_missSlice m h i _).trans (if_pos hown), rfl, rfl⟩
  · obtain ⟨l, hfind, hl⟩ := hq
    exact ⟨l, ((e.lines_missSlice m h i _).trans (if_neg hown)).trans hfind, hl⟩

/-- Every slice-line of the line is failed by the compose deadline. -/
theorem Engine.lines_missLine (m : Nat) {h i : Nat} (hh : h ∈ e.storeHeads) (hi : i < 32) :
    Engine.MissedAt m (h, i) (e.missLine m) := by
  rw [Engine.missLine, e.storeHeads_bump 0x2700 5 1 (by decide) (by decide), Engine.each_slices]
  exact foldl_reaches (I := fun _ => True) (slicesOf e.storeHeads) _ trivial
    (fun x _ p _ => ⟨trivial, x.missSlice_misses m p.1 p.2⟩) (h, i) (mem_slicesOf.mpr ⟨hh, hi⟩)

end ComposeDeadline

theorem composeDeadlines : Says.ComposeDeadlines := by
  intro s hlive
  have hcompose : Becomes .composeDeadline s s.e.lineDeadline := becomes_of_whenLive rfl hlive
  have hfetch : Becomes .fetchDeadline s s.e.cutDue := becomes_of_whenLive rfl hlive
  refine ⟨?_, ?_, ?_, ?_, ?_⟩
  · intro hnone
    rwa [s.e.cutDue_none hnone] at hfetch
  · intro f hcomp hcut
    rwa [s.e.cutDue_some f hcomp, if_pos hcut] at hfetch
  · intro f hcomp hcut
    rw [s.e.cutDue_some f hcomp, if_neg hcut] at hfetch
    obtain ⟨hpan, hcutFor, hent⟩ := s.e.cutLine_keeps f
    have hpath := s.e.fetchDeadline_keeps f (·.path) fun x h seq => x.path_deadlineMet 1 h seq
    refine hfetch.completes ⟨?_, fun h hh i hi => ?_, fun k hmissing hbus hslack hline => ?_, ?_⟩
    · exact (congrArg LinePath.cutFor hpath).trans hcutFor
    · rw [← s.e.lackCause_sliceLacks, ← s.e.causeAt_slice f h i hi, ← s.e.fails_cutLine f h i hh hi]
      exact congrArg (fun path : LinePath => cellGet (fun _ => 0) path.fails (32 * h + i)) hpath
    · exact (s.e.fetchDeadline_keeps f (·.ent k) fun x h seq => x.ent_deadlineMet 1 h seq hslack hline).trans
        (hent k hmissing hbus)
    · exact (s.e.fetchDeadline_keeps f (·.pan) fun x h seq => x.pan_deadlineMet 1 h seq).trans hpan
  · intro hnone
    rwa [Engine.lineDeadline, hnone] at hcompose
  · intro f hflight hret hleft hdue hlocked
    rw [s.e.lineDeadline_due hflight hret hleft hdue hlocked] at hcompose
    have hd := s.e.missLine_d f.composed
    refine hcompose.completes ⟨rfl, rfl, ?_, fun k hk => ?_, fun h hh i hi => s.e.lines_missLine f.composed hh hi⟩
    · exact (Engine.get_of_d hd _ _).trans (Engine.get_put_same _ _ _ _)
    · exact (Engine.ent_of_d hd k).trans ((Engine.ent_put _ _ _ _ k).trans (if_neg hk))

/-- Settles O26: blocks by their state and tag, and deadlines slice by slice. -/
theorem fetchAndCompose : Obligations.FetchAndCompose := ⟨fetchBlocks, composeDeadlines⟩

end Sys2Proof.Machine

/-! Tone curves, threshold arrays, the clearing of the store, and pass masks (R116, R117, R120, R125, R136, R138). -/

namespace Sys2Proof.Machine

/-- A request that stores one entry and is refused. -/
theorem answers_of_put_refuse {c : Instr} {s : State} {i j v code : Nat} (h : Becomes c s ((s.e.put i j v).refuse code)) :
    Answers c s code [(ekey i j, v)] := by
  refine ⟨_, h, ?_, ?_, rfl⟩
  · intro p hp
    obtain rfl := List.mem_singleton.mp hp
    exact s.e.get_put_same i j v
  · intro k hk
    exact (s.e.ent_put i j v k).trans (if_neg (by simpa using hk))

/-! Sparse stores after several writes, and with a range erased -/

section Stores

theorem cellGet_cons {α : Type} (d : Nat → α) (i j : Nat) (v : α) (m : List (Nat × α)) :
    cellGet d ((i, v) :: m) j = if i = j then v else cellGet d m j := by
  rw [cellGet, cellFind]
  split_ifs <;> rfl

theorem cellGet_eraseRange {α : Type} (d : Nat → α) (a n : Nat) (m : List (Nat × α)) (j : Nat) :
    cellGet d (cellEraseRange a n m) j = if a ≤ j ∧ j < a + n then d j else cellGet d m j := by
  induction m with
  | nil => simp [cellEraseRange]
  | cons p r ih =>
    obtain ⟨i, v⟩ := p
    by_cases hi : a ≤ i ∧ i < a + n
    · rw [cellEraseRange, if_pos hi, ih, cellGet_cons]
      by_cases hj : i = j
      · simp [← hj, hi]
      · simp [hj]
    · rw [cellEraseRange, if_neg hi, cellGet_cons, cellGet_cons, ih]
      by_cases hj : i = j
      · simp [← hj, hi]
      · simp [hj]

/-- Values `f k` stored at `a + k` for each `k` of a list read back there, and every other place is what it was. -/
theorem cellGet_setFrom {α : Type} [DecidableEq α] (d f : Nat → α) (a : Nat) (ks : List Nat) (m : List (Nat × α)) (j : Nat) :
    cellGet d (cellSetAll d (ks.map fun k => (a + k, f k)) m) j =
      if a ≤ j ∧ j - a ∈ ks then f (j - a) else cellGet d m j := by
  induction ks generalizing m with
  | nil => simp [cellSetAll]
  | cons k ks ih =>
    rw [List.map_cons, cellSetAll, ih, cellGet_cellSet]
    by_cases hlater : a ≤ j ∧ j - a ∈ ks
    · rw [if_pos hlater, if_pos ⟨hlater.1, List.mem_cons_of_mem _ hlater.2⟩]
    · rw [if_neg hlater]
      by_cases hown : j = a + k
      · subst hown
        simp
      · have hother : ¬ (a ≤ j ∧ j - a ∈ k :: ks) := by
          rintro ⟨hle, hmem⟩
          rcases List.mem_cons.mp hmem with heq | htail
          · omega
          · exact hlater ⟨hle, htail⟩
        rw [if_neg hown, if_neg hother]

theorem cellGet_setRange {α : Type} [DecidableEq α] (d f : Nat → α) (a n : Nat) (m : List (Nat × α)) (j : Nat) :
    cellGet d (cellSetAll d ((List.range n).map fun k => (a + k, f k)) m) j =
      if a ≤ j ∧ j < a + n then f (j - a) else cellGet d m j := by
  have hrange : (a ≤ j ∧ j - a < n) ↔ (a ≤ j ∧ j < a + n) := by omega
  simp only [cellGet_setFrom, List.mem_range, hrange]

end Stores

/-! Tone curves (R116, R120) -/

section ToneCurves

variable (e : Engine) (b : Nat) {data : List Byte}

theorem Engine.toneCurve_long (hlen : 2048 < data.length) : e.toneCurve b data = e.refuse abLength := if_pos hlen

theorem Engine.toneCurve_pending (hlen : data.length ≤ 2048) (hpending : e.flag (0x2410 + b) 2 = true) :
    e.toneCurve b data = e.refuse abState := by
  rw [Engine.toneCurve, if_neg (Nat.not_lt.mpr hlen)]
  exact if_pos hpending

theorem Engine.toneCurve_short (hlen : data.length < 2048) (hfree : e.flag (0x2410 + b) 2 = false) :
    e.toneCurve b data = e.refuse abValue := by
  rw [Engine.toneCurve, if_neg (Nat.not_lt.mpr hlen.le), hfree, if_neg Bool.false_ne_true]
  exact if_pos (.inl hlen.ne)

theorem Engine.stagedDom_stageDom (k j : Nat) : cellGet (fun _ => none) (e.stageDom k data).d.stagedDom j =
    if j = k then some data else cellGet (fun _ => none) e.d.stagedDom j := by
  rw [Engine.stageDom, cellGet_cellSet]

/-- R47: while a job runs, a curve in order is staged. -/
theorem Engine.toneCurve_stages (hlen : data.length = 2048) (hfree : e.flag (0x2410 + b) 2 = false) (hjob : e.jobState ≠ 0)
    (hentries : (curveEntries data).all (fun v => decide (v ≤ 1023)) = true) :
    e.toneCurve b data = (e.stageDom (ekey (0x2410 + b) 1) data).done := by
  have hgood : ¬ (data.length ≠ 2048 ∨ (curveEntries data).any (fun v => decide (1023 < v)) = true) := by
    simpa [hlen] using hentries
  rw [Engine.toneCurve, if_neg hlen.not_gt, hfree, if_neg Bool.false_ne_true, if_neg hgood]
  exact if_neg hjob

end ToneCurves

/-! Threshold arrays (R117, R120) -/

section Arrays

variable (e : Engine) (b : Nat) {bs : List Byte}

theorem Engine.arrayLoad_pending (hpending : e.flag (0x2410 + b) 2 = true) :
    e.arrayLoad b = (e.put (0x2420 + b) 4 5).refuse abState := if_pos hpending

theorem Engine.arrayLoad_unreadable (hfree : e.flag (0x2410 + b) 2 = false)
    (hread : e.dramRead (e.get (0x2420 + b) 1) 262144 = none) : e.arrayLoad b = (e.put (0x2420 + b) 4 4).refuse abAction := by
  rw [Engine.arrayLoad, hfree, if_neg Bool.false_ne_true, hread]

theorem Engine.arrayLoad_wrongCrc (hfree : e.flag (0x2410 + b) 2 = false)
    (hread : e.dramRead (e.get (0x2420 + b) 1) 262144 = some bs) (hcrc : crc32c bs ≠ e.get (0x2420 + b) 2) :
    e.arrayLoad b = (e.put (0x2420 + b) 4 2).refuse abValue := by
  rw [Engine.arrayLoad, hfree, if_neg Bool.false_ne_true, hread]
  exact if_pos hcrc

/-- The engine once bank `b` holds the array of image `bs` staged, under its check. -/
def Engine.stageArray (e : Engine) (b : Nat) (bs : List Byte) : Engine :=
  e.setBankScr b { e.bankScr b with
    stagedThr := some (asCells (fun _ => 0x3fffffff) (imageWords 65536 bs), e.get (0x2420 + b) 2) }

theorem Engine.bankScr_stageArray : ((e.stageArray b bs).bankScr b).cur = (e.bankScr b).cur ∧
    ((e.stageArray b bs).bankScr b).stagedThr =
      some (asCells (fun _ => 0x3fffffff) (imageWords 65536 bs), e.get (0x2420 + b) 2) := by
  rw [Engine.stageArray, Engine.bankScr_setBankScr, if_pos rfl]
  exact ⟨rfl, rfl⟩

/-- R117: while a job runs, an array whose CRC and cells are in order is staged. -/
theorem Engine.arrayLoad_stages (hfree : e.flag (0x2410 + b) 2 = false)
    (hread : e.dramRead (e.get (0x2420 + b) 1) 262144 = some bs) (hcrc : crc32c bs = e.get (0x2420 + b) 2)
    (hcells : (imageWords 65536 bs).all cellOk = true) (hjob : e.jobState ≠ 0) :
    e.arrayLoad b = ((e.stageArray b bs).put (0x2420 + b) 4 1).done := by
  have hrunning : ((e.stageArray b bs).put (0x2420 + b) 4 1).jobState ≠ 0 := by
    rwa [Engine.jobState, Engine.get_put_other _ (by decide) (by decide) (by omega)]
  rw [Engine.arrayLoad, hfree, if_neg Bool.false_ne_true, hread]
  dsimp only
  rw [if_neg (not_not.mpr hcrc), hcells, if_neg (by decide)]
  exact congrArg Engine.done (if_neg hrunning)

end Arrays

/-! The clearing of the store (R125) -/

section Clearing

variable (e : Engine)

theorem Engine.dramByte_clear (a n j : Nat) :
    (e.dramClear a n).dramByte j = if a ≤ j ∧ j < a + n then 0 else e.dramByte j :=
  cellGet_eraseRange _ a n e.mem.bytes j

/-- The engine once regions `rs` of DRAM are cleared. -/
def Engine.clearAll (e : Engine) (rs : List (Nat × Nat)) : Engine := rs.foldl (fun e r => e.dramClear r.1 r.2) e

/-- Clearing changes DRAM alone. -/
theorem Engine.clearAll_eq (rs : List (Nat × Nat)) : e.clearAll rs = { e with mem := (e.clearAll rs).mem } := by
  induction rs generalizing e with
  | nil => rfl
  | cons r rs ih => exact ih (e.dramClear r.1 r.2)

/-- Every byte of region `r` reads 0. -/
def Engine.ZeroIn (r : Nat × Nat) (x : Engine) : Prop := ∀ a, r.1 ≤ a → a < r.1 + r.2 → x.dramByte a = 0

/-- A region that is cleared is zero, whatever is cleared after it. -/
theorem Engine.clearAll_zeroIn (rs : List (Nat × Nat)) : ∀ r ∈ rs, Engine.ZeroIn r (e.clearAll rs) := by
  refine foldl_reaches (I := fun _ => True) rs e trivial fun x _ r _ => ⟨trivial, ?_, ?_⟩
  · intro a hlow hhigh
    rw [x.dramByte_clear, if_pos ⟨hlow, hhigh⟩]
  · intro q hq a hlow hhigh
    rw [x.dramByte_clear, hq a hlow hhigh, ite_self]

theorem Engine.storeCleared_idle (h : e.flag 0x2430 9 = false) : e.storeCleared = e := by
  rw [Engine.storeCleared, h, if_neg Bool.false_ne_true]

theorem Engine.storeCleared_ends (h : e.flag 0x2430 9 = true) : e.storeCleared = (e.clearAll e.pan.regions).put 0x2430 9 0 :=
  if_pos h

end Clearing

theorem storeClearComplete_completes {s : State} (hlive : s.e.live = true) (hclearing : s.e.flag 0x2430 9 = true) :
    Completes .storeClearComplete s (fun t =>
      t.e.get 0x2430 9 = 0 ∧ (∀ r, r ∈ s.e.pan.regions → ∀ a, r.1 ≤ a → a < r.1 + r.2 → t.e.dramByte a = 0) ∧
      (∀ k, k ≠ 0x243009 → t.e.ent k = s.e.ent k) ∧
      t = { s with e := { s.e with mem := t.e.mem, d.dict := t.e.d.dict } }) := by
  have hclear : Becomes .storeClearComplete s s.e.storeCleared := becomes_of_whenLive rfl hlive
  rw [s.e.storeCleared_ends hclearing] at hclear
  have hzero := s.e.clearAll_zeroIn s.e.pan.regions
  rw [s.e.clearAll_eq] at hclear hzero
  exact hclear.completes
    ⟨Engine.get_put_same _ _ _ _, hzero, fun k hk => (Engine.ent_put _ _ _ _ k).trans (if_neg hk), rfl⟩

theorem screeningTables : Says.ScreeningTables := by
  intro s b hs
  have hcurve (data : List Byte) : Becomes (.toneCurveWrite b data) s (s.e.toneCurve b.val data) :=
    becomes_of_request (idx := 0x2410) (f := fun e => e.toneCurve b.val data) rfl hs
  have harray : Becomes (.arrayLoad b) s (s.e.arrayLoad b.val) :=
    becomes_of_request (idx := 0x2420) (f := fun e => e.arrayLoad b.val) rfl hs
  refine ⟨?_, ?_, ?_, ?_, ?_, ?_, ?_, ?_, ?_, storeClearComplete_completes hs.1⟩
  · intro data hlen
    have hrefused := hcurve data
    rwa [s.e.toneCurve_long b.val hlen] at hrefused
  · intro data hlen hpending
    have hrefused := hcurve data
    rwa [s.e.toneCurve_pending b.val hlen hpending] at hrefused
  · intro data hlen hfree
    have hrefused := hcurve data
    rwa [s.e.toneCurve_short b.val hlen hfree] at hrefused
  · intro data hlen hfree hjob hentries
    have hstaged := hcurve data
    rw [s.e.toneCurve_stages b.val hlen hfree hjob hentries] at hstaged
    have hdom := s.e.stagedDom_stageDom (data := data) (ekey (0x2410 + b.val) 1)
    exact hstaged.completes ⟨(hdom _).trans (if_pos rfl), fun k hk => (hdom k).trans (if_neg hk), rfl⟩
  · intro hpending
    rw [s.e.arrayLoad_pending b.val hpending] at harray
    exact answers_of_put_refuse harray
  · intro hfree hread
    rw [s.e.arrayLoad_unreadable b.val hfree hread] at harray
    exact answers_of_put_refuse harray
  · intro bs hfree hread hcrc
    rw [s.e.arrayLoad_wrongCrc b.val hfree hread hcrc] at harray
    exact answers_of_put_refuse harray
  · intro bs hfree hread hcrc hcells hjob
    rw [s.e.arrayLoad_stages b.val hfree hread hcrc hcells hjob] at harray
    exact harray.completes ⟨Engine.get_put_same _ _ _ _, rfl, s.e.bankScr_stageArray b.val⟩
  · intro hdone
    have hclear : Becomes .storeClearComplete s s.e.storeCleared := becomes_of_whenLive rfl hs.1
    rwa [s.e.storeCleared_idle hdone] at hclear

/-! Pass masks (R136, R138) -/

section Masks

variable (e : Engine) (m : Nat) {bs : List Byte}

theorem Engine.maskLoad_inUse (huse : e.maskInUse m = true) : e.maskLoad m = (e.put (0x2510 + m) 4 5).refuse abState :=
  if_pos huse

theorem Engine.maskLoad_unreadable (hfree : e.maskInUse m = false)
    (hread : e.dramRead (e.get (0x2510 + m) 1) 65536 = none) : e.maskLoad m = (e.put (0x2510 + m) 4 4).refuse abAction := by
  rw [Engine.maskLoad, hfree, if_neg Bool.false_ne_true, hread]

theorem Engine.maskLoad_wrongCrc (hfree : e.maskInUse m = false)
    (hread : e.dramRead (e.get (0x2510 + m) 1) 65536 = some bs) (hcrc : crc32c bs ≠ e.get (0x2510 + m) 2) :
    e.maskLoad m = (e.put (0x2510 + m) 4 2).refuse abValue := by
  rw [Engine.maskLoad, hfree, if_neg Bool.false_ne_true, hread]
  exact if_pos hcrc

/-- The engine once the cells of mask `m` are those of image `bs`, free of poison. -/
def Engine.setMask (e : Engine) (m : Nat) (bs : List Byte) : Engine :=
  { e with img.masks := cellSetAll (fun _ => 0)
             ((List.range 65536).map fun k => (m * 65536 + k, (bs.getD k 0).toNat)) e.img.masks
           img.poisonM := cellEraseRange (m * 65536) 65536 e.img.poisonM }

/-- The entries of mask `m` once image `bs` is loaded: done, its highest cell, and its CRC. -/
def Engine.publishMask (e : Engine) (m : Nat) (bs : List Byte) : Engine :=
  ((e.put (0x2510 + m) 4 1).put (0x2510 + m) 5 ((bs.map (·.toNat)).foldl max 0)).put (0x2510 + m) 6 (crc32c bs)

theorem Engine.get_publishMask : (e.publishMask m bs).get (0x2510 + m) 4 = 1 ∧
    (e.publishMask m bs).get (0x2510 + m) 6 = crc32c bs ∧
    (e.publishMask m bs).get (0x2510 + m) 5 = (bs.map (·.toNat)).foldl max 0 := by
  simp [Engine.publishMask, Engine.get_put]

/-- R136: a mask whose CRC and cells are in order is loaded and published. -/
theorem Engine.maskLoad_loads (hfree : e.maskInUse m = false) (hread : e.dramRead (e.get (0x2510 + m) 1) 65536 = some bs)
    (hcrc : crc32c bs = e.get (0x2510 + m) 2) (hcells : ∀ b ∈ bs, b.toNat < 8) :
    e.maskLoad m = ((e.setMask m bs).publishMask m bs).done := by
  have hgood : ¬ bs.any (fun b => decide (8 ≤ b.toNat)) = true := by simpa using hcells
  rw [Engine.maskLoad, hfree, if_neg Bool.false_ne_true, hread]
  dsimp only
  rw [if_neg (not_not.mpr hcrc), if_neg hgood, Engine.publishMask, Engine.setMask]

/-- Masks are 65,536 cells each, one after another. -/
theorem Engine.maskCell_setMask {n k : Nat} (hk : k < 65536) :
    (e.setMask m bs).maskCell n k = if n = m then (bs.getD k 0).toNat else e.maskCell n k := by
  rw [Engine.maskCell, Engine.setMask, cellGet_setRange]
  by_cases hown : n = m
  · subst hown
    rw [if_pos (by omega), if_pos rfl, Nat.add_sub_cancel_left]
  · rw [if_neg (by omega), if_neg hown, Engine.maskCell]

@[simp] theorem Engine.maskCell_done (n k : Nat) : e.done.maskCell n k = e.maskCell n k := rfl

theorem Engine.maskCell_publishMask (n k : Nat) : (e.publishMask m bs).maskCell n k = e.maskCell n k := by
  simp only [Engine.maskCell, Engine.publishMask, Engine.put_img]

end Masks

theorem maskLoads : Says.MaskLoads := by
  intro s m hs
  have hload : Becomes (.maskLoad m) s (s.e.maskLoad m.val) :=
    becomes_of_request (idx := 0x2510) (f := fun e => e.maskLoad m.val) rfl hs
  refine ⟨?_, ?_, ?_, ?_⟩
  · intro huse
    rw [s.e.maskLoad_inUse m.val huse] at hload
    exact answers_of_put_refuse hload
  · intro hfree hread
    rw [s.e.maskLoad_unreadable m.val hfree hread] at hload
    exact answers_of_put_refuse hload
  · intro bs hfree hread hcrc
    rw [s.e.maskLoad_wrongCrc m.val hfree hread hcrc] at hload
    exact answers_of_put_refuse hload
  · intro bs hfree hread hcrc hcells
    rw [s.e.maskLoad_loads m.val hfree hread hcrc hcells] at hload
    obtain ⟨hresult, hcheck, hhighest⟩ := (s.e.setMask m.val bs).get_publishMask m.val (bs := bs)
    refine hload.completes ⟨?_, ?_, ?_, Engine.done_sdo _, fun k hk => ?_, fun n k hn hk => ?_⟩
    · rw [Engine.get_done, hresult]
    · rw [Engine.get_done, hcheck]
    · rw [Engine.get_done, hhighest]
    · rw [Engine.maskCell_done, Engine.maskCell_publishMask, s.e.maskCell_setMask m.val hk, if_pos rfl]
    · rw [Engine.maskCell_done, Engine.maskCell_publishMask, s.e.maskCell_setMask m.val hk, if_neg hn]

/-- Settles O23: curves, arrays and masks by the checks in their order, and the regions that clearing leaves zero. -/
theorem screeningData : Obligations.ScreeningData := ⟨screeningTables, maskLoads⟩

end Sys2Proof.Machine

/-! The Catalogue by its window and by images (R142, R143), and the requests of head eclipse (R148). -/

namespace Sys2Proof.Machine

/-! Staging entries, one written and many (R141) -/

section StagingEntries

variable (e : Engine)

@[simp] theorem Engine.stagingEntry_done (j : Nat) : e.done.stagingEntry j = e.stagingEntry j := rfl
@[simp] theorem Engine.stagingEntry_put (i k v j : Nat) : (e.put i k v).stagingEntry j = e.stagingEntry j := rfl

@[simp] theorem Engine.get_stageEntry (i w k l : Nat) : (e.stageEntry i w).get k l = e.get k l := rfl
@[simp] theorem Engine.ent_stageEntry (i w k : Nat) : (e.stageEntry i w).ent k = e.ent k := rfl
@[simp] theorem Engine.working_stageEntry (i w : Nat) : (e.stageEntry i w).img.working = e.img.working := rfl

theorem Engine.stagingEntry_stageEntry (i w j : Nat) :
    (e.stageEntry i w).stagingEntry j = if j = i then w else e.stagingEntry j := cellGet_cellSet _ _ _ _ _

/-- The engine once the words of `ps` are staged from entry `a` on. -/
def Engine.stageAll (e : Engine) (a : Nat) (ps : List (Nat × Nat)) : Engine :=
  ps.foldl (fun e p => e.stageEntry (a + p.1) p.2) e

/-- What the staging of one entry keeps is kept by all of them. -/
theorem Engine.stageAll_keeps {α : Type} (g : Engine → α) (a : Nat) (ps : List (Nat × Nat))
    (h : ∀ e i w, g (e.stageEntry i w) = g e) : g (e.stageAll a ps) = g e := by
  induction ps generalizing e with
  | nil => rfl
  | cons p ps ih => exact (ih (e.stageEntry (a + p.1) p.2)).trans (h e _ _)

theorem Engine.staging_stageAll (a : Nat) (ps : List (Nat × Nat)) :
    (e.stageAll a ps).img.staging = cellSetAll (fun _ => 0) (ps.map fun p => (a + p.1, p.2)) e.img.staging := by
  induction ps generalizing e with
  | nil => rfl
  | cons p ps ih => exact ih (e.stageEntry (a + p.1) p.2)

theorem zip_range_eq_map {n : Nat} {ws : List Nat} (hlen : ws.length = n) :
    (List.range n).zip ws = (List.range n).map fun k => (k, ws.getD k 0) := by
  subst hlen
  refine List.ext_getElem (by simp) fun k hk _ => ?_
  have hword : k < ws.length := by simpa using hk
  simp [hword]

/-- The words of a list staged one after another read back in their places, and every other entry is what it was. -/
theorem Engine.stagingEntry_stageAll (a : Nat) {n : Nat} {ws : List Nat} (hlen : ws.length = n) (j : Nat) :
    (e.stageAll a ((List.range n).zip ws)).stagingEntry j =
      if a ≤ j ∧ j < a + n then ws.getD (j - a) 0 else e.stagingEntry j := by
  rw [Engine.stagingEntry, Engine.staging_stageAll, zip_range_eq_map hlen, List.map_map]
  exact cellGet_setRange _ (fun k => ws.getD k 0) a n e.img.staging j

end StagingEntries

/-! The window (R142) -/

section Window

variable (e : Engine) {v : Nat}

theorem Engine.windowNext_advances (hauto : e.flag 0x2600 4 = true) :
    e.windowNext = e.put 0x2600 1 ((e.get 0x2600 1 + 1) % 262144) := if_pos hauto

theorem Engine.windowNext_stays (hauto : e.flag 0x2600 4 = false) : e.windowNext = e := by
  rw [Engine.windowNext, hauto, if_neg Bool.false_ne_true]

/-- The staging entry at the window's index with `v` written through the window's mask. -/
def Engine.windowWord (e : Engine) (v : Nat) : Nat :=
  maskWrite (e.stagingEntry (e.get 0x2600 1)) v (e.get 0x2600 5) 32

theorem Engine.windowWrite_refused (h : 262143 < e.get 0x2600 1 ∨ bits (e.windowWord v) 15 11 ≠ 0) :
    e.windowWrite v = e.refuse abValue := if_pos h

theorem Engine.windowWrite_stores (hindex : e.get 0x2600 1 ≤ 262143) (hvalue : bits (e.windowWord v) 15 11 = 0)
    (hclean : cellGet (fun _ => false) e.img.poisonS (e.get 0x2600 1) = false) :
    e.windowWrite v = (e.stageEntry (e.get 0x2600 1) (e.windowWord v)).windowNext.done := by
  have hgood : ¬ (262143 < e.get 0x2600 1 ∨ bits (e.windowWord v) 15 11 ≠ 0) := by
    rintro (hbeyond | hreserved)
    · exact hbeyond.not_ge hindex
    · exact hreserved hvalue
  refine (if_neg hgood).trans (if_neg ?_)
  rintro ⟨hpoisoned, _⟩
  exact Bool.false_ne_true (hclean.symm.trans hpoisoned)

theorem Engine.windowRead_beyond (h : 262143 < e.get 0x2600 1) : e.windowRead = e.refuse abValue := if_pos h

theorem Engine.windowRead_answers (hindex : e.get 0x2600 1 ≤ 262143)
    (hclean : cellGet (fun _ => false) e.img.poisonS (e.get 0x2600 1) = false) :
    e.windowRead = e.windowNext.answer (toLe 4 (e.stagingEntry (e.get 0x2600 1))) := by
  rw [Engine.windowRead, if_neg hindex.not_gt, hclean, if_neg Bool.false_ne_true]

end Window

theorem catalogueWindow : Says.CatalogueWindow := by
  rintro s v i w hs rfl rfl
  have hwrite : Becomes (.catalogueWindowWrite v) s (s.e.windowWrite v.toNat) :=
    becomes_of_request (idx := 0x2600) (f := fun e => e.windowWrite v.toNat) rfl hs
  have hread : Becomes .catalogueStagingRead s s.e.windowRead := becomes_of_request (idx := 0x2600) rfl hs
  refine ⟨?_, ?_, ?_, ?_, ?_⟩
  · intro hbeyond
    rw [s.e.windowWrite_refused (.inl hbeyond)] at hwrite
    rw [s.e.windowRead_beyond hbeyond] at hread
    exact ⟨hwrite, hread⟩
  · intro _ hreserved
    rwa [s.e.windowWrite_refused (.inr hreserved)] at hwrite
  · intro hindex hvalue hclean hauto
    rw [s.e.windowWrite_stores hindex hvalue hclean, Engine.windowNext_advances (s.e.stageEntry _ _) hauto] at hwrite
    refine hwrite.completes ⟨?_, fun j hj => ?_, rfl, Engine.get_put_same _ _ _ _, fun k hk => ?_, rfl⟩
    · exact (s.e.stagingEntry_stageEntry _ _ _).trans (if_pos rfl)
    · exact (s.e.stagingEntry_stageEntry _ _ _).trans (if_neg hj)
    · exact (Engine.ent_put _ _ _ _ _).trans (if_neg hk)
  · intro hindex hclean hauto
    rwa [s.e.windowRead_answers hindex hclean, s.e.windowNext_stays hauto] at hread
  · intro hindex hclean hauto
    rw [s.e.windowRead_answers hindex hclean, s.e.windowNext_advances hauto] at hread
    exact hread.completes ⟨rfl, Engine.get_put_same _ _ _ _, fun k hk => (Engine.ent_put _ _ _ _ _).trans (if_neg hk), rfl⟩

/-! Images (R143) -/

section Images

variable (e : Engine) {bs : List Byte}

theorem Engine.imageLoad_beyond (h : 128 < e.get 0x2601 3 + e.get 0x2601 4) :
    e.imageLoad = (e.put 0x2601 6 5).refuse abValue := if_pos h

theorem Engine.imageDump_beyond (h : 128 < e.get 0x2601 3 + e.get 0x2601 4) :
    e.imageDump = (e.put 0x2601 6 5).refuse abValue := if_pos h

theorem Engine.imageLoad_unreadable (hheads : e.get 0x2601 3 + e.get 0x2601 4 ≤ 128)
    (hread : e.dramRead (e.get 0x2601 1) (e.get 0x2601 4 * 8192) = none) :
    e.imageLoad = (e.put 0x2601 6 4).refuse abAction := by
  rw [Engine.imageLoad, if_neg hheads.not_gt, hread]

theorem Engine.imageLoad_wrongCrc (hheads : e.get 0x2601 3 + e.get 0x2601 4 ≤ 128)
    (hread : e.dramRead (e.get 0x2601 1) (e.get 0x2601 4 * 8192) = some bs) (hcrc : crc32c bs ≠ e.get 0x2601 2) :
    e.imageLoad = (e.put 0x2601 6 2).refuse abValue := by
  rw [Engine.imageLoad, if_neg hheads.not_gt, hread]
  exact if_pos hcrc

/-- R143: an image whose CRC and words are in order is staged from the first entry of its first head on. -/
theorem Engine.imageLoad_stages (hheads : e.get 0x2601 3 + e.get 0x2601 4 ≤ 128)
    (hread : e.dramRead (e.get 0x2601 1) (e.get 0x2601 4 * 8192) = some bs) (hcrc : crc32c bs = e.get 0x2601 2)
    (hwords : (imageWords (e.get 0x2601 4 * 2048) bs).all (fun w => bits w 15 11 == 0) = true) :
    e.imageLoad = ((e.put 0x2601 6 1).stageAll (e.get 0x2601 3 * 2048)
      ((List.range (e.get 0x2601 4 * 2048)).zip (imageWords (e.get 0x2601 4 * 2048) bs))).done := by
  have hgood : ¬ (imageWords (e.get 0x2601 4 * 2048) bs).any (fun w => bits w 15 11 != 0) = true := by
    simpa using hwords
  rw [Engine.imageLoad, if_neg hheads.not_gt, hread]
  dsimp only
  rw [if_neg (not_not.mpr hcrc), if_neg hgood, Engine.stageAll]

theorem length_imageWords (n : Nat) (bs : List Byte) : (imageWords n bs).length = n := by simp [imageWords]

/-- The bytes of the working entries of the heads that the entries of 2601h name. -/
def Engine.dumpBytes (e : Engine) : List Byte :=
  ((List.range (e.get 0x2601 4 * 2048)).map (· + e.get 0x2601 3 * 2048)).flatMap fun i => toLe 4 (e.work i)

/-- R143: heads in range whose entries are free of poison are dumped where the image lies in DRAM. -/
theorem Engine.imageDump_writes (hheads : e.get 0x2601 3 + e.get 0x2601 4 ≤ 128)
    (hclean : ((List.range (e.get 0x2601 4 * 2048)).map (· + e.get 0x2601 3 * 2048)).any e.poisonedW = false)
    (hin : e.inDram (e.get 0x2601 1) (e.get 0x2601 4 * 8192) = true) (hbad : e.mem.bad = []) :
    e.imageDump = (((e.dramWrite (e.get 0x2601 1) e.dumpBytes).put 0x2601 2 (crc32c e.dumpBytes)).put 0x2601 6 6).done := by
  rw [Engine.imageDump]
  dsimp only
  rw [if_neg hheads.not_gt, hclean, if_neg Bool.false_ne_true, hin, if_neg (by decide), ← Engine.dumpBytes,
    Engine.dramStore_whole _ (e.badPartial_noBad _ _ hbad)]

theorem Engine.img_dramWrite (a : Nat) : (e.dramWrite a bs).img = e.img := rfl

end Images

theorem catalogueImages : Says.CatalogueImages := by
  rintro s h0 n a hs rfl rfl rfl
  have hload : Becomes .catalogueLoad s s.e.imageLoad := becomes_of_request (idx := 0x2601) rfl hs
  have hdump : Becomes .catalogueDump s s.e.imageDump := becomes_of_request (idx := 0x2601) rfl hs
  refine ⟨?_, ?_, ?_, ?_, ?_⟩
  · intro hbeyond
    rw [s.e.imageLoad_beyond hbeyond] at hload
    rw [s.e.imageDump_beyond hbeyond] at hdump
    exact ⟨answers_of_put_refuse hload, answers_of_put_refuse hdump⟩
  · intro hheads hread
    rw [s.e.imageLoad_unreadable hheads hread] at hload
    exact answers_of_put_refuse hload
  · intro bs hheads hread hcrc
    rw [s.e.imageLoad_wrongCrc hheads hread hcrc] at hload
    exact answers_of_put_refuse hload
  · intro bs hheads hread hcrc hwords
    rw [s.e.imageLoad_stages hheads hread hcrc hwords] at hload
    have hstaged := (s.e.put 0x2601 6 1).stagingEntry_stageAll (s.e.get 0x2601 3 * 2048)
      (length_imageWords (s.e.get 0x2601 4 * 2048) bs)
    refine hload.completes ⟨?_, rfl, ?_, fun i hi => ?_, fun j hj => ?_⟩
    · exact (Engine.stageAll_keeps _ (·.get 0x2601 6) _ _ fun _ _ _ => rfl).trans (s.e.get_put_same _ _ _)
    · exact Engine.stageAll_keeps _ (·.img.working) _ _ fun _ _ _ => rfl
    · rw [Engine.stagingEntry_done, hstaged, if_pos (by omega), Nat.add_sub_cancel_left]
    · rw [Engine.stagingEntry_done, hstaged, if_neg (by omega), Engine.stagingEntry_put]
  · intro hheads hclean hin hbad
    rw [s.e.imageDump_writes hheads hclean hin hbad] at hdump
    refine hdump.completes ⟨s.e.dumpBytes, rfl, rfl, ?_, ?_, rfl, ?_⟩
    · rw [Engine.get_done, Engine.get_put_ne _ (by decide), Engine.get_put_same]
    · rw [Engine.get_done, Engine.get_put_same]
    · rw [Engine.done_img, Engine.put_img, Engine.put_img, Engine.img_dramWrite]

/-- Settles O24: the window by its index and value, and images by the checks in their order. -/
theorem catalogueAccess : Obligations.CatalogueAccess := ⟨catalogueWindow, catalogueImages⟩

/-! Head eclipse and return (R148) -/

section Eclipse

variable (e : Engine) (h : Nat)

theorem Engine.headEclipse_refused (hstate : e.svc h ≠ 0) : e.headEclipse h = e.refuse abState := if_pos hstate

/-- R148: of a head In service, with more passes than one, only the request is noted. -/
theorem Engine.headEclipse_taken (hservice : e.svc h = 0) (hpasses : e.passes ≠ 1) :
    e.headEclipse h = (e.setHead h { e.head h with drainReq := true }).done :=
  (if_neg (not_not.mpr hservice)).trans (congrArg Engine.done (if_neg hpasses))

theorem Engine.cancelDrain_refused (hstate : e.svc h ≠ 1) : e.cancelDrain h = e.refuse abState := if_pos hstate

theorem Engine.cancelDrain_taken (hdraining : e.svc h = 1) :
    e.cancelDrain h = (e.setHead h { e.head h with drainCancel := true }).done := if_neg (not_not.mpr hdraining)

/-- A request that is done by an update of one head leaves the other heads and everything else alone. -/
theorem completes_of_setHead_done {c : Instr} {s : State} {x : Head} (hc : Becomes c s (s.e.setHead h x).done) :
    Completes c s (fun t => t.e.head h = x ∧ (∀ j, j ≠ h → t.e.head j = s.e.head j) ∧
      t = { s with e := { s.e with care.heads := t.e.care.heads, sdo := 0, sdoData := [] } }) :=
  hc.completes ⟨(s.e.head_setHead h h x).trans (if_pos rfl), fun j hj => (s.e.head_setHead h j x).trans (if_neg hj), rfl⟩

end Eclipse

/-- Settles O25: each request by the service state of its head. -/
theorem eclipseCommands : Obligations.EclipseCommands := by
  intro s h hs
  have heclipse : Becomes (.headEclipse h) s (s.e.headEclipse h.val) :=
    becomes_of_request (idx := 0x2521) (f := fun e => e.headEclipse h.val) rfl hs
  have hcancel : Becomes (.headCancelDrain h) s (s.e.cancelDrain h.val) :=
    becomes_of_request (idx := 0x2521) (f := fun e => e.cancelDrain h.val) rfl hs
  refine ⟨?_, ?_, ?_, ?_⟩
  · intro hstate
    rwa [s.e.headEclipse_refused h.val hstate] at heclipse
  · intro hservice hpasses
    rw [s.e.headEclipse_taken h.val hservice hpasses] at heclipse
    exact completes_of_setHead_done h.val heclipse
  · intro hstate
    rwa [s.e.cancelDrain_refused h.val hstate] at hcancel
  · intro hdraining
    rw [s.e.cancelDrain_taken h.val hdraining] at hcancel
    exact completes_of_setHead_done h.val hcancel

end Sys2Proof.Machine

/-! Compose lines (R167): a band beyond its byte refutes the statement. 2780h + h:04h holds 0 to 3, but the statement ranges over
every number, and the entry that would hold the threshold of a larger band may be the band of another head, which the same
compose line updates first. Bands of one byte stay clear of each other's keys. -/

namespace Sys2Proof.Machine

/-- The band whose threshold in bank 0 is read under the key of the band of head 0. -/
def strayBand : Nat := ekey 0x2780 4 - ekey 0x2440 1

/-- Compose of line 0 is due for bank 0. Head 0, in band 1, has no valid temperature; head 1, at temperature 0 with hysteresis 0,
is in band `strayBand`. -/
def strayBandState : State :=
  { e := { mode := .running
           d := { dict := [(ekey 0x2440 5, 0), (ekey 0x2700 0x0B, 1), (ekey 0x2780 4, 1), (ekey 0x2781 4, strayBand)] }
           pan := { banks := 1, flight := some {} }
           path := { cutFor := some 0 }
           care := { heads := [(1, { tempValid := true })] } } }

/-- Head 0 goes to band 0 first, so that the threshold of head 1's band is 0 and its band stays. -/
theorem get_lineStart_strayBandState : strayBandState.e.lineStart.get (0x2780 + 1) 4 = strayBand := by decide +kernel

/-- By the entries before the line, the threshold of head 1's band is 1, and its band falls by one. -/
theorem nextBand_strayBandState :
    nextBand (fun k => strayBandState.e.get (0x2440 + 1 / 16) (k + 1)) (strayBandState.e.get (0x2440 + 1 / 16) 5)
      (strayBandState.e.get (0x2100 + 1) 6) (strayBandState.e.get (0x2780 + 1) 4) = strayBand - 1 := by decide

/-- A command leaves one state: what it completes with holds of the state it becomes. -/
theorem Becomes.of_completes {c : Instr} {s : State} {e : Engine} {P : State → Prop} (h : Becomes c s e)
    (hP : Completes c s P) : P { s with e := e } := by
  obtain ⟨t, hnext, hP⟩ := hP
  obtain rfl := Host.Outcome.next.inj (hnext.symm.trans h)
  exact hP

/-- Refutes O27: bands are stated by the entries before the line, but the threshold of a band beyond its byte may be an entry that
the line has changed. -/
theorem not_composeLines : ¬ Obligations.ComposeLines := by
  intro hall
  obtain ⟨-, -, hstarts, -⟩ := hall strayBandState rfl
  have hstart : Becomes .composeLineStart strayBandState strayBandState.e.lineStart := becomes_of_whenLive rfl rfl
  obtain ⟨-, -, hbands⟩ := hstart.of_completes (hstarts {} (by decide) rfl rfl (by decide))
  have hfalls := (hbands 1 (by decide)).trans ((if_pos rfl).trans nextBand_strayBandState)
  dsimp only at hfalls
  exact absurd (get_lineStart_strayBandState.symm.trans hfalls) (by decide)

end Sys2Proof.Machine

/-! Frames (R171 to R173): the next frame of a head, and a frame that its deadline cuts. -/

namespace Sys2Proof.Machine

/-! The next frame of a head (R171) -/

section Frames

variable (e : Engine) {f : Flight} {h : Nat}

/-- The slice-lines that frame line `D` of head `h` carries. -/
def Engine.carriedLines (e : Engine) (t h D : Nat) : List (Option SliceLine) :=
  (List.range 32).map fun i => e.carried t h i D

/-- The engine that has taken the next frame of head `h`. -/
def Engine.nextFrame (e : Engine) (h : Nat) : Engine := e.setHead h { e.head h with frame := (e.head h).frame + 1 }

theorem Engine.head_nextFrame (h j : Nat) : (e.nextFrame h).head j =
    if j = h then { e.head h with frame := (e.head h).frame + 1 } else e.head j := e.head_setHead _ _ _

theorem Engine.serialize_over (hflight : e.pan.flight = some f) (hover : e.linesC ≤ (e.head h).frame)
    (readback : List (Fin 32)) : e.serialize h readback = e := by
  simp [Engine.serialize, hflight, hover]

/-- R171, R173: with PLL-B locked and every slice-line read back as it was stored, the frame of a serving head with nothing to
blank is sent, and that of a head that does not serve is sent BLANK. -/
theorem Engine.serialize_sends (hflight : e.pan.flight = some f) (hret : f.ret = false)
    (hstore : e.storeHeads.contains h = true) (hleft : (e.head h).frame < e.linesC) (hdue : (e.head h).frame ≤ f.line)
    (hlocked : e.get 0x4282 1 = 2)
    (hgood : ∀ y, some y ∈ e.carriedLines f.t h (e.head h).frame → y.check = checkWord y.codes)
    (hcause : (e.head h).serving = true →
      e.frameCause f h (e.head h).frame (e.carriedLines f.t h (e.head h).frame) false = 0) :
    e.serialize h [] =
      (e.nextFrame h).sendLine f h (e.head h).frame (!(e.head h).serving) (e.carriedLines f.t h (e.head h).frame) := by
  have hruns : ¬ (f.ret = true ∨ e.linesC ≤ (e.head h).frame ∨ f.line < (e.head h).frame ∨
      (!e.storeHeads.contains h) = true) := by
    simp [hret, hstore, Nat.not_le.mpr hleft, Nat.not_lt.mpr hdue, - List.contains_eq_mem]
  rw [Engine.serialize, hflight]
  dsimp -zeta only
  extract_lets x D ls bads counted next down _ bypassed cause sent blanked
  rw [if_neg hruns]
  have hbads : bads = [] := by
    refine List.filter_eq_nil_iff.mpr fun i hi => ?_
    have hslice : ls.getD i none ∈ ls := by
      rw [List.getD_eq_getElem _ _ (by simpa [ls] using hi)]
      exact List.getElem_mem _
    cases hline : ls.getD i none with
    | none => simp
    | some y => simp [SliceLine.readBad, hgood y (hline ▸ hslice)]
  have hnext : next = e.nextFrame h := congrArg (Engine.setHead · h _) (if_pos (congrArg List.isEmpty hbads))
  have hdown : down = false := by
    have hget : next.get 0x4282 1 = 2 := hnext ▸ hlocked
    simp [down, hget]
  have hbypassed : bypassed = e.nextFrame h := (if_neg (by simp [hdown])).trans hnext
  cases hserving : (e.head h).serving with
  | false =>
    rw [if_pos (by simp), if_neg (by simp [hdown]), hbypassed]
    rfl
  | true =>
    have hnone : cause = 0 := by
      refine (if_neg (by simp [hdown])).trans (Eq.trans ?_ (hcause hserving))
      rw [hbypassed, hbads]
      rfl
    have hsent : sent = bypassed.sendLine f h D (cause != 0) ls := if_neg (by simp [hdown])
    rw [if_neg (by simp), if_pos hnone, hsent, hnone, hbypassed]
    rfl

/-- The codes that a frame carries for a slice. -/
def sentCodes (blank : Bool) (l : Option SliceLine) : List Nat :=
  l.elim (List.replicate 64 0) fun y => if blank ∨ y.codes = [] then List.replicate 64 0 else y.codes

/-- The LINE frame of line `D` of head `h`. -/
def Engine.frameOf (e : Engine) (f : Flight) (h D : Nat) (blank : Bool) (ls : List (Option SliceLine)) : List Byte :=
  lineFrame (e.flag (0x3100 + h) 0x0C && e.get (0x3100 + h) 0x0E != 1) blank f.reverse (e.lineSeq h D)
    ((List.range 32).map fun i => (e.geo f.t).tt h i % 32) (ls.map (sentCodes blank))

/-- R187: the second byte of a LINE frame is its flags. -/
theorem lineFrame_flags (warm blank reverse : Bool) (seq : Nat) (fds : List Nat) (slices : List (List Nat)) :
    (lineFrame warm blank reverse seq fds slices).getD 1 0 =
      (if warm then 1 else 0) + (if blank then 2 else 0) + (if reverse then 4 else 0) := by
  cases warm <;> cases blank <;> cases reverse <;> rfl

/-- R171, R194: a frame goes out, and its head awaits one more echo. -/
theorem Engine.sendLine_eq (D : Nat) (blank : Bool) (ls : List (Option SliceLine)) : ∃ y : Head,
    e.sendLine f h D blank ls = (e.setHead h y).send (.line h (e.frameOf f h D blank ls)) ∧
      y.frame = (e.head h).frame ∧ y.echoes.length = (e.head h).echoes.length + 1 := by
  have hcodes (l : Option SliceLine) : sentCodes blank l = match l with
      | some y => if blank ∨ y.codes = [] then List.replicate 64 0 else y.codes
      | none => List.replicate 64 0 := by
    cases l <;> rfl
  rw [Engine.frameOf, funext hcodes]
  exact ⟨_, rfl, rfl, List.length_append⟩

/-- The next frame of a head goes out: entries, panel and the other heads stay. -/
theorem Engine.nextFrame_sends (blank : Bool) (ls : List (Option SliceLine)) (x : Engine)
    (hx : x = (e.nextFrame h).sendLine f h (e.head h).frame blank ls) :
    x.out = .line h (e.frameOf f h (e.head h).frame blank ls) :: e.out ∧ (x.head h).frame = (e.head h).frame + 1 ∧
      (x.head h).echoes.length = (e.head h).echoes.length + 1 ∧ (∀ j, j ≠ h → x.head j = e.head j) ∧
      x.d = e.d ∧ x.pan = e.pan := by
  obtain ⟨y, hsent, hframe, hechoes⟩ := (e.nextFrame h).sendLine_eq (f := f) (h := h) (e.head h).frame blank ls
  have hnext := (e.head_nextFrame h h).trans (if_pos rfl)
  have hfr : (e.nextFrame h).frameOf f h (e.head h).frame blank ls = e.frameOf f h (e.head h).frame blank ls := by
    rw [Engine.frameOf, Engine.lineSeq, hnext]
    rfl
  rw [hfr] at hsent
  subst hx
  rw [hsent]
  have hhead (j : Nat) : ((e.nextFrame h).setHead h y).head j = if j = h then y else (e.nextFrame h).head j :=
    Engine.head_setHead _ _ _ _
  have hown := (hhead h).trans (if_pos rfl)
  rw [hnext] at hframe hechoes
  refine ⟨rfl, ?_, ?_, fun j hj => ?_, rfl, rfl⟩
  · exact (congrArg Head.frame hown).trans hframe
  · exact (congrArg (·.echoes.length) hown).trans hechoes
  · exact (hhead j).trans ((if_neg hj).trans ((e.head_nextFrame h j).trans (if_neg hj)))

end Frames

/-! Entries that no demand and no service state is read from -/

section Demands

variable (e : Engine) {i j v : Nat}

theorem Engine.svc_put (hi : i ≠ 0x2520) (hj : j < 256) {h : Nat} (hh : h < 128) : (e.put i j v).svc h = e.svc h :=
  Engine.get_put_other _ hj (by omega) fun hsame => hi hsame.1.symm

theorem Engine.haltDemand_put (hi : i ≠ 0x4200) (hj : j < 256) : (e.put i j v).haltDemand = e.haltDemand := by
  have hstage : (e.put i j v).stage = e.stage := Engine.get_put_other _ hj (by decide) fun hsame => hi hsame.1.symm
  simp only [Engine.haltDemand, Engine.haltCond, hstage]
  rfl

theorem Engine.blankDemand_put (hi : i < 0x3000) (hj : j < 256) : (e.put i j v).blankDemand = e.blankDemand := by
  have hstage : (e.put i j v).stage = e.stage := Engine.get_put_other _ hj (by decide) (by omega)
  have haxis (a : Nat) : (e.put i j v).get (0x3000 + 16 * a) 2 = e.get (0x3000 + 16 * a) 2 :=
    Engine.get_put_other _ hj (by decide) (by omega)
  simp only [Engine.blankDemand, Engine.stopDemand, Engine.haltCond, Engine.stopCond, hstage, haxis]
  rfl

end Demands

/-! A frame beyond its deadline (R172) -/

section Cut

variable (e : Engine) {f : Flight} {h : Nat}

/-- Whether line `D` of a head would have fired: its frame was sent without BLANK, or is still to be sent. -/
def Head.wouldFire (x : Head) (D : Nat) : Bool :=
  match x.echoes.find? (fun c => c.line == D) with
  | some c => !c.blank
  | none => decide (x.frame ≤ D)

/-- The head once the frame of line `D` is cut. -/
def Head.cutAt (x : Head) (D : Nat) : Head :=
  { x with cut := some D, frame := max x.frame (D + 1), echoes := x.echoes.filter (fun c => c.line != D) }

/-- The engine once the frame of line `D` of head `h` is cut and counted. -/
def Engine.frameCut (e : Engine) (h D : Nat) : Engine := (e.setHead h ((e.head h).cutAt D)).bump 0x2700 6 1

/-- R172: a frame that is late is cut and counted, and a line that would have fired is blanked. -/
theorem Engine.cutFrame_late (hflight : e.pan.flight = some f) (hret : f.ret = false)
    (hstore : e.storeHeads.contains h = true) (hleft : f.line < e.linesC) (hcut : (e.head h).cut ≠ some f.line)
    (hframe : (e.head h).frame ≤ f.line + 1) :
    e.cutFrame h = if (e.head h).serving ∧ (e.head h).wouldFire f.line then
        (e.frameCut h f.line).blankLine f.t h f.line (if (e.frameCut h f.line).blankDemand ∨ f.gated then 5
          else if 3 ≤ (e.frameCut h f.line).svc h then 2 else 4) 3
      else e.frameCut h f.line := by
  have hruns : ¬ (f.ret = true ∨ e.linesC ≤ f.line ∨ (e.head h).cut = some f.line ∨ f.line + 1 < (e.head h).frame ∨
      (!e.storeHeads.contains h) = true) := by
    simp [hret, hstore, hcut, Nat.not_le.mpr hleft, Nat.not_lt.mpr hframe, - List.contains_eq_mem]
  rw [Engine.cutFrame, hflight]
  exact if_neg hruns

theorem Engine.head_frameCut (D j : Nat) : (e.frameCut h D).head j = if j = h then (e.head h).cutAt D else e.head j :=
  Engine.head_setHead _ _ _ _

theorem Engine.get_frameCut (D : Nat) :
    (e.frameCut h D).get 0x2700 6 = satAdd (entBits 0x2700 6) (e.get 0x2700 6) 1 := Engine.get_put_same _ _ _ _

end Cut

theorem framesSent : Says.FramesSent := by
  rintro s h f _ _ hlive hflight rfl rfl hret hstore
  have hserialize : Becomes (.frameSerialize h []) s (s.e.serialize h.val []) :=
    becomes_of_whenLive (f := fun e => e.serialize h.val []) rfl hlive
  have hcut : Becomes (.serializeDeadline h) s (s.e.cutFrame h.val) :=
    becomes_of_whenLive (f := fun e => e.cutFrame h.val) rfl hlive
  refine ⟨?_, ?_, ?_, ?_, ?_⟩
  · intro hover
    rwa [s.e.serialize_over hflight hover] at hserialize
  · intro hleft hdue hlocked hserving hgood hcause
    have hsent := s.e.serialize_sends hflight hret hstore hleft hdue hlocked hgood fun _ => hcause
    rw [hserving] at hsent
    obtain ⟨hout, hframe, hechoes, hothers, hd, hpan⟩ := s.e.nextFrame_sends _ _ _ hsent
    refine hserialize.completes ⟨hout.trans ?_, hframe, hechoes, hothers, hd, hpan⟩
    refine congrArg (fun codes => Output.line h.val (lineFrame _ false _ _ _ codes) :: s.e.out)
      (List.map_congr_left fun l _ => ?_)
    cases l with
    | none => rfl
    | some y => simp [sentCodes]
  · intro hleft hdue hlocked hserving hgood
    have hsent := s.e.serialize_sends hflight hret hstore hleft hdue hlocked hgood fun hserves =>
      Bool.noConfusion (hserving.symm.trans hserves)
    rw [hserving] at hsent
    obtain ⟨hout, hframe, -, -, hd, hpan⟩ := s.e.nextFrame_sends _ _ _ hsent
    exact hserialize.completes ⟨_, hout, lineFrame_flags _ _ _ _ _ _, hframe, hd, hpan⟩
  · intro hleft hnew hframe hserving
    rw [s.e.cutFrame_late hflight hret hstore hleft hnew hframe, if_neg (by simp [hserving])] at hcut
    refine hcut.completes ⟨?_, s.e.get_frameCut _, fun k hk => ?_, fun j hj => ?_⟩
    · exact (s.e.head_frameCut _ _).trans (if_pos rfl)
    · exact (Engine.ent_put _ _ _ _ k).trans (if_neg hk)
    · exact (s.e.head_frameCut _ _).trans (if_neg hj)
  · intro hleft hnew hframe hserving hechoes hdemand hgated hservice
    have hfires : (s.e.head h.val).wouldFire f.line = true := by simp [Head.wouldFire, hechoes, hframe]
    have hblank : (s.e.frameCut h.val f.line).blankDemand = false :=
      (Engine.blankDemand_put _ (i := 0x2700) (by decide) (by decide)).trans hdemand
    have hsvc : (s.e.frameCut h.val f.line).svc h.val = s.e.svc h.val :=
      Engine.svc_put _ (i := 0x2700) (by decide) (by decide) h.isLt
    have hhead := (s.e.head_frameCut (h := h.val) f.line h.val).trans (if_pos rfl)
    rw [s.e.cutFrame_late hflight hret hstore hleft hnew (by omega), if_pos ⟨hserving, hfires⟩,
      if_neg (by simp [hblank, hgated]), if_neg (by omega)] at hcut
    refine hcut.completes ⟨_, rfl, congrArg Head.cut hhead, ?_, s.e.get_frameCut _⟩
    exact (congrArg Head.frame hhead).trans (max_eq_right (by omega))

end Sys2Proof.Machine

/-! Ticks, strobes and their watchdog (R160, R177, R178). -/

namespace Sys2Proof.Machine

/-! A head at the tick of its line (R177) -/

section Firing

variable (e : Engine) {f : Flight} {h m : Nat}

theorem Engine.storeHeads_congr {a b : Engine} (hpan : a.pan = b.pan) (hsvc : ∀ h < 128, a.svc h = b.svc h) :
    a.storeHeads = b.storeHeads := by
  refine List.filter_congr fun h hh => ?_
  rw [Engine.populated, Engine.populated, hpan, hsvc h (List.mem_range.mp hh)]

theorem Engine.lt_of_mem_storeHeads (hh : h ∈ e.storeHeads) : h < 128 :=
  List.mem_range.mp (List.mem_of_mem_filter hh)

/-- The frame of the line in flight is there and its pulse is not withheld. -/
def Engine.sound (e : Engine) (f : Flight) (h : Nat) : Prop :=
  f.line < (e.head h).frame ∧ e.withheld f h f.line = none

theorem Engine.withheld_put {i j v : Nat} (hhalt : i ≠ 0x4200) (hstate : i ≠ 0x2520) (hj : j < 256) (hh : h < 128) :
    (e.put i j v).withheld f h m = e.withheld f h m := by
  rw [Engine.withheld, e.svc_put hstate hj hh, e.haltDemand_put hhalt hj]
  rfl

theorem Engine.head_deadlineMet (stage k seq : Nat) : (e.deadlineMet stage k seq).head h = e.head h := by
  simp only [Engine.deadlineMet]
  split_ifs <;> rfl

theorem Engine.withheld_deadlineMet {stage k seq : Nat} (hstage : stage < 200) (hh : h < 128) :
    (e.deadlineMet stage k seq).withheld f h m = e.withheld f h m := by
  simp only [Engine.deadlineMet]
  split_ifs
  · rw [Engine.withheld_put _ (by decide) (by decide) (by omega) hh,
      Engine.withheld_put _ (by decide) (by decide) (by omega) hh]
  · rfl

/-- The head with its strobe raised and the echo of line `m` due. -/
def Head.strobed (x : Head) (m : Nat) : Head :=
  { x with strobeHigh := true, echoes := x.echoes.map (fun c => if c.line = m then { c with fired := true } else c) }

theorem Engine.head_strobeHead (k j : Nat) : (e.strobeHead k m).head j = if j = k then (e.head k).strobed m else e.head j :=
  Engine.head_setHead _ _ _ _

theorem Head.all_strobed (x : Head) :
    (x.strobed m).echoes.all (fun c => c.line != m) = x.echoes.all (fun c => c.line != m) := by
  have hline (c : Echo) : (if c.line = m then { c with fired := true } else c).line = c.line := by split_ifs <;> rfl
  rw [Head.strobed, List.all_map]
  exact congrArg x.echoes.all (funext fun c => congrArg (· != m) (hline c))

/-- A raised strobe withholds no pulse: the frame of the line still awaits its echo. -/
theorem Engine.withheld_strobeHead (k : Nat) : (e.strobeHead k m).withheld f h m = e.withheld f h m := by
  have hhead := e.head_strobeHead (m := m) k h
  by_cases hk : h = k
  · rw [if_pos hk, ← hk] at hhead
    rw [hk, Engine.withheld, ← hk, hhead, Head.all_strobed]
    rfl
  · rw [if_neg hk] at hhead
    rw [Engine.withheld, hhead]
    rfl

/-- R177: a sound head raises its strobe; its line may first meet the deadline. -/
theorem Engine.fireHead_sound (hsound : e.sound f h) : ∃ x : Engine,
    (x = e ∨ x = e.deadlineMet 3 h (e.lineSeq h f.line)) ∧ e.fireHead f h f.line = x.strobeHead h f.line := by
  obtain ⟨hframe, hnone⟩ := hsound
  rw [Engine.fireHead, if_neg (Nat.not_le.mpr hframe), hnone]
  dsimp only
  split
  · exact ⟨_, .inr rfl, rfl⟩
  · exact ⟨_, .inl rfl, rfl⟩

end Firing

/-! The tick of a line (R160) -/

section Ticks

variable (e : Engine) {f : Flight} {h : Nat}

/-- Heads of the store of `e` have fired at the tick of `f`: all are still sound, and among other heads, entries and panel only the
least slack of the stage and its line have changed. -/
structure Engine.Ticking (e : Engine) (f : Flight) (x : Engine) : Prop where
  sound : ∀ h ∈ e.storeHeads, x.sound f h
  others : ∀ h, h ∉ e.storeHeads → x.head h = e.head h
  pan : x.pan = e.pan
  ent : ∀ k, k ≠ 0x411007 → k ≠ 0x41100B → x.ent k = e.ent k

theorem Engine.Ticking.deadlineMet {x : Engine} (hx : e.Ticking f x) (k seq : Nat) :
    e.Ticking f (x.deadlineMet 3 k seq) where
  sound := fun h hh => by
    obtain ⟨hframe, hnone⟩ := hx.sound h hh
    rw [Engine.sound, Engine.head_deadlineMet, x.withheld_deadlineMet (by decide) (e.lt_of_mem_storeHeads hh)]
    exact ⟨hframe, hnone⟩
  others := fun h hh => (x.head_deadlineMet 3 k seq).trans (hx.others h hh)
  pan := (x.pan_deadlineMet 3 k seq).trans hx.pan
  ent := fun j hslack hline => (x.ent_deadlineMet 3 k seq hslack hline).trans (hx.ent j hslack hline)

theorem Engine.Ticking.strobeHead {x : Engine} (hx : e.Ticking f x) (hh : h ∈ e.storeHeads) :
    e.Ticking f (x.strobeHead h f.line) where
  sound := fun j hj => by
    obtain ⟨hframe, hnone⟩ := hx.sound j hj
    refine ⟨?_, (x.withheld_strobeHead h).trans hnone⟩
    rw [Engine.head_strobeHead]
    split_ifs with hsame
    · exact hsame ▸ hframe
    · exact hframe
  others := fun j hj => (x.head_strobeHead h j).trans ((if_neg (by rintro rfl; exact hj hh)).trans (hx.others j hj))
  pan := hx.pan
  ent := hx.ent

/-- A head that fires raises its strobe, and no strobe falls. -/
theorem Engine.Ticking.fireHead {x : Engine} (hx : e.Ticking f x) (hh : h ∈ e.storeHeads) :
    e.Ticking f (x.fireHead f h f.line) ∧ ((x.fireHead f h f.line).head h).strobeHigh = true ∧
      ∀ j, (x.head j).strobeHigh = true → ((x.fireHead f h f.line).head j).strobeHigh = true := by
  obtain ⟨y, hy, hfire⟩ := x.fireHead_sound (hx.sound h hh)
  have hmet : e.Ticking f y ∧ ∀ j, y.head j = x.head j := by
    rcases hy with rfl | rfl
    · exact ⟨hx, fun _ => rfl⟩
    · exact ⟨hx.deadlineMet _ _ _, fun _ => x.head_deadlineMet _ _ _⟩
  obtain ⟨hticking, hhead⟩ := hmet
  have hstrobed := y.head_strobeHead (m := f.line) h
  rw [hfire]
  refine ⟨hticking.strobeHead _ hh, ?_, fun j hj => ?_⟩
  · rw [hstrobed, if_pos rfl]
    rfl
  · rw [hstrobed, hhead j]
    split_ifs
    · rfl
    · exact hj

/-- The heads of the store fire the line in flight. -/
def Engine.strobes (e : Engine) (f : Flight) : Engine := e.each e.storeHeads fun e h => e.fireHead f h f.line

theorem Engine.strobes_sound (hsound : ∀ h ∈ e.storeHeads, e.sound f h) :
    e.Ticking f (e.strobes f) ∧ ∀ h ∈ e.storeHeads, ((e.strobes f).head h).strobeHigh = true := by
  have hstart : e.Ticking f e := ⟨hsound, fun _ _ => rfl, rfl, fun _ _ _ => rfl⟩
  refine ⟨List.foldlRecOn e.storeHeads _ hstart fun x hx h hh => (hx.fireHead e hh).1, ?_⟩
  exact foldl_reaches (I := e.Ticking f) (P := fun h x => (x.head h).strobeHigh = true) e.storeHeads e hstart
    fun x hx h hh => hx.fireHead e hh

/-- The engine whose time to the next tick counts from `since`. -/
def Engine.countFrom (e : Engine) (since : Int) : Engine := { e with path.sinceTick := since }

/-- The engine as a tick within a transit begins: the interval `gap` since the last one is published. -/
def Engine.beginTick (e : Engine) (gap : Nat) (since : Int) : Engine := (e.put 0x2700 0x0C gap).countFrom since

/-- The engine whose transit goes on from the line of `f` to the next. -/
def Engine.nextLine (e : Engine) (f : Flight) : Engine :=
  match e.pan.flight with
  | some g => { e with pan.flight := some { g with line := f.line + 1 } }
  | none => e

theorem Engine.nextLine_flight (hflight : e.pan.flight = some f) :
    e.nextLine f = ({ e with pan.flight := some { f with line := f.line + 1 } } : Engine) := by
  simp only [Engine.nextLine, hflight]

theorem Engine.meridian_noFlight (hflight : e.pan.flight = none) : e.meridian = e := by
  simp only [Engine.meridian, hflight]

theorem Engine.meridian_early (hflight : e.pan.flight = some f) (hready : e.tickReady f = false) : e.meridian = e := by
  simp only [Engine.meridian, hflight, hready]
  rfl

/-- R160, R177: a tick within a transit fires its line and moves to the next one. -/
theorem Engine.meridian_ticks (hflight : e.pan.flight = some f) (hready : e.tickReady f = true) (hline : 0 < f.line) :
    ∃ gap since, e.meridian = ((e.beginTick gap since).strobes f).nextLine f := by
  have hruns : ¬ (!e.tickReady f) = true := by simp [hready]
  rw [Engine.meridian, hflight]
  dsimp -zeta only
  extract_lets ahead off gap published _ begun fired
  have hpublished : published = e.put 0x2700 0x0C (gap * 5 / 4).toNat := if_neg (by omega)
  have hbegun : begun = e.beginTick (gap * 5 / 4).toNat (-off) := congrArg (Engine.countFrom · (-off)) hpublished
  exact ⟨_, _, (if_neg hruns).trans (congrArg (fun x : Engine => (x.strobes f).nextLine f) hbegun)⟩

theorem Engine.storeHeads_beginTick (gap : Nat) (since : Int) : (e.beginTick gap since).storeHeads = e.storeHeads :=
  Engine.storeHeads_congr rfl fun h hh => e.svc_put (i := 0x2700) (by decide) (by decide) hh

theorem Engine.sound_beginTick (gap : Nat) (since : Int) (hh : h < 128) (hsound : e.sound f h) :
    (e.beginTick gap since).sound f h :=
  And.imp_right (e.withheld_put (i := 0x2700) (by decide) (by decide) (by decide) hh).trans hsound

end Ticks

/-! The end of a pulse, and the strobe watchdog (R177, R178) -/

section Strobes

variable (e : Engine) {h : Nat}

theorem Engine.head_strobeLow (k j : Nat) :
    (e.strobeLow k).head j = if j = k then { e.head k with strobeHigh := false } else e.head j := by
  rw [Engine.strobeLow]
  split_ifs with hhigh hj hj
  · exact (Engine.head_setHead _ _ _ _).trans (if_pos hj)
  · exact (Engine.head_setHead _ _ _ _).trans (if_neg hj)
  · rw [hj, ← Bool.eq_false_iff.mpr hhigh]
  · rfl

/-- A strobe that falls changes its head and what is sent, and nothing else. -/
theorem Engine.strobeLow_eq (k : Nat) : ∃ heads out, e.strobeLow k = { e with care.heads := heads, out := out } := by
  rw [Engine.strobeLow]
  split_ifs <;> exact ⟨_, _, rfl⟩

theorem Engine.each_strobeLow_eq (ks : List Nat) :
    ∃ heads out, e.each ks Engine.strobeLow = { e with care.heads := heads, out := out } := by
  refine List.foldlRecOn (motive := fun x : Engine => ∃ heads out, x = { e with care.heads := heads, out := out }) ks _
    ⟨e.care.heads, e.out, rfl⟩ fun x hx k _ => ?_
  obtain ⟨_, _, rfl⟩ := hx
  exact Engine.strobeLow_eq _ k

theorem Engine.head_each_strobeLow (ks : List Nat) (j : Nat) :
    (e.each ks Engine.strobeLow).head j = if j ∈ ks then { e.head j with strobeHigh := false } else e.head j := by
  induction ks generalizing e with
  | nil => rfl
  | cons k ks ih =>
    refine (ih (e.strobeLow k)).trans ?_
    rw [e.head_strobeLow k j]
    by_cases hj : j = k
    · simp [hj]
    · simp [hj]

theorem mem_bankHeads (b h : Nat) : h ∈ (List.range 16).map (· + 16 * b) ↔ h / 16 = b := by
  simp only [List.mem_map, List.mem_range]
  constructor
  · rintro ⟨i, hi, rfl⟩
    omega
  · exact fun hh => ⟨h % 16, by omega, by omega⟩

/-- The engine once the watchdog holds the strobe of head `h` low and counts it. -/
def Engine.heldLow (e : Engine) (h : Nat) : Engine :=
  ((e.strobeLow h).setHead h { (e.strobeLow h).head h with wdHold := true }).bump 0x2700 9 1

theorem Engine.head_heldLow : (e.heldLow h).head h = { e.head h with strobeHigh := false, wdHold := true } := by
  refine (Engine.head_setHead _ _ _ _).trans ((if_pos rfl).trans ?_)
  rw [e.head_strobeLow h h, if_pos rfl]

theorem Engine.pan_heldLow : (e.heldLow h).pan = e.pan := by
  obtain ⟨_, _, hlow⟩ := e.strobeLow_eq h
  rw [Engine.heldLow, hlow]
  rfl

theorem Engine.d_heldLow : (e.heldLow h).d = (e.bump 0x2700 9 1).d := by
  obtain ⟨_, _, hlow⟩ := e.strobeLow_eq h
  rw [Engine.heldLow, hlow]
  rfl

theorem Engine.head_dropHead :
    (e.dropHead h).head h = { e.head h with inSweep := false, todo := [], meas := false } := by
  simp only [Engine.dropHead]
  split_ifs <;> exact (e.head_setHead h h _).trans (if_pos rfl)

theorem Engine.get_dropHead (i j : Nat) : (e.dropHead h).get i j = e.get i j := by
  simp only [Engine.dropHead]
  split_ifs <;> rfl

theorem Engine.head_enterLost :
    (e.enterLost h).head h = { e.head h with inSweep := false, todo := [], meas := false } := Engine.head_dropHead _

theorem Engine.get_enterLost (i j : Nat) : (e.enterLost h).get i j = (e.setSvc h 3).get i j := Engine.get_dropHead _ _ _

theorem Engine.strobeTrip_low (hlow : (e.head h).strobeHigh = false) : e.strobeTrip h = e := by
  simp [Engine.strobeTrip, hlow]

/-- R178: outside a transit, the head in service whose strobe stays high is Lost, and the message gives its line 0. -/
theorem Engine.strobeTrip_high (hhigh : (e.head h).strobeHigh = true) (hservice : (e.heldLow h).svc h = 0)
    (hflight : e.pan.flight = none) :
    e.strobeTrip h = ((e.heldLow h).enterLost h).raise 5 0x0A (detailH h 0 ((e.heldLow h).lineSeq h 0)) := by
  have hlost : ¬ ((e.heldLow h).svc h = 6 ∨ (e.heldLow h).svc h = 4) := by simp [hservice]
  have hheld : (e.heldLow h).pan.flight = none := (congrArg Panels.flight e.pan_heldLow).trans hflight
  rw [Engine.strobeTrip, if_neg (by simp [hhigh])]
  change Engine.raise (if (e.heldLow h).svc h = 6 ∨ (e.heldLow h).svc h = 4 then e.heldLow h else (e.heldLow h).enterLost h)
    5 0x0A (detailH h 0 (match (e.heldLow h).pan.flight with
      | some f => (e.heldLow h).lineSeq h (f.line - 1)
      | none => (e.heldLow h).lineSeq h 0)) = _
  rw [if_neg hlost, hheld]

theorem Engine.detail_heldLow :
    detailH h 0 ((e.heldLow h).lineSeq h 0) = h * 2 ^ 33 + (e.head h).portLine % 65536 := by
  rw [detailH, Engine.lineSeq, Engine.head_heldLow]
  simp

end Strobes

theorem firingTicks : Says.FiringTicks := by
  intro s hlive
  have htick : Becomes .meridianTick s s.e.meridian := becomes_of_whenLive rfl hlive
  have htrip (h : Fin 128) : Becomes (.strobeWatchdogTrip h) s (s.e.strobeTrip h.val) :=
    becomes_of_whenLive (f := fun e => e.strobeTrip h.val) rfl hlive
  refine ⟨?_, ?_, ?_, ?_, ?_, ?_⟩
  · intro hflight
    rwa [s.e.meridian_noFlight hflight] at htick
  · intro f hflight hearly
    rwa [s.e.meridian_early hflight hearly] at htick
  · intro f hflight hready hline hheads
    obtain ⟨gap, since, hmeridian⟩ := s.e.meridian_ticks hflight hready hline
    have hstore := s.e.storeHeads_beginTick gap since
    obtain ⟨hticking, hstrobes⟩ := Engine.strobes_sound (f := f) (s.e.beginTick gap since) fun h hh => by
      rw [hstore] at hh
      exact s.e.sound_beginTick gap since (s.e.lt_of_mem_storeHeads hh) (hheads h hh)
    rw [hmeridian, Engine.nextLine_flight _ ((congrArg Panels.flight hticking.pan).trans hflight)] at htick
    refine htick.completes ⟨rfl, fun h hh => hstrobes h (hstore ▸ hh), fun h hh => hticking.others h (hstore ▸ hh), ?_⟩
    exact fun k hgap hslack hline => (hticking.ent k hslack hline).trans ((Engine.ent_put _ _ _ _ k).trans (if_neg hgap))
  · intro b
    have hend : Becomes (.firePulseEnd b) s (s.e.each ((List.range 16).map (· + 16 * b.val)) Engine.strobeLow) :=
      becomes_of_whenLive (f := fun e => e.each ((List.range 16).map (· + 16 * b.val)) Engine.strobeLow) rfl hlive
    have hhead := s.e.head_each_strobeLow ((List.range 16).map (· + 16 * b.val))
    have hrest := s.e.each_strobeLow_eq ((List.range 16).map (· + 16 * b.val))
    generalize s.e.each _ Engine.strobeLow = x at hend hhead hrest
    refine hend.completes ⟨fun h hh => ?_, fun h hh => ?_, ?_⟩
    · exact (hhead h).trans (if_pos ((mem_bankHeads b h).mpr hh))
    · exact (hhead h).trans (if_neg (mt (mem_bankHeads b h).mp hh))
    · obtain ⟨_, _, rfl⟩ := hrest
      rfl
  · intro h hlow
    have hquiet := htrip h
    rwa [s.e.strobeTrip_low hlow] at hquiet
  · intro h hhigh hservice hflight
    have hentries := s.e.d_heldLow (h := h.val)
    have hsvc : (s.e.heldLow h.val).svc h.val = 0 :=
      (Engine.get_of_d hentries _ _).trans ((s.e.svc_put (i := 0x2700) (by decide) (by decide) h.isLt).trans hservice)
    have hhead := (s.e.heldLow h.val).head_enterLost (h := h.val)
    rw [s.e.head_heldLow] at hhead
    have htripped := htrip h
    rw [s.e.strobeTrip_high hhigh hsvc hflight, s.e.detail_heldLow] at htripped
    refine ⟨_, ⟨congrArg Head.strobeHigh hhead, congrArg Head.wdHold hhead, ?_, ?_⟩, htripped⟩
    · exact (Engine.get_enterLost _ _ _).trans (Engine.get_put_same _ _ _ _)
    · have hcount : ((s.e.heldLow h.val).setSvc h.val 3).get 0x2700 9 = (s.e.heldLow h.val).get 0x2700 9 :=
        Engine.get_put_other _ (by omega) (by decide) (by simp)
      exact (Engine.get_enterLost _ _ _).trans (hcount.trans ((Engine.get_of_d hentries _ _).trans (Engine.get_put_same _ _ _ _)))

/-- Settles O28: frames by the head's next line and its deadline, and strobes head by head through the tick. -/
theorem framesAndFiring : Obligations.FramesAndFiring := ⟨framesSent, firingTicks⟩

end Sys2Proof.Machine

/-! Head receivers (R184, R185, R209): detection, loss and realignment. -/

namespace Sys2Proof.Machine

/-! Entries of a head through its updates -/

section HeadEntries

variable (e : Engine) {h i j : Nat}

@[simp] theorem Engine.get_setHead (k : Nat) (x : Head) : (e.setHead k x).get i j = e.get i j := rfl

@[simp] theorem Engine.get_enqueue (c : HeadCmd) : (e.enqueue h c).get i j = e.get i j := rfl

theorem Engine.get_setCheck (k : Nat) (on : Bool) (hj : j < 256) (hne : ¬ (i = headIdx h ∧ j = 0x0E)) :
    (e.setCheck h k on).get i j = e.get i j :=
  Engine.get_put_other _ (by decide) hj hne

theorem headIdx_ne_service (hh : h < 128) : headIdx h ≠ 0x2520 := by
  unfold headIdx
  omega

theorem Engine.svc_put_link (v : Nat) (hh : h < 128) (hj : j < 256) : (e.put (headIdx h) j v).svc h = e.svc h :=
  e.svc_put (headIdx_ne_service hh) hj hh

theorem Engine.get_setSvc_link (v : Nat) (hh : h < 128) (hj : j < 256) :
    (e.setSvc h v).get (headIdx h) j = e.get (headIdx h) j :=
  Engine.get_put_other _ (by omega) hj fun hsame => headIdx_ne_service hh hsame.1

theorem Engine.check_setCheck_true (k : Nat) : (e.setCheck h k true).check h k = true := by
  simp [Engine.check, Engine.setCheck, bit_setBit_true]

theorem Engine.check_enqueue (c : HeadCmd) (k l : Nat) : (e.enqueue h c).check k l = e.check k l := rfl

theorem Engine.get_quarantineEntries : (e.quarantineEntries h).get i j = e.get i j := by
  rw [Engine.quarantineEntries]
  refine Engine.each_keeps e (·.get i j) _ fun x k => ?_
  simp only [Engine.stageField]
  split_ifs <;> rfl

theorem Engine.get_clearChecks (hj : j < 256) (hne : ¬ (i = headIdx h ∧ j = 0x0E)) : (e.clearChecks h).get i j = e.get i j := by
  simp only [Engine.clearChecks, List.foldl_cons, List.foldl_nil, Engine.get_setHead, Engine.get_setCheck _ _ _ hj hne]

/-- R209: but for the checks at 0Eh, entry into Quarantined writes the service state alone. -/
theorem Engine.get_enterQuarantine (hj : j < 256) (hne : ¬ (i = headIdx h ∧ j = 0x0E)) :
    (e.enterQuarantine h).get i j = (e.setSvc h 5).get i j := by
  have hidentity (x : Engine) (up : Prop) [Decidable up] :
      (if up then x.startIdentity h else x).get i j = x.get i j := by
    split_ifs <;> rfl
  rw [Engine.enterQuarantine, hidentity, Engine.get_setHead, Engine.get_setCheck _ _ _ hj hne,
    Engine.get_clearChecks _ hj hne, Engine.get_quarantineEntries]

theorem Engine.svc_enterQuarantine (hh : h < 128) : (e.enterQuarantine h).svc h = 5 := by
  rw [Engine.svc, e.get_enterQuarantine (by omega) fun hsame => headIdx_ne_service hh hsame.1.symm]
  exact e.get_put_same _ _ _

/-- A head that becomes Lost keeps its link entries. -/
theorem Engine.get_enterLost_link (hh : h < 128) (hj : j < 256) :
    (e.enterLost h).get (headIdx h) j = e.get (headIdx h) j :=
  (e.get_enterLost _ _).trans (e.get_setSvc_link 3 hh hj)

theorem Engine.pan_enterLost : (e.enterLost h).pan = e.pan := by
  simp only [Engine.enterLost, Engine.dropHead]
  split_ifs <;> rfl

theorem Engine.lastLine_enterLost : (e.enterLost h).lastLine h = e.lastLine h := by
  simp only [Engine.lastLine, e.head_enterLost, e.pan_enterLost]

end HeadEntries

/-! A receiver that comes up (R184, R185, R209) -/

section Detection

variable (e : Engine) {h : Nat}

/-- The engine that has counted the detection of head `h`, whose CONTROL is at reset. -/
def Engine.linkUp (e : Engine) (h : Nat) : Engine :=
  (((e.setHead h { e.head h with suspended := 0, tempValid := false, stale := false, meas := false, idleWarm := false }).put
    (headIdx h) 1 2).bump (headIdx h) 2 1).setCheck h 4 true

/-- The engine that has also asked the head for its WARM_PERIOD (R255). -/
def Engine.found (e : Engine) (h : Nat) : Engine :=
  (e.linkUp h).enqueue h (writeCmd 0x28 (toLe 2 ((e.linkUp h).get (0x3100 + h) 0x12)))

theorem Engine.get_found_state : (e.found h).get (headIdx h) 1 = 2 := by
  rw [Engine.found, Engine.get_enqueue, Engine.linkUp, Engine.get_setCheck _ _ _ (by decide) (by simp), Engine.bump,
    Engine.get_put_other _ (by decide) (by decide) (by simp), Engine.get_put_same]

theorem Engine.get_found_detections :
    (e.found h).get (headIdx h) 2 = satAdd (entBits (headIdx h) 2) (e.get (headIdx h) 2) 1 := by
  rw [Engine.found, Engine.get_enqueue, Engine.linkUp, Engine.get_setCheck _ _ _ (by decide) (by simp), Engine.bump,
    Engine.get_put_same, Engine.get_put_other _ (by decide) (by decide) (by simp), Engine.get_setHead]

theorem Engine.check_found : (e.found h).check h 4 = true := by
  rw [Engine.found, Engine.check_enqueue]
  exact Engine.check_setCheck_true _ 4

theorem Engine.svc_found (hh : h < 128) : (e.found h).svc h = e.svc h := by
  have hasked : (e.found h).svc h = (e.linkUp h).svc h := Engine.get_enqueue _ _
  rw [hasked, Engine.linkUp, Engine.setCheck, Engine.svc_put_link _ _ hh (by decide), Engine.bump,
    Engine.svc_put_link _ _ hh (by decide), Engine.svc_put_link _ _ hh (by decide)]
  exact e.get_setHead _ _

/-- R209: a head In service or draining keeps its service state. -/
theorem Engine.detected_serving (hh : h < 128) (hserving : e.svc h = 0 ∨ e.svc h = 1) :
    e.detected h = (e.found h).reEval.idleWarm h := by
  rw [← e.svc_found hh] at hserving
  exact congrArg (fun x : Engine => x.reEval.idleWarm h) (if_pos hserving)

/-- R209: a head in any other state goes to Quarantined. -/
theorem Engine.detected_outOfService (hh : h < 128) (hout : 2 ≤ e.svc h) :
    e.detected h = ((e.found h).enterQuarantine h).reEval.idleWarm h := by
  have hnot : ¬ ((e.found h).svc h = 0 ∨ (e.found h).svc h = 1) := by
    rw [e.svc_found hh]
    omega
  exact congrArg (fun x : Engine => x.reEval.idleWarm h) (if_neg hnot)

/-- The engine whose suspended head `h` is up again. -/
def Engine.resumed (e : Engine) (h : Nat) : Engine :=
  (e.put (headIdx h) 1 2).setHead h { e.head h with suspended := 0 }

theorem Engine.receiverUp_already (hup : e.get (headIdx h) 1 = 2) : e.receiverUp h = e := if_pos (.inl hup)

theorem Engine.receiverUp_resumes (hdown : e.get (headIdx h) 1 = 0) (hsuspended : (e.head h).suspended = 3) :
    e.receiverUp h = (e.resumed h).reEval :=
  (if_neg (by simp [hdown])).trans (if_pos hsuspended)

theorem Engine.receiverUp_detects (hdown : e.get (headIdx h) 1 = 0) (hsuspended : (e.head h).suspended = 0) :
    e.receiverUp h = e.detected h :=
  (if_neg (by simp [hdown])).trans (if_neg (by simp [hsuspended]))

end Detection

/-! A receiver that goes down (R184, R212) -/

section Loss

variable (e : Engine) {h : Nat}

/-- The engine whose receiver `h` is down: what was in progress with the head is gone. -/
def Engine.linkDown (e : Engine) (h : Nat) : Engine :=
  ((e.put (headIdx h) 1 0).setCheck h 4 false).setHead h
    { e.head h with suspended := 0, echoes := [], identLeft := 0, inSweep := false, todo := [],
                    queue := (e.head h).queue.filter (fun c => c.host || c.addr < 0x2000 && !(c.ty == 0x10 && identityAddr c.addr)) }

theorem Engine.get_linkDown_state : (e.linkDown h).get (headIdx h) 1 = 0 := by
  rw [Engine.linkDown, Engine.get_setHead, Engine.get_setCheck _ _ _ (by decide) (by simp), Engine.get_put_same]

theorem Engine.get_linkDown_errors : (e.linkDown h).get (headIdx h) 3 = e.get (headIdx h) 3 := by
  rw [Engine.linkDown, Engine.get_setHead, Engine.get_setCheck _ _ _ (by decide) (by simp),
    Engine.get_put_other _ (by decide) (by decide) (by simp)]

theorem Engine.svc_linkDown (hh : h < 128) : (e.linkDown h).svc h = e.svc h := by
  have hdown : (e.linkDown h).svc h = ((e.put (headIdx h) 1 0).setCheck h 4 false).svc h := Engine.get_setHead _ _ _
  rw [hdown, Engine.setCheck, Engine.svc_put_link _ _ hh (by decide), Engine.svc_put_link _ _ hh (by decide)]

theorem Engine.suspended_linkDown : ((e.linkDown h).head h).suspended = 0 := by
  rw [Engine.linkDown, Engine.head_setHead, if_pos rfl]

/-- R184: a head In service is Lost, with 06h:05h. -/
theorem Engine.receiverLost_inService (hh : h < 128) (hservice : e.svc h = 0) :
    e.receiverLost h = (((e.linkDown h).enterLost h).raise 6 5
      (detailH h 0 (((e.linkDown h).enterLost h).lastLine h))).reEval := by
  rw [Engine.lastLine_enterLost]
  exact congrArg Engine.reEval (if_pos (.inl ((e.svc_linkDown hh).trans hservice)))

/-- R184: an Eclipsed head stays as it is. -/
theorem Engine.receiverLost_eclipsed (hh : h < 128) (heclipsed : e.svc h = 2) :
    e.receiverLost h = (e.linkDown h).reEval := by
  have hsvc := (e.svc_linkDown hh).trans heclipsed
  have hout : ¬ ((e.linkDown h).svc h = 0 ∨ (e.linkDown h).svc h = 1) := by simp [hsvc]
  have hchecked : (e.linkDown h).svc h ≠ 5 := by simp [hsvc]
  exact congrArg Engine.reEval ((if_neg hout).trans (if_neg hchecked))

end Loss

/-! The commands of a receiver -/

section ReceiverCommands

variable {s : State} {h : Fin 128}

theorem becomes_retReceiverUp (hlive : s.e.live = true) (hawake : s.e.idle = 0) :
    Becomes (.retReceiverUp h) s (s.e.receiverUp h.val) := by
  have hwoken : Becomes (.retReceiverUp h) s ((if s.e.idle = 1 then s.e.wake 8 else s.e).receiverUp h.val) :=
    becomes_of_whenLive (f := fun e => (if e.idle = 1 then e.wake 8 else e).receiverUp h.val) rfl hlive
  rwa [if_neg (by simp [hawake])] at hwoken

theorem becomes_retReceiverDown (n : Nat) (hlive : s.e.live = true) :
    Becomes (.retReceiverDown h n) s (if s.e.get (headIdx h.val) 1 = 2
      then (s.e.bump (headIdx h.val) 3 n).receiverLost h.val else s.e.bump (headIdx h.val) 3 n) := by
  have hstate : (s.e.bump (headIdx h.val) 3 n).get (headIdx h.val) 1 = s.e.get (headIdx h.val) 1 :=
    Engine.get_put_other _ (by decide) (by decide) (by simp)
  rw [← hstate]
  exact becomes_of_whenLive (f := fun e => if (e.bump (headIdx h.val) 3 n).get (headIdx h.val) 1 = 2
    then (e.bump (headIdx h.val) 3 n).receiverLost h.val else e.bump (headIdx h.val) 3 n) rfl hlive

theorem becomes_retRealignTimeout (hlive : s.e.live = true) :
    Becomes (.retRealignTimeout h) s (if (s.e.head h.val).suspended = 3 ∧ s.e.get (headIdx h.val) 1 ≠ 3
      then s.e.receiverLost h.val else s.e) :=
  becomes_of_whenLive (f := fun e => if (e.head h.val).suspended = 3 ∧ e.get (headIdx h.val) 1 ≠ 3
    then e.receiverLost h.val else e) rfl hlive

end ReceiverCommands

/-- Settles O30: a receiver that comes up by its state and its head's, and one that goes down by its head's. -/
theorem receivers : Obligations.Receivers := by
  intro s h i hlive hi hawake
  obtain rfl : i = headIdx h.val := hi
  have hup : Becomes (.retReceiverUp h) s (s.e.receiverUp h.val) := becomes_retReceiverUp hlive hawake
  have hdown (n : Nat) := becomes_retReceiverDown (h := h) n hlive
  have hrealign := becomes_retRealignTimeout (h := h) hlive
  have hcount (n : Nat) : (s.e.bump (headIdx h.val) 3 n).get (headIdx h.val) 3 =
      satAdd (entBits (headIdx h.val) 3) (s.e.get (headIdx h.val) 3) n := Engine.get_put_same _ _ _ _
  have hsvc (n : Nat) : (s.e.bump (headIdx h.val) 3 n).svc h.val = s.e.svc h.val :=
    Engine.svc_put_link _ _ h.isLt (by decide)
  refine ⟨?_, ?_, ?_, ?_, ?_, ?_, ?_, ?_, ?_⟩
  · intro halready
    rwa [s.e.receiverUp_already halready] at hup
  · intro hwasDown hsuspended hserving
    rw [s.e.receiverUp_detects hwasDown hsuspended, s.e.detected_serving h.isLt hserving] at hup
    exact hup.completes ⟨_, rfl, s.e.get_found_state, s.e.get_found_detections, s.e.check_found, s.e.svc_found h.isLt⟩
  · intro hwasDown hsuspended hout
    rw [s.e.receiverUp_detects hwasDown hsuspended, s.e.detected_outOfService h.isLt hout] at hup
    refine hup.completes ⟨_, rfl, ?_, Engine.svc_enterQuarantine _ h.isLt⟩
    rw [Engine.get_enterQuarantine _ (by decide) (by simp), Engine.get_setSvc_link _ _ h.isLt (by decide)]
    exact s.e.get_found_state
  · intro hwasDown hsuspended
    rw [s.e.receiverUp_resumes hwasDown hsuspended] at hup
    exact hup.completes ⟨_, rfl, s.e.get_put_same _ _ _, (Engine.head_setHead _ _ _ _).trans (if_pos rfl)⟩
  · intro n hnotUp
    have hcounted := hdown n
    rw [if_neg hnotUp] at hcounted
    refine hcounted.completes ⟨fun p hp => ?_, fun k hk => ?_, rfl⟩
    · obtain rfl := List.mem_singleton.mp hp
      exact hcount n
    · exact (s.e.ent_put _ _ _ k).trans (if_neg (by simpa using hk))
  · intro n hwasUp hservice
    have hlost := hdown n
    rw [if_pos hwasUp, Engine.receiverLost_inService _ h.isLt ((hsvc n).trans hservice)] at hlost
    refine hlost.completes ⟨_, rfl, ?_, ?_, ?_⟩
    · exact (Engine.get_enterLost_link _ h.isLt (by decide)).trans (Engine.get_linkDown_state _)
    · exact (Engine.get_enterLost _ _ _).trans (Engine.get_put_same _ _ _ _)
    · exact (Engine.get_enterLost_link _ h.isLt (by decide)).trans ((Engine.get_linkDown_errors _).trans (hcount n))
  · intro n hwasUp heclipsed
    have hlost := hdown n
    have hstays := (hsvc n).trans heclipsed
    rw [if_pos hwasUp, Engine.receiverLost_eclipsed _ h.isLt hstays] at hlost
    exact hlost.completes ⟨_, rfl, Engine.get_linkDown_state _, (Engine.svc_linkDown _ h.isLt).trans hstays⟩
  · intro hrunning
    rwa [if_neg fun hlate => hrunning hlate.1] at hrealign
  · intro hsuspended hwasDown heclipsed
    have hlate : s.e.get (headIdx h.val) 1 ≠ 3 := by simp [hwasDown]
    rw [if_pos ⟨hsuspended, hlate⟩, s.e.receiverLost_eclipsed h.isLt heclipsed] at hrealign
    exact hrealign.completes ⟨_, rfl, s.e.get_linkDown_state, s.e.suspended_linkDown⟩

end Sys2Proof.Machine

/-! The head command link and the window of head memory (R195, R197, R198, R200, R208). -/

namespace Sys2Proof.Machine

/-! The command link (R195, R197, R198) -/

section CommandLink

variable (e : Engine) {h : Nat} {c : HeadCmd}

/-- The head that awaits the RESP to command `c`, sent at `now` after `n` retries. -/
def Head.awaiting (x : Head) (c : HeadCmd) (n now : Nat) : Head := { x with waiting := some (c, n, now) }

/-- The head that has no command out. -/
def Head.answered (x : Head) : Head := { x with waiting := none }

/-- The head that takes command `c` off its queue, under a new TAG. -/
def Head.takes (x : Head) (c : HeadCmd) : Head := { x with tag := (x.tag + 1) % 256, queue := x.queue.erase c }

/-- R198: with PLL-B locked, the first command that may go is sent. -/
theorem Engine.issue_sends (hidle : (e.head h).waiting = none) (hfirst : (e.head h).queue.find? e.mayIssue = some c)
    (hlocked : e.get 0x4282 1 = 2) :
    e.issue h = (e.setHead h (((e.head h).takes c).awaiting c 0 e.now)).send
      (.command h (commandFrame (((e.head h).tag + 1) % 256) c)) := by
  rw [Engine.issue, hidle, hfirst]
  exact if_neg (not_not.mpr hlocked)

theorem Engine.issue_waits (hout : (e.head h).waiting.isSome = true) : e.issue h = e := by
  obtain ⟨w, hw⟩ := Option.isSome_iff_exists.mp hout
  rw [Engine.issue, hw]

theorem Engine.resp_unasked (fr : List Byte) (hidle : (e.head h).waiting = none) : e.resp h fr = e := by
  rw [Engine.resp, hidle]

theorem Engine.resp_otherTag {fr : List Byte} (htag : le ((fr.drop 1).take 1) ≠ (e.head h).tag) : e.resp h fr = e := by
  rw [Engine.resp]
  cases (e.head h).waiting with
  | none => rfl
  | some w => exact if_pos (.inr (.inr (.inr htag)))

/-- R197: what makes a RESP one for a command sent with TAG `tag`. -/
def answersTag (tag : Nat) (fr : List Byte) : Prop :=
  fr.length = 6 + le ((fr.drop 3).take 1) ∧ le (fr.take 1) = 0x82 ∧
    le (fr.drop (4 + le ((fr.drop 3).take 1))) = crc16 (fr.take (4 + le ((fr.drop 3).take 1))) ∧
    le ((fr.drop 1).take 1) = tag

theorem Engine.resp_completes {fr : List Byte} {n t : Nat} (hout : (e.head h).waiting = some (c, n, t))
    (hmatch : answersTag (e.head h).tag fr) :
    e.resp h fr = (e.setHead h (e.head h).answered).completeCmd h c (le ((fr.drop 2).take 1))
      ((fr.drop 4).take (le ((fr.drop 3).take 1))) := by
  obtain ⟨hlen, htype, hcheck, htag⟩ := hmatch
  rw [Engine.resp, hout]
  exact if_neg (by simp [hlen, htype, hcheck, htag, -List.drop_one])

/-- R208: the answer to a PING of the window leaves its RESULT alone. -/
theorem Engine.completeCmd_ping (r : Nat) (data : List Byte) (hhost : c.host = true) (hping : c.ty = 0x13) (hr : r ≤ 5) :
    e.completeCmd h c r data = (e.put 0x2704 6 (r + 1)).done := by
  have hread : ¬ (c.ty = 0x10 ∧ r = 0) := by simp [hping]
  have hanswer : e.completeCmd h c r data = e.hostAnswer c r data := if_pos hhost
  rw [hanswer, Engine.hostAnswer, hostResult, if_pos hr, if_neg hread]

/-- R197: with retries left, the command goes out again under its TAG. -/
theorem Engine.cmdTimeout_resends {n t : Nat} (hout : (e.head h).waiting = some (c, n, t)) (hleft : n < e.get 0x2703 4) :
    e.cmdTimeout h = (e.setHead h ((e.head h).awaiting c (n + 1) e.now)).send
      (.command h (commandFrame (e.head h).tag c)) := by
  rw [Engine.cmdTimeout, hout]
  exact if_pos hleft

/-- R197: without, a WRITE, COMMIT or PING of the engine's own is given up with 06h:01h. -/
theorem Engine.cmdTimeout_givesUp {n t : Nat} (hout : (e.head h).waiting = some (c, n, t)) (hspent : e.get 0x2703 4 ≤ n)
    (hown : c.host = false) (hread : c.ty ≠ 0x10) :
    e.cmdTimeout h = ((e.setHead h (e.head h).answered).bump (headIdx h) 9 1).raise 6 1 (detailH h c.addr (e.lastLine h)) := by
  rw [Engine.cmdTimeout, hout]
  dsimp only
  rw [if_neg (Nat.not_lt.mpr hspent), if_neg (by simp [hown]), if_neg fun hident => hread hident.1]
  rfl

end CommandLink

section SentCommands

variable {i : Instr} {s : State} {h : Nat} {x : Head} {o : Output}

/-- A command that sets one head and sends one frame leaves the other heads and everything else alone. -/
theorem completes_of_setHead_send (hc : Becomes i s ((s.e.setHead h x).send o)) :
    Completes i s (fun t => t.e.head h = x ∧ t.e.out = o :: s.e.out ∧ (∀ j, j ≠ h → t.e.head j = s.e.head j) ∧
      t = { s with e := { s.e with care.heads := t.e.care.heads, out := t.e.out } }) :=
  hc.completes ⟨(s.e.head_setHead h h x).trans (if_pos rfl), rfl,
    fun j hj => (s.e.head_setHead h j x).trans (if_neg hj), rfl⟩

end SentCommands

theorem headCommandLink : Says.HeadCommandLink := by
  rintro s h _ hlive rfl
  have hissue : Becomes (.headCommandIssue h) s (s.e.issue h.val) :=
    becomes_of_whenLive (f := fun e => e.issue h.val) rfl hlive
  have hresp (fr : List Byte) : Becomes (.respReceived h fr) s (s.e.resp h.val fr) :=
    becomes_of_whenLive (f := fun e => e.resp h.val fr) rfl hlive
  have htimeout : Becomes (.headCommandTimeout h) s (s.e.cmdTimeout h.val) :=
    becomes_of_whenLive (f := fun e => e.cmdTimeout h.val) rfl hlive
  refine ⟨?_, ?_, ?_, ?_, ?_, ?_, ?_⟩
  · intro c hidle hfirst hlocked
    rw [s.e.issue_sends hidle hfirst hlocked] at hissue
    exact completes_of_setHead_send hissue
  · intro hout
    rwa [s.e.issue_waits hout] at hissue
  · intro fr hidle
    have hunasked := hresp fr
    rwa [s.e.resp_unasked fr hidle] at hunasked
  · intro fr htag
    have hother := hresp fr
    rwa [s.e.resp_otherTag htag] at hother
  · rintro fr c n t _ hout hlen htype hcheck htag hhost hping rfl hr
    have hanswer := hresp fr
    rw [s.e.resp_completes hout ⟨hlen, htype, hcheck, htag⟩, Engine.completeCmd_ping _ _ _ hhost hping hr] at hanswer
    refine hanswer.completes ⟨?_, Engine.get_put_same _ _ _ _, rfl, fun k hk => ?_, fun j hj => ?_⟩
    · exact (s.e.head_setHead _ _ _).trans (if_pos rfl)
    · exact (Engine.ent_put _ _ _ _ k).trans (if_neg hk)
    · exact (s.e.head_setHead _ _ _).trans (if_neg hj)
  · intro c n t hout hleft
    rw [s.e.cmdTimeout_resends hout hleft] at htimeout
    exact completes_of_setHead_send htimeout
  · intro c n t hout hspent hown hread
    rw [s.e.cmdTimeout_givesUp hout hspent hown hread] at htimeout
    exact ⟨(s.e.setHead h.val (s.e.head h.val).answered).bump (headIdx h.val) 9 1,
      ⟨(s.e.head_setHead _ _ _).trans (if_pos rfl), Engine.get_put_same _ _ _ _⟩, htimeout⟩

/-! The window of head memory (R200, R208) -/

section HeadMemory

variable (e : Engine) {ty : Nat}

/-- The command that the window asks of its head, as the entries of 2704h name it. -/
def Engine.windowCmd (e : Engine) (ty : Nat) : HeadCmd :=
  { ty := ty, addr := if ty = 0x13 then 0 else e.get 0x2704 2,
    len := if ty = 0x10 ∨ ty = 0x11 then e.get 0x2704 3 else 0,
    data := if ty = 0x11 then (e.dom 0x2704 4).take (e.get 0x2704 3) else [], host := true }

/-- The engine that has queued command `c` of the window. -/
def Engine.ask (e : Engine) (c : HeadCmd) : Engine := (e.put 0x2704 6 0).enqueue (e.get 0x2704 1) c

/-- R200: whether command `ty` of the window stages or commits a waveform. -/
def Engine.stagesWaveform (e : Engine) (ty : Nat) : Bool :=
  (ty = 0x11 && overlap (e.get 0x2704 2) (e.get 0x2704 3) 0x1000 448) || ty == 0x12

theorem Engine.headMem_down (hdown : e.rxUp (e.get 0x2704 1) = false) : e.headMem ty = e.refuse abState :=
  if_pos (by simp [hdown])

theorem Engine.headMem_engineOwned (hup : e.rxUp (e.get 0x2704 1) = true)
    (howned : engineOwned (e.get 0x2704 2) (e.get 0x2704 3) = true) : e.headMem 0x11 = e.refuse abReadOnly :=
  (if_neg (by simp [hup])).trans (if_pos ⟨rfl, howned⟩)

/-- R200: the waveform of a head that prints is not committed. -/
theorem Engine.headMem_printing (hup : e.rxUp (e.get 0x2704 1) = true) (hjob : e.jobState ≠ 0)
    (hservice : e.svc (e.get 0x2704 1) = 0) : e.headMem 0x12 = e.refuse abState :=
  (if_neg (by simp [hup])).trans ((if_neg fun howned => absurd howned.1 (by decide)).trans
    (if_pos ⟨rfl, hjob, by simp [hservice], by simp [hservice]⟩))

theorem Engine.headMem_tooLong (hup : e.rxUp (e.get 0x2704 1) = true) (hlong : 32 < e.get 0x2704 3) :
    e.headMem 0x10 = e.refuse abValue :=
  (if_neg (by simp [hup])).trans ((if_neg fun howned => absurd howned.1 (by decide)).trans
    ((if_neg fun hstaged => absurd hstaged.1 (by simp)).trans (if_pos (.inl ⟨rfl, hlong⟩))))

/-- R208: a command with nothing to refuse is asked of the head. -/
theorem Engine.headMem_asks (hup : e.rxUp (e.get 0x2704 1) = true)
    (hfield : ty = 0x11 → engineOwned (e.get 0x2704 2) (e.get 0x2704 3) = false)
    (hwaveform : e.stagesWaveform ty = true → e.jobState = 0) (hread : ty = 0x10 → e.get 0x2704 3 ≤ 32)
    (hwrite : ty = 0x11 → e.get 0x2704 3 ≤ (e.dom 0x2704 4).length) : e.headMem ty = e.ask (e.windowCmd ty) := by
  have hfree : ¬ (ty = 0x11 ∧ engineOwned (e.get 0x2704 2) (e.get 0x2704 3) = true) := fun howned =>
    absurd ((hfield howned.1).symm.trans howned.2) (by decide)
  have hquiet : ¬ (e.stagesWaveform ty = true ∧ e.jobState ≠ 0 ∧ e.svc (e.get 0x2704 1) ≠ 2 ∧ e.svc (e.get 0x2704 1) ≠ 5) :=
    fun hstaged => hstaged.2.1 (hwaveform hstaged.1)
  have hfits : ¬ ((ty = 0x10 ∧ 32 < e.get 0x2704 3) ∨ (ty = 0x11 ∧ (e.dom 0x2704 4).length < e.get 0x2704 3)) := by
    rintro (⟨hty, hlong⟩ | ⟨hty, hshort⟩)
    · exact Nat.not_lt.mpr (hread hty) hlong
    · exact Nat.not_lt.mpr (hwrite hty) hshort
  exact (if_neg (by simp [hup])).trans ((if_neg hfree).trans ((if_neg hquiet).trans (if_neg hfits)))

end HeadMemory

section WindowCommands

variable {i : Instr} {s : State} {c : HeadCmd}

/-- R208: a command that is asked reads 0 in 2704h:06h and stands last in the queue of its head; nothing else changes. -/
theorem completes_of_ask (hc : Becomes i s (s.e.ask c)) :
    Completes i s (fun t => t.e.get 0x2704 6 = 0 ∧ (∀ k, k ≠ 0x270406 → t.e.ent k = s.e.ent k) ∧
      t.e.head (s.e.get 0x2704 1) =
        { s.e.head (s.e.get 0x2704 1) with queue := (s.e.head (s.e.get 0x2704 1)).queue ++ [c] } ∧
      t = { s with e := { s.e with d.dict := t.e.d.dict, care.heads := t.e.care.heads } }) :=
  hc.completes ⟨Engine.get_put_same _ _ _ _, fun k hk => (Engine.ent_put _ _ _ _ k).trans (if_neg hk),
    (Engine.head_setHead _ _ _ _).trans (if_pos rfl), rfl⟩

/-- The same of 2704h:06h and the queue alone. -/
theorem completes_of_queued (hc : Becomes i s (s.e.ask c)) :
    Completes i s (fun t => t.e.get 0x2704 6 = 0 ∧
      t.e.head (s.e.get 0x2704 1) =
        { s.e.head (s.e.get 0x2704 1) with queue := (s.e.head (s.e.get 0x2704 1)).queue ++ [c] } ∧
      t = { s with e := { s.e with d.dict := t.e.d.dict, care.heads := t.e.care.heads } }) :=
  (completes_of_ask hc).imp fun _ ⟨hzero, _, hqueue, hrest⟩ => ⟨hzero, hqueue, hrest⟩

end WindowCommands

theorem headMemoryWindow : Says.HeadMemoryWindow := by
  rintro s _ hs rfl
  have hread : Becomes .headMemRead s (s.e.headMem 0x10) :=
    becomes_of_request (idx := 0x2704) (f := fun e => e.headMem 0x10) rfl hs
  have hwrite : Becomes .headMemWrite s (s.e.headMem 0x11) :=
    becomes_of_request (idx := 0x2704) (f := fun e => e.headMem 0x11) rfl hs
  have hcommit : Becomes .headMemCommit s (s.e.headMem 0x12) :=
    becomes_of_request (idx := 0x2704) (f := fun e => e.headMem 0x12) rfl hs
  have hping : Becomes .headPing s (s.e.headMem 0x13) :=
    becomes_of_request (idx := 0x2704) (f := fun e => e.headMem 0x13) rfl hs
  refine ⟨?_, ?_, ?_, ?_, ?_, ?_, ?_, ?_⟩
  · intro hdown
    rw [s.e.headMem_down hdown] at hread hwrite hcommit hping
    exact ⟨hread, hwrite, hcommit, hping⟩
  · intro hup howned
    rwa [s.e.headMem_engineOwned hup howned] at hwrite
  · intro hup hjob hservice
    rwa [s.e.headMem_printing hup hjob hservice] at hcommit
  · intro hup hlong
    rwa [s.e.headMem_tooLong hup hlong] at hread
  · intro hup hfits
    rw [s.e.headMem_asks (ty := 0x10) hup (by simp) (by simp [Engine.stagesWaveform]) (fun _ => hfits) (by simp)] at hread
    exact completes_of_ask hread
  · intro hup hfree hfits hidle
    rw [s.e.headMem_asks (ty := 0x11) hup (fun _ => hfree) (fun _ => hidle) (by simp) fun _ => hfits] at hwrite
    exact completes_of_queued hwrite
  · intro hup hidle
    rw [s.e.headMem_asks (ty := 0x12) hup (by simp) (fun _ => hidle) (by simp) (by simp)] at hcommit
    exact completes_of_queued hcommit
  · intro hup
    rw [s.e.headMem_asks (ty := 0x13) hup (by simp) (by simp [Engine.stagesWaveform]) (by simp) (by simp)] at hping
    exact completes_of_queued hping

/-- Settles O31: the link by the command that is out, and the window by the checks in their order. -/
theorem headCommandsAndMemory : Obligations.HeadCommandsAndMemory := ⟨headCommandLink, headMemoryWindow⟩

end Sys2Proof.Machine

/-! Measurement windows and resistance slots (R213-R215). -/

namespace Sys2Proof.Machine

/-! What an evaluation of the loops leaves of the heads (R249, R253) -/

section Loops

variable (e : Engine)

theorem Engine.traceTrig_care (u : Nat) : (e.traceTrig u).care = e.care := by
  rw [Engine.traceTrig]
  split_ifs <;> rfl

theorem Engine.traceSample_care (u : Nat) (v : Int) : (e.traceSample u v).care = e.care := by
  simp only [Engine.traceSample]
  split_ifs <;> simp only [Engine.tracePublish, Engine.bump, Engine.put_care, Engine.setTrace_care, Engine.traceTrig_care]

theorem Engine.traceEvent_care (kind idx code : Nat) (p : Nat → Bool) : (e.traceEvent kind idx code p).care = e.care := by
  rw [Engine.traceEvent]
  refine Engine.each_keeps e (·.care) _ fun x u => ?_
  dsimp only
  split_ifs
  · rfl
  · exact Engine.traceSample_care _ _ _
  · rfl

theorem Engine.stick_care (idx sub i : Nat) (on : Bool) : (e.stick idx sub i on).care = e.care := by
  rw [Engine.stick]
  split_ifs <;> rfl

theorem Engine.setLoopOut_care (l : Nat) (out : Bool) : (e.setLoopOut l out).care = e.care := by
  rw [Engine.setLoopOut]
  split_ifs <;> rfl

theorem Engine.driveLoop_care (l : Nat) : (e.driveLoop l).care = e.care := by
  simp only [Engine.driveLoop]
  split_ifs <;> simp only [Engine.put_care]

theorem Engine.traceLoop_care (l : Nat) : (e.traceLoop l).care = e.care := e.traceEvent_care _ _ _ _

/-- The last steps of an evaluation: the outputs are driven and the trace units see the loop. -/
theorem Engine.driveTrace_care (l : Nat) : ((e.driveLoop l).traceLoop l).care = e.care :=
  (Engine.traceLoop_care _ l).trans (e.driveLoop_care l)

theorem Engine.evalLoop_care (l : Nat) : (e.evalLoop l).care = e.care := by
  simp only [Engine.evalLoop]
  split_ifs <;>
    simp only [Engine.driveTrace_care, Engine.driveLoop_care, Engine.setLoopOut_care, Engine.putI, Engine.put_care,
      Engine.stick_care, Engine.setLoop_care]

theorem Engine.reEval_care : e.reEval.care = e.care := by
  rw [Engine.reEval]
  refine Engine.each_keeps e (·.care) _ fun x l => ?_
  split_ifs
  · rfl
  · exact x.evalLoop_care l

/-- Engines that care for the heads alike hold the same heads. -/
theorem Engine.head_of_care {a b : Engine} (h : a.care = b.care) (k : Nat) : a.head k = b.head k := by
  rw [Engine.head, h, Engine.head]

end Loops

/-! Updates of heads alone -/

section HeadUpdates

/-- Engine `b` is `a` but for its heads. -/
def Engine.HeadsOnly (a b : Engine) : Prop := ∃ heads, b = { a with care.heads := heads }

variable {a b : Engine}

theorem Engine.HeadsOnly.refl (a : Engine) : a.HeadsOnly a := ⟨_, rfl⟩

theorem Engine.HeadsOnly.setHead (h : a.HeadsOnly b) (k : Nat) (x : Head) : a.HeadsOnly (b.setHead k x) := by
  obtain ⟨heads, rfl⟩ := h
  exact ⟨_, rfl⟩

theorem Engine.HeadsOnly.enqueue (h : a.HeadsOnly b) (k : Nat) (c : HeadCmd) : a.HeadsOnly (b.enqueue k c) := h.setHead k _

theorem Engine.HeadsOnly.trans {c : Engine} (h : a.HeadsOnly b) (h' : b.HeadsOnly c) : a.HeadsOnly c := by
  obtain ⟨heads, rfl⟩ := h
  obtain ⟨heads', rfl⟩ := h'
  exact ⟨heads', rfl⟩

theorem Engine.HeadsOnly.each {f : Engine → Nat → Engine} (is : List Nat) (a : Engine)
    (hf : ∀ (x : Engine) i, x.HeadsOnly (f x i)) : a.HeadsOnly (a.each is f) :=
  List.foldlRecOn (motive := a.HeadsOnly) is f (.refl a) fun x hx i _ => hx.trans (hf x i)

theorem Engine.HeadsOnly.get (h : a.HeadsOnly b) (i j : Nat) : b.get i j = a.get i j := by
  obtain ⟨heads, rfl⟩ := h
  rfl

end HeadUpdates

/-! Heads that join a sweep, and measurement mode (R203, R215) -/

section Joining

variable (e : Engine) (h j : Nat)

/-- Head `h` is in the sweep: it joins one that it is not in. -/
def Engine.joined (e : Engine) (h : Nat) : Engine := if (e.head h).inSweep then e else e.joinSweep h

/-- Head `h` takes part: it joins the sweep, and is put into measurement mode while elements are left. -/
def Engine.joinHead (e : Engine) (h : Nat) : Engine :=
  if ((e.joined h).head h).todo.isEmpty then e.joined h else (e.joined h).measOn h

theorem Engine.joinAll_eq : e.joinAll = e.each ((List.range 128).filter e.sweepable) Engine.joinHead := rfl

theorem Engine.joined_headsOnly : e.HeadsOnly (e.joined h) := by
  rw [Engine.joined]
  split_ifs
  · exact .refl e
  · exact (Engine.HeadsOnly.refl e).setHead h _

theorem Engine.measOn_headsOnly : e.HeadsOnly (e.measOn h) := by
  rw [Engine.measOn]
  split_ifs
  · exact .refl e
  · exact ((Engine.HeadsOnly.refl e).setHead h _).enqueue h _

theorem Engine.joinHead_headsOnly : e.HeadsOnly (e.joinHead h) := by
  rw [Engine.joinHead]
  split_ifs
  · exact e.joined_headsOnly h
  · exact (e.joined_headsOnly h).trans (Engine.measOn_headsOnly _ h)

theorem Engine.joinAll_headsOnly : e.HeadsOnly e.joinAll := by
  rw [Engine.joinAll_eq]
  exact .each _ e Engine.joinHead_headsOnly

theorem Engine.head_writeControl (meas idleWarm : Bool) : (e.writeControl h meas idleWarm).head j =
    if j = h then { e.head h with
      meas := meas, idleWarm := idleWarm,
      queue := (e.head h).queue ++ [writeCmd 0x24 (toLe 1 (ofBool meas + 2 * ofBool idleWarm))] }
    else e.head j := by
  simp only [Engine.writeControl, Engine.enqueue, Engine.head_setHead, if_true]
  split_ifs <;> rfl

theorem Engine.inSweep_joined : ((e.joined h).head j).inSweep = (decide (j = h) || (e.head j).inSweep) := by
  rw [Engine.joined]
  split_ifs with hin
  · by_cases hj : j = h <;> simp [hj, hin]
  · by_cases hj : j = h <;> simp [Engine.joinSweep, hj]

theorem Engine.inSweep_measOn : ((e.measOn h).head j).inSweep = (e.head j).inSweep := by
  rw [Engine.measOn]
  split_ifs
  · rfl
  · by_cases hj : j = h <;> simp [Engine.head_writeControl, hj]

theorem Engine.inSweep_joinHead : ((e.joinHead h).head j).inSweep = (decide (j = h) || (e.head j).inSweep) := by
  rw [Engine.joinHead]
  split_ifs
  · exact e.inSweep_joined h j
  · rw [Engine.inSweep_measOn, e.inSweep_joined h j]

theorem Engine.inSweep_joinAll {j : Nat} (hj : j < 128) (hsweep : e.sweepable j = true) : (e.joinAll.head j).inSweep = true := by
  rw [Engine.joinAll_eq]
  refine foldl_reaches (I := fun _ => True) (P := fun k x => (x.head k).inSweep = true) _ e trivial
    (fun x _ k _ => ?_) j (List.mem_filter.mpr ⟨List.mem_range.mpr hj, hsweep⟩)
  refine ⟨trivial, ?_, fun q hq => ?_⟩
  · simp [Engine.inSweep_joinHead]
  · simp [Engine.inSweep_joinHead, hq]

/-- R215: a head that is in the sweep and in measurement mode has nothing to do to take part. -/
theorem Engine.joinHead_joined {e : Engine} {h : Nat} (hin : (e.head h).inSweep = true) (hmeas : (e.head h).meas = true) :
    e.joinHead h = e := by
  simp [Engine.joinHead, Engine.joined, Engine.measOn, hin, hmeas]

theorem Engine.joinAll_joined {e : Engine}
    (hall : ∀ j, j < 128 → e.sweepable j = true → (e.head j).inSweep = true ∧ (e.head j).meas = true) :
    e.joinAll = e := by
  rw [Engine.joinAll_eq]
  refine List.foldlRecOn (motive := fun x : Engine => x = e) _ Engine.joinHead rfl fun x hx k hk => ?_
  obtain ⟨hlt, hsweep⟩ := List.mem_filter.mp hk
  obtain ⟨hin, hmeas⟩ := hall k (List.mem_range.mp hlt) hsweep
  rw [hx, Engine.joinHead_joined hin hmeas]

end Joining

/-! Windows that open and close (R215) -/

section Windows

variable (e : Engine)

theorem Engine.startSweep_begins : ∃ heads, e.startSweep =
    { e.put 0x3420 7 0 with care.heads := heads, care.sweep := true } := by
  obtain ⟨heads, hheads⟩ := Engine.HeadsOnly.each (List.range 128) (e.put 0x3420 7 0)
    (f := fun e h => e.setHead h { e.head h with inSweep := false, todo := [] }) fun x h => (Engine.HeadsOnly.refl x).setHead h _
  rw [Engine.startSweep]
  dsimp only
  rw [hheads]
  exact ⟨heads, rfl⟩

/-- The sweep of a window that opens: the one that waits, or one that begins. -/
def Engine.sweeping (e : Engine) : Engine := if e.care.sweep then e else e.startSweep

theorem Engine.sweeping_sweeps : e.sweeping.care.sweep = true := by
  rw [Engine.sweeping]
  split_ifs with hsweep
  · exact hsweep
  · obtain ⟨_, hbegins⟩ := e.startSweep_begins
    rw [hbegins]

theorem Engine.sweepable_sweeping {h : Nat} (hh : h < 128) : e.sweeping.sweepable h = e.sweepable h := by
  rw [Engine.sweeping]
  split_ifs
  · rfl
  · obtain ⟨_, hbegins⟩ := e.startSweep_begins
    have hlink : (e.put 0x3420 7 0).rxUp h = e.rxUp h :=
      congrArg (· == 2) (e.get_put_other (by decide) (by decide) fun hsame => by unfold headIdx at hsame; omega)
    have hstate : (e.put 0x3420 7 0).svc h = e.svc h := e.svc_put (by decide) (by decide) hh
    rw [hbegins]
    calc _ = (e.put 0x3420 7 0).sweepable h := rfl
      _ = e.sweepable h := by rw [Engine.sweepable, hlink, hstate, Engine.sweepable]

/-- The engine whose window is open, with every eligible head in its sweep; the loops are not yet evaluated again. -/
def Engine.windowOpened (e : Engine) : Engine := Engine.joinAll { e.sweeping with care.window := true }

theorem Engine.openMeas_eq : e.openMeas = e.windowOpened.reEval := rfl

theorem Engine.windowOpened_opens : e.windowOpened.care.window = true ∧ e.windowOpened.care.sweep = true := by
  obtain ⟨_, hjoin⟩ := Engine.joinAll_headsOnly { e.sweeping with care.window := true }
  rw [Engine.windowOpened, hjoin]
  exact ⟨rfl, e.sweeping_sweeps⟩

theorem Engine.inSweep_windowOpened {h : Nat} (hh : h < 128) (hsweep : e.sweepable h = true) :
    (e.windowOpened.head h).inSweep = true :=
  Engine.inSweep_joinAll _ hh ((e.sweepable_sweeping hh).trans hsweep)

/-- R215: the sweep that begins with its window begins at element 0. -/
theorem Engine.get_windowOpened_element (hsweep : e.care.sweep = false) : e.windowOpened.get 0x3420 7 = 0 := by
  obtain ⟨_, hbegins⟩ := e.startSweep_begins
  rw [Engine.windowOpened, (Engine.joinAll_headsOnly _).get, Engine.sweeping, if_neg (by simp [hsweep]), hbegins]
  exact e.get_put_same _ _ _

theorem Engine.meas_measOff (h j : Nat) : ((e.measOff h).head j).meas = if j = h then false else (e.head j).meas := by
  rw [Engine.measOff]
  split_ifs with hmeas hj hj
  · simp [Engine.head_writeControl, hj]
  · rw [Engine.head_writeControl, if_neg hj, Engine.head_of_care (Engine.evalLoop_care _ h), Engine.head_setHead, if_neg hj]
  · rw [hj]
    exact Bool.eq_false_iff.mpr hmeas
  · rfl

theorem Engine.closeMeas_ends : e.closeMeas.care.window = false ∧ ∀ h, h < 128 → (e.closeMeas.head h).meas = false := by
  refine ⟨rfl, fun h hh => ?_⟩
  have hoff : ((e.each (List.range 128) Engine.measOff).head h).meas = false := by
    refine foldl_reaches (I := fun _ => True) (P := fun k x => (x.head k).meas = false) _ e trivial (fun x _ k _ => ?_) h
      (List.mem_range.mpr hh)
    refine ⟨trivial, ?_, fun q hq => ?_⟩
    · simp [Engine.meas_measOff]
    · simp [Engine.meas_measOff, hq]
  have hshut (x : Engine) : Engine.head { x with care.window := false } h = x.head h := rfl
  rwa [Engine.closeMeas, hshut, Engine.head_of_care (Engine.reEval_care _)]

theorem Engine.windowOpen_idle (hidle : e.jobState = 0) : e.windowOpen = e := if_pos (.inl hidle)

theorem Engine.windowOpen_opens (hjob : e.jobState ≠ 0) (htransit : e.midTransit = false) (hallowed : e.flag 0x3420 1 = true)
    (hshut : e.care.window = false) (hwatch : e.care.watch = false) : e.windowOpen = e.openMeas :=
  if_neg (by simp [hjob, htransit, hallowed, hshut, hwatch])

theorem Engine.windowClose_shut (hshut : e.care.window = false) : e.windowClose = e := if_neg (by simp [hshut])

theorem Engine.windowClose_open (hopen : e.care.window = true) : e.windowClose = e.closeMeas := if_pos hopen

/-- IDLE_SWEEP_TIMER: in Idle and Held a sweep begins, unless one runs or a drop-watch does. -/
def Engine.timedSweep (e : Engine) : Engine :=
  if e.jobRests ∧ !e.care.sweep ∧ !e.care.watch ∧ e.get 0x3420 9 ≠ 0 then e.openMeas else e

theorem Engine.jobRests_iff : e.jobRests = true ↔ e.jobState = 0 ∨ e.jobState = 3 := by simp [Engine.jobRests]

theorem Engine.timedSweep_off (hoff : e.get 0x3420 9 = 0) : e.timedSweep = e := if_neg (by simp [hoff])

theorem Engine.timedSweep_begins (hjob : e.jobState = 0 ∨ e.jobState = 3) (hsweep : e.care.sweep = false)
    (hwatch : e.care.watch = false) (htimer : e.get 0x3420 9 ≠ 0) : e.timedSweep = e.openMeas :=
  if_pos ⟨e.jobRests_iff.mpr hjob, by simp [hsweep], by simp [hwatch], htimer⟩

theorem Engine.sweepNow_refused (hidle : e.jobState ≠ 0) (hheld : e.jobState ≠ 3) : e.sweepNow = e.refuse abState :=
  if_pos (by simp [Engine.jobRests, hidle, hheld])

theorem Engine.sweepNow_begins (hidle : e.jobState = 0) (hsweep : e.care.sweep = false) : e.sweepNow = e.openMeas.done :=
  (if_neg (by simp [Engine.jobRests, hidle])).trans (if_neg (by simp [hsweep]))

end Windows

theorem measurementWindows : Says.MeasurementWindows := by
  intro s hlive
  have hopen : Becomes .measurementWindowOpen s s.e.windowOpen := becomes_of_whenLive rfl hlive
  have hclose : Becomes .measurementWindowClose s s.e.windowClose := becomes_of_whenLive rfl hlive
  have htimer : Becomes .idleSweepTimer s s.e.timedSweep := becomes_of_whenLive (f := Engine.timedSweep) rfl hlive
  have hcommand (hserving : s.e.serving 1 = true) : Becomes .sweepCommand s s.e.sweepNow :=
    becomes_of_request (idx := 0x3420) rfl ⟨hlive, hserving⟩
  obtain ⟨hwindow, hsweep⟩ := s.e.windowOpened_opens
  refine ⟨?_, ?_, ?_, ?_, ?_, ?_, ?_, ?_, ?_⟩
  · intro hidle
    rwa [s.e.windowOpen_idle hidle] at hopen
  · intro hjob htransit hallowed hshut hwatch
    rw [s.e.windowOpen_opens hjob htransit hallowed hshut hwatch, Engine.openMeas_eq] at hopen
    exact hopen.completes ⟨_, rfl, hwindow, hsweep, fun h hh => s.e.inSweep_windowOpened hh⟩
  · intro hshut
    rwa [s.e.windowClose_shut hshut] at hclose
  · intro hisopen
    rw [s.e.windowClose_open hisopen] at hclose
    exact hclose.completes s.e.closeMeas_ends
  · intro hoff
    rwa [s.e.timedSweep_off hoff] at htimer
  · intro hjob hnone hwatch hon
    rw [s.e.timedSweep_begins hjob hnone hwatch hon, Engine.openMeas_eq] at htimer
    exact htimer.completes ⟨_, rfl, hwindow, hsweep, s.e.get_windowOpened_element hnone⟩
  · intro hserving hidle hheld
    have hrefused := hcommand hserving
    rwa [s.e.sweepNow_refused hidle hheld] at hrefused
  · intro hserving hidle hnone
    have hbegins := hcommand hserving
    rw [s.e.sweepNow_begins hidle hnone, Engine.openMeas_eq] at hbegins
    exact hbegins.completes ⟨_, rfl, hwindow, hsweep⟩
  · intro hserving
    have hclear : Becomes .verdictListClear s (Engine.done { s.e.put 0x3420 0x0C 0 with care.verdictList := [] }) :=
      becomes_of_request (idx := 0x3420) (f := fun e => Engine.done { e.put 0x3420 0x0C 0 with care.verdictList := [] }) rfl
        ⟨hlive, hserving⟩
    exact hclear.completes ⟨s.e.get_put_same _ _ _, fun k hk => (s.e.ent_put _ _ _ k).trans (if_neg hk), rfl⟩

/-! Resistance slots (R213, R214) -/

section Slots

variable (e : Engine) {h n uv : Nat} {todo : List Nat}

/-- A head with the elements `todo` left to measure. -/
def Head.due (x : Head) (todo : List Nat) : Head := { x with todo := todo }

/-- A head with verdict `v` on element `n`. -/
def Head.judged (x : Head) (n v : Nat) : Head := { x with verdicts := cellSet (fun _ => 0) x.verdicts n v }

/-- The resistance code that a voltage gives on head `h` (R214). -/
def Engine.slotCode (e : Engine) (h uv : Nat) : Nat := resCode uv (e.get 0x3420 3) (e.get (headIdx h) 0x0F)

/-- The verdict on that code for element `n` (R214). -/
def Engine.slotVerdict (e : Engine) (h n uv : Nat) : Nat :=
  verdictOf (e.slotCode h uv) (cellGet (fun _ => 0) (e.head h).means (n / 64)) (e.get 0x3420 4) (e.get 0x3420 5)

/-- The staging entry of the element holds the code, and a verdict that changed is listed. -/
def Engine.noted (e : Engine) (h n uv : Nat) : Engine :=
  let x := e.stageField (elemNo h n) (e.slotCode h uv * 65536) 0xff0000
  if e.slotVerdict h n uv = cellGet (fun _ => 0) (e.head h).verdicts n then x
  else x.listVerdict (elemNo h n) (e.slotVerdict h n uv) (e.slotCode h uv)

theorem Engine.head_setHead_same (x : Head) : (e.setHead h x).head h = x := (e.head_setHead h h x).trans (if_pos rfl)

theorem Engine.get_stageField (i v mask k l : Nat) : (e.stageField i v mask).get k l = e.get k l := by
  rw [Engine.stageField]
  split_ifs <;> rfl

theorem Engine.head_stageField (i v mask k : Nat) : (e.stageField i v mask).head k = e.head k := by
  rw [Engine.stageField]
  split_ifs <;> rfl

theorem Engine.measure_eq :
    e.measure h n uv = (e.noted h n uv).setHead h ((e.head h).judged n (e.slotVerdict h n uv)) := by
  simp only [Engine.measure, Engine.get_stageField, Engine.head_stageField]
  rfl

theorem Engine.head_measure : (e.measure h n uv).head h = (e.head h).judged n (e.slotVerdict h n uv) := by
  rw [Engine.measure_eq, Engine.head_setHead_same]

theorem Engine.stagingEntry_listVerdict (i v code k : Nat) : (e.listVerdict i v code).stagingEntry k = e.stagingEntry k := by
  rw [Engine.listVerdict]
  split_ifs <;> rfl

/-- R214: the code goes into its field of the element's staging entry. -/
theorem Engine.stagingEntry_measure (hsound : cellGet (fun _ => false) e.img.poisonS (elemNo h n) = false) :
    (e.measure h n uv).stagingEntry (elemNo h n) =
      maskWrite (e.stagingEntry (elemNo h n)) (e.slotCode h uv * 65536) 0xff0000 32 := by
  have hstaged : (e.stageField (elemNo h n) (e.slotCode h uv * 65536) 0xff0000).stagingEntry (elemNo h n) =
      maskWrite (e.stagingEntry (elemNo h n)) (e.slotCode h uv * 65536) 0xff0000 32 := by
    rw [Engine.stageField, if_neg (by simp [hsound]), Engine.stagingEntry_stageEntry, if_pos rfl]
  have hkeeps (x : Engine) (y : Head) : (x.setHead h y).stagingEntry (elemNo h n) = x.stagingEntry (elemNo h n) := rfl
  rw [Engine.measure_eq, hkeeps, Engine.noted]
  split_ifs
  · exact hstaged
  · exact (Engine.stagingEntry_listVerdict _ _ _ _ _).trans hstaged

theorem Engine.slot_shut (missed : Bool) (hshut : e.care.window = false) : e.slot h uv missed = e :=
  if_pos (.inr (.inl (by simp [hshut])))

/-- R215: what a slot finds where every eligible head takes part and elements of head `h` are left. -/
structure Engine.SlotOpen (e : Engine) (h : Nat) : Prop where
  sweeps : e.care.sweep = true
  opened : e.care.window = true
  eligible : e.sweepable h = true
  part : ∀ j, j < 128 → e.sweepable j = true → (e.head j).inSweep = true ∧ (e.head j).meas = true

theorem Engine.slot_missed (ho : e.SlotOpen h) (hh : h < 128) (htodo : (e.head h).todo = n :: todo) :
    e.slot h uv true = (e.setHead h ((e.head h).due (todo ++ [n]))).bump 0x3420 8 1 := by
  have hmeas : (((e.setHead h ((e.head h).due (todo ++ [n]))).bump 0x3420 8 1).head h).meas = true :=
    (congrArg Head.meas (e.head_setHead_same _)).trans (ho.part h hh ho.eligible).2
  rw [Engine.slot, if_neg (by simp [ho.sweeps, ho.opened, ho.eligible])]
  simp only [Engine.joinAll_joined ho.part, htodo]
  exact (if_pos (.inl trivial)).trans (if_pos hmeas)

/-- R214: a slot that measures an element which is not the last. -/
theorem Engine.slot_measures {m : Nat} (ho : e.SlotOpen h) (hh : h < 128) (htodo : (e.head h).todo = n :: m :: todo) :
    e.slot h uv false =
      ((e.setHead h ((e.head h).due (m :: todo))).measure h n uv).put 0x3420 7 ((n + 1) % 2048) := by
  rw [Engine.slot, if_neg (by simp [ho.sweeps, ho.opened, ho.eligible])]
  simp only [Engine.joinAll_joined ho.part, htodo]
  exact (if_neg (by simp [(ho.part h hh ho.eligible).2])).trans (if_neg (by simp))

end Slots

theorem resistanceSlots : Says.ResistanceSlots := by
  intro s h uv hlive
  have hslot (missed : Bool) : Becomes (.resistanceSlot h uv missed) s (s.e.slot h.val uv missed) :=
    becomes_of_whenLive (f := fun e => e.slot h.val uv missed) rfl hlive
  refine ⟨?_, ?_, ?_⟩
  · intro missed hshut
    have hnothing := hslot missed
    rwa [s.e.slot_shut missed hshut] at hnothing
  · intro n todo hsweep hopen hpart hall htodo
    have hmissed := hslot true
    rw [s.e.slot_missed ⟨hsweep, hopen, hpart, hall⟩ h.isLt htodo] at hmissed
    exact hmissed.completes ⟨congrArg Head.todo (s.e.head_setHead_same _), Engine.get_put_same _ _ _ _,
      fun k hk => (Engine.ent_put _ _ _ _ k).trans (if_neg hk), rfl⟩
  · intro n m todo hsweep hopen hpart hall htodo hsound
    have hmeasured := hslot false
    rw [s.e.slot_measures ⟨hsweep, hopen, hpart, hall⟩ h.isLt htodo] at hmeasured
    have hdue := s.e.head_setHead_same (h := h.val) ((s.e.head h.val).due (m :: todo))
    have hhead := (s.e.setHead h.val ((s.e.head h.val).due (m :: todo))).head_measure (h := h.val) (n := n) (uv := uv)
    rw [hdue] at hhead
    refine hmeasured.completes ⟨congrArg Head.todo hhead, Engine.get_put_same _ _ _ _, ?_, ?_⟩
    · exact Engine.stagingEntry_measure _ hsound
    · have hverdict := congrArg (fun x : Head => cellGet (fun _ => 0) x.verdicts n) hhead
      refine hverdict.trans ((cellGet_cellSet_same _ _ _ _).trans ?_)
      rw [Engine.slotVerdict, hdue]
      rfl

/-- Settles O33: windows by the engine they leave, slots by the element that is due. -/
theorem resistanceMeasurement : Obligations.ResistanceMeasurement := ⟨measurementWindows, resistanceSlots⟩

end Sys2Proof.Machine

/-! The first steps of Dawn (R295, R368-R371, R376, R377): fuses, the wipe, the boot ROM. -/

namespace Sys2Proof.Machine

/-! Updates of a list, and the step that is next -/

section Steps

variable (e : Engine)

/-- What every update of a list keeps for the indices in it is kept by all of them. -/
theorem Engine.each_keeps_mem {α : Type} (g : Engine → α) {f : Engine → Nat → Engine} (is : List Nat)
    (h : ∀ e, ∀ i ∈ is, g (f e i) = g e) : g (e.each is f) = g e :=
  List.foldlRecOn (motive := fun x => g x = g e) is f rfl fun x hx i hi => (h x i hi).trans hx

theorem mem_four {p : Nat} : p ∈ [0, 1, 2, 3] ↔ p < 4 := List.mem_range (n := 4)

theorem Engine.atStep_next {n : Nat} (hdawn : e.mode = .dawn) (hstep : e.get 0x2001 1 = n) : e.atStep (n + 1) = true := by
  simp [Engine.atStep, Engine.dawnStep, hdawn, hstep]

theorem Engine.atStep_other {n : Nat} (hstep : e.get 0x2001 1 ≠ n) : e.atStep (n + 1) = false := by
  simp [Engine.atStep, Engine.dawnStep, hstep]

theorem Engine.endStep_mode (n : Nat) : (e.endStep n).mode = e.mode := rfl

theorem Engine.endStep_read (n : Nat) : (e.endStep n).dawn.read = e.dawn.read := rfl

theorem Engine.endStep_mem (n : Nat) : (e.endStep n).mem = e.mem := rfl

theorem Engine.get_endStep_step (n : Nat) : (e.endStep n).get 0x2001 1 = n := e.get_put_same _ _ _

theorem Engine.get_endStep_other (n : Nat) {i j : Nat} (hi : i ≠ 0x2001) (hj : j < 256) :
    (e.endStep n).get i j = e.get i j := e.get_put_other (by decide) hj fun hsame => hi hsame.1

theorem Engine.ent_endStep (n k : Nat) : (e.endStep n).ent k = if k = 0x200101 then n else e.ent k :=
  e.ent_put 0x2001 1 n k

end Steps

/-! Step 2: the fuses (R368-R370) -/

section FuseStep

variable (e : Engine) (n : NonVol) (weak : List (Nat × Nat))

/-- The engine that holds what Dawn made of the fuse words. -/
def Engine.withFuses (e : Engine) (rs : List (Nat × FuseRead)) : Engine :=
  { e with dawn.read := rs.filter (fun p => decide (p.2 ≠ {})) }

/-- The engine that publishes life-cycle state `k` and what else the fuses give. -/
def Engine.fusesTaken (e : Engine) (k : Nat) (rs : List (Nat × FuseRead)) : Engine :=
  (Engine.publishFuses { (e.withFuses rs).put 0x4300 1 k with
    dawn.noticesDue := (rs.filter (fun p => p.2.corrected)).map (·.1) }).takeTrims

theorem fuseStep_waits (hstep : e.get 0x2001 1 ≠ 1) : fuseStep weak n e = e := if_pos (by simp [e.atStep_other hstep])

variable {e n weak} {rs : List (Nat × FuseRead)}

theorem fuseStep_noState (hdawn : e.mode = .dawn) (hstep : e.get 0x2001 1 = 1) (hrs : rs = readFuses n weak)
    (hstate : (e.withFuses rs).lifeCycle = none) :
    fuseStep weak n e = { e.withFuses rs with mode := .held 1 } := by
  rw [fuseStep, if_neg (by simp [e.atStep_next hdawn hstep]), ← hrs]
  rw [Engine.withFuses] at hstate
  simp only [hstate, Engine.withFuses]

/-- R369: a failed critical word holds the engine in reset. -/
theorem fuseStep_critical {k : Nat} (hdawn : e.mode = .dawn) (hstep : e.get 0x2001 1 = 1) (hrs : rs = readFuses n weak)
    (hstate : (e.withFuses rs).lifeCycle = some k)
    (hfailed : rs.any (fun p => p.2.failed && criticalWord p.1) = true) :
    fuseStep weak n e = { e.withFuses rs with mode := .held 1 } := by
  rw [fuseStep, if_neg (by simp [e.atStep_next hdawn hstep]), ← hrs]
  rw [Engine.withFuses] at hstate
  simp only [hstate, hfailed, if_true, Engine.withFuses]

theorem fuseStep_taken {k : Nat} (hdawn : e.mode = .dawn) (hstep : e.get 0x2001 1 = 1) (hrs : rs = readFuses n weak)
    (hstate : (e.withFuses rs).lifeCycle = some k)
    (hsound : rs.any (fun p => p.2.failed && criticalWord p.1) = false) :
    fuseStep weak n e = (e.fusesTaken k rs).endStep 2 := by
  rw [fuseStep, if_neg (by simp [e.atStep_next hdawn hstep]), ← hrs]
  rw [Engine.withFuses] at hstate
  simp only [hstate, hsound, Engine.fusesTaken, Engine.withFuses]
  rfl

variable (e)

/-- The trims that locked regions give keep what none of their entries is read from. -/
theorem Engine.takeTrims_keeps {α : Type} (g : Engine → α)
    (hspare : ∀ (x : Engine) (k v : Nat), g ((x.put (0x4030 + k) 4 v).useFree) = g x)
    (hdelay : ∀ (x : Engine), ∀ k ∈ [0, 1, 2], ∀ o ∈ [0, 1, 2], ∀ v,
      g ((x.put (pllIdx k) (0x0D + o) v).useFree) = g x) :
    g e.takeTrims = g e := by
  have hrows (x : Engine) :
      g (x.each (List.range 8) fun e k => (e.put (0x4030 + k) 4 (e.freeVal.toNat % 65536)).useFree) = g x :=
    Engine.each_keeps x g _ fun x k => hspare x k _
  have htrims (x : Engine) : g (x.each [0, 1, 2] fun e k =>
      e.each [0, 1, 2] fun e o => (e.put (pllIdx k) (0x0D + o) (e.freeVal.toNat % 64)).useFree) = g x :=
    Engine.each_keeps_mem x g _ fun x k hk => Engine.each_keeps_mem x g _ fun x o ho => hdelay x k hk o ho _
  simp only [Engine.takeTrims]
  split_ifs
  · exact (htrims _).trans (hrows _)
  · exact hrows _
  · exact htrims _
  · rfl

theorem Engine.get_takeTrims_state : e.takeTrims.get 0x4300 1 = e.get 0x4300 1 := by
  refine e.takeTrims_keeps (·.get 0x4300 1) (fun x k v => ?_) fun x k hk o ho v => ?_
  · exact x.get_put_ne (by unfold ekey; omega)
  · simp only [List.mem_cons, List.not_mem_nil, or_false] at hk ho
    exact x.get_put_ne (by unfold ekey pllIdx; omega)

theorem Engine.get_publishFuses_state : e.publishFuses.get 0x4300 1 = e.get 0x4300 1 := by
  have hhost (x : Engine) (a b : Nat) :
      Engine.get { x with host.stepping := a, host.build := b } 0x4300 1 = x.get 0x4300 1 := rfl
  rw [Engine.publishFuses]
  simp only [hhost, Engine.get_setDom, Engine.get_put]
  simp [ekey]

theorem Engine.publishFuses_dawn : e.publishFuses.dawn = e.dawn := by
  simp only [Engine.publishFuses, Engine.put_dawn, Engine.setDom_dawn]

theorem Engine.publishFuses_mode : e.publishFuses.mode = e.mode := by
  simp only [Engine.publishFuses, Engine.put_mode, Engine.setDom_mode]

/-- R370: the life-cycle state is published, and Dawn goes on with the words as it read them. -/
theorem Engine.fusesTaken_publishes (k : Nat) (rs : List (Nat × FuseRead)) :
    (e.fusesTaken k rs).get 0x4300 1 = k ∧ (e.fusesTaken k rs).dawn.read = (e.withFuses rs).dawn.read ∧
      (e.fusesTaken k rs).mode = e.mode := by
  refine ⟨?_, ?_, ?_⟩
  · rw [Engine.fusesTaken, Engine.get_takeTrims_state, Engine.get_publishFuses_state]
    exact Engine.get_put_same _ _ _ _
  · refine (Engine.takeTrims_keeps _ (·.dawn.read) (fun _ _ _ => rfl) fun _ _ _ _ _ _ => rfl).trans ?_
    rw [Engine.publishFuses_dawn]
    rfl
  · refine (Engine.takeTrims_keeps _ (·.mode) (fun _ _ _ => rfl) fun _ _ _ _ _ _ => rfl).trans ?_
    rw [Engine.publishFuses_mode]
    rfl

end FuseStep

/-! Step 3: the wipe (R295, R371, R377) -/

section Wipe

variable (e : Engine)

theorem Engine.wiped_waits (hstep : e.get 0x2001 1 ≠ 2) : e.wiped = e := if_pos (by simp [e.atStep_other hstep])

theorem Engine.wiped_void (hdawn : e.mode = .dawn) (hstep : e.get 0x2001 1 = 2) (hdue : e.dawn.noticesDue = [])
    (hvoid : e.get 0x4300 1 = 4) :
    e.wiped = { Engine.endStep { e with dawn.noticesDue := [] } 3 with mode := .held 2 } := by
  have hstate : (Engine.endStep { e with dawn.noticesDue := [] } 3).get 0x4300 1 = 4 :=
    (Engine.get_endStep_other _ 3 (by decide) (by decide)).trans hvoid
  rw [Engine.wiped, if_neg (by simp [e.atStep_next hdawn hstep])]
  simp only [hdue, List.foldl_nil]
  exact if_pos hstate

theorem Engine.wiped_clocks (hdawn : e.mode = .dawn) (hstep : e.get 0x2001 1 = 2) (hdue : e.dawn.noticesDue = [])
    (hvoid : e.get 0x4300 1 ≠ 4) :
    e.wiped = (Engine.endStep { e with dawn.noticesDue := [] } 3).each [0, 1, 2] Engine.pllSearch := by
  have hstate : (Engine.endStep { e with dawn.noticesDue := [] } 3).get 0x4300 1 ≠ 4 :=
    fun heq => hvoid ((Engine.get_endStep_other _ 3 (by decide) (by decide)).symm.trans heq)
  rw [Engine.wiped, if_neg (by simp [e.atStep_next hdawn hstep])]
  simp only [hdue, List.foldl_nil]
  exact if_neg hstate

theorem Engine.get_pllSearch_state (x k : Nat) :
    (e.pllSearch x).get (pllIdx k) 1 = if k = x then 1 else e.get (pllIdx k) 1 := by
  have hkey : ekey (pllIdx k) 1 = ekey (pllIdx x) 1 ↔ k = x := by
    unfold ekey pllIdx
    omega
  refine (Engine.get_put_other _ (by decide) (by decide) (by simp)).trans ?_
  rw [Engine.get_put]
  exact if_congr hkey rfl rfl

theorem Engine.get_pllSearch_step (x : Nat) : (e.pllSearch x).get 0x2001 1 = e.get 0x2001 1 := by
  refine (Engine.get_put_other _ (by decide) (by decide) (by decide)).trans (Engine.get_put_ne _ ?_)
  unfold ekey pllIdx
  omega

theorem Engine.pllSearch_mode (x : Nat) : (e.pllSearch x).mode = e.mode := rfl

theorem Engine.pll_pllSearch (x k : Nat) :
    (e.pllSearch x).pll k = if k = x then { e.pll x with searching := true, declared := false } else e.pll k :=
  Engine.pll_setPll _ _ _ _

/-- R331: the PLLs of a list search together. -/
theorem Engine.each_pllSearch (xs : List Nat) {x : Nat} (hx : x ∈ xs) :
    (e.each xs Engine.pllSearch).get (pllIdx x) 1 = 1 ∧ ((e.each xs Engine.pllSearch).pll x).searching = true := by
  refine foldl_reaches (I := fun _ => True) (P := fun k y => y.get (pllIdx k) 1 = 1 ∧ (y.pll k).searching = true)
    (f := Engine.pllSearch) xs e trivial (fun y _ k _ => ⟨trivial, ⟨?_, ?_⟩, ?_⟩) x hx
  · rw [Engine.get_pllSearch_state, if_pos rfl]
  · rw [Engine.pll_pllSearch, if_pos rfl]
  · rintro q ⟨hstate, hsearch⟩
    rw [Engine.get_pllSearch_state, Engine.pll_pllSearch]
    split_ifs
    · exact ⟨rfl, rfl⟩
    · exact ⟨hstate, hsearch⟩

end Wipe

/-! Step 5: the boot ROM (R376) -/

section BootRom

variable (n : NonVol) (e : Engine)

/-- What the boot ROM makes of the images rests on the fuse words that Dawn read. -/
theorem bootChoice_congr {a b : Engine} (h : a.dawn.read = b.dawn.read) : bootChoice n a = bootChoice n b := by
  have hverifies (p : Nat) (img : List Byte) : a.verifies p img = b.verifies p img := by
    simp only [Engine.verifies, Engine.slotUsable, Engine.regionLocked, Engine.slotRevoked, Engine.keyHash, Engine.fuseRead, h]
  funext p
  simp only [bootChoice, hverifies]

/-- The engine that has a verified image of partition `p` in its entries: it notes the images that verified and, for one that is
not the selected image, the fallback to report. -/
def Engine.imageNoted (e : Engine) (p : Nat) (seen : List (Nat × Bool)) (due : Bool) : Engine :=
  let x : Engine := { e with dawn.verified := cellSetAll (fun _ => false) seen e.dawn.verified }
  if due then { x.setStarting p 2 with dawn.fallbackDue := x.dawn.fallbackDue ++ [p] } else x.setStarting p 0

section ImageNoted

variable (p : Nat) (seen : List (Nat × Bool)) (due : Bool)

theorem Engine.imageNoted_read : (e.imageNoted p seen due).dawn.read = e.dawn.read := by
  cases due <;> rfl

theorem Engine.imageNoted_mode : (e.imageNoted p seen due).mode = e.mode := by
  cases due <;> rfl

theorem Engine.get_imageNoted (i j : Nat) : (e.imageNoted p seen due).get i j = e.get i j := by
  cases due <;> rfl

end ImageNoted

/-- The entries that an image chosen by the boot ROM writes (R30): slot, version and fallback count. -/
def Engine.choiceWritten (n : NonVol) (e : Engine) (p : Nat) (b : BootChoice) : Engine :=
  ((e.put (partIdx p) 1 b.slot).put (partIdx p) 2 (imageVersion (n.image p b.slot))).put (partIdx p) 6 b.count

theorem Engine.loadImage_eq (p : Nat) : ∃ seen,
    Engine.loadImage n e p = (Engine.choiceWritten n e p (bootChoice n e p)).imageNoted p seen (bootChoice n e p).due := by
  rw [Engine.loadImage]
  generalize bootChoice n e p = b
  exact ⟨_, rfl⟩

theorem Engine.loadImage_read (p : Nat) : (Engine.loadImage n e p).dawn.read = e.dawn.read := by
  obtain ⟨_, hloads⟩ := Engine.loadImage_eq n e p
  rw [hloads, Engine.imageNoted_read]
  rfl

theorem Engine.loadImage_mode (p : Nat) : (Engine.loadImage n e p).mode = e.mode := by
  obtain ⟨_, hloads⟩ := Engine.loadImage_eq n e p
  rw [hloads, Engine.imageNoted_mode]
  rfl

theorem Engine.get_loadImage (p i j : Nat) :
    (Engine.loadImage n e p).get i j = (Engine.choiceWritten n e p (bootChoice n e p)).get i j := by
  obtain ⟨_, hloads⟩ := Engine.loadImage_eq n e p
  rw [hloads, Engine.get_imageNoted]

theorem Engine.get_loadImage_other (p : Nat) {i j : Nat} (hi : i ≠ partIdx p) (hj : j < 256) :
    (Engine.loadImage n e p).get i j = e.get i j := by
  have hother (j' : Nat) : ¬ (i = partIdx p ∧ j = j') := fun hsame => hi hsame.1
  rw [Engine.get_loadImage, Engine.choiceWritten, Engine.get_put_other _ (by decide) hj (hother 6),
    Engine.get_put_other _ (by decide) hj (hother 2),
    Engine.get_put_other _ (by decide) hj (hother 1)]

/-- The entries of partition `p` as the image that the boot ROM chose on engine `e` leaves them. -/
def Engine.ImageLoaded (n : NonVol) (e : Engine) (p : Nat) (x : Engine) : Prop :=
  x.get (partIdx p) 1 = (bootChoice n e p).slot ∧ x.get (partIdx p) 6 = (bootChoice n e p).count ∧
    x.get (partIdx p) 2 = imageVersion (n.image p (bootChoice n e p).slot)

theorem Engine.loadImage_loads (p : Nat) : Engine.ImageLoaded n e p (Engine.loadImage n e p) := by
  simp [Engine.ImageLoaded, Engine.get_loadImage, Engine.choiceWritten, Engine.get_put]

/-- The engine with the images of all partitions loaded. -/
def Engine.imagesLoaded (n : NonVol) (e : Engine) : Engine := e.each [0, 1, 2, 3] (Engine.loadImage n)

theorem Engine.imagesLoaded_loads {p : Nat} (hp : p ∈ [0, 1, 2, 3]) : Engine.ImageLoaded n e p (Engine.imagesLoaded n e) := by
  refine foldl_reaches (I := fun x => x.dawn.read = e.dawn.read) (P := Engine.ImageLoaded n e) (f := Engine.loadImage n)
    _ e rfl (fun x hread k _ => ⟨(Engine.loadImage_read n x k).trans hread, ?_, fun q hq => ?_⟩) p hp
  · have hloads := Engine.loadImage_loads n x k
    rwa [Engine.ImageLoaded, bootChoice_congr n hread] at hloads
  · obtain rfl | hne := eq_or_ne q k
    · have hloads := Engine.loadImage_loads n x q
      rwa [Engine.ImageLoaded, bootChoice_congr n hread] at hloads
    · have hidx : partIdx q ≠ partIdx k := by
        unfold partIdx
        omega
      simp only [Engine.ImageLoaded, Engine.get_loadImage_other n x k hidx (show 1 < 256 by decide),
        Engine.get_loadImage_other n x k hidx (show 2 < 256 by decide),
        Engine.get_loadImage_other n x k hidx (show 6 < 256 by decide)]
      exact hq

theorem Engine.get_imagesLoaded_node {j : Nat} (hj : j < 256) : (Engine.imagesLoaded n e).get 0x5000 j = e.get 0x5000 j := by
  refine Engine.each_keeps_mem e (·.get 0x5000 j) _ fun x p hp => Engine.get_loadImage_other n x p ?_ hj
  simp only [List.mem_cons, List.not_mem_nil, or_false] at hp
  unfold partIdx
  omega

theorem Engine.imagesLoaded_mode : (Engine.imagesLoaded n e).mode = e.mode :=
  Engine.each_keeps e (·.mode) _ fun x p => Engine.loadImage_mode n x p

/-- The remap tables as they are published (R299). -/
def Engine.remapsPublished (e : Engine) : Engine := e.each (List.range 8) Engine.publishRemap

theorem Engine.get_remapsPublished {i j : Nat} (hj : j < 256) (hne : j ≠ 5) : e.remapsPublished.get i j = e.get i j :=
  Engine.each_keeps e (·.get i j) _ fun x _ => x.get_put_other (by decide) hj fun hsame => hne hsame.2

theorem Engine.remapsPublished_mode : e.remapsPublished.mode = e.mode := Engine.each_keeps e (·.mode) _ fun _ _ => rfl

theorem Engine.loadRecords_erased (herased : n.records = []) : Engine.loadRecords n e = e.remapsPublished := by
  rw [Engine.loadRecords]
  refine congrArg Engine.remapsPublished (Engine.each_keeps e id _ fun x k => ?_)
  have hblank : cellGet (fun _ => ([] : List Byte)) n.records k = [] := by
    rw [herased]
    rfl
  simp only [hblank, if_true]

theorem NonVol.currentCopy_erased {n : NonVol} (herased : n.copies = []) : n.currentCopy = none := by
  have hcopy (k : Nat) : n.copy k = none := by
    have hblank : cellGet (fun _ => ([] : List Byte)) n.copies k = [] := by
      rw [herased]
      rfl
    simp [NonVol.copy, hblank, parseCopy]
  simp only [NonVol.currentCopy, hcopy]

theorem NonVol.storedRecords_erased {n : NonVol} (herased : n.copies = []) : n.storedRecords = [] := by
  rw [NonVol.storedRecords, NonVol.currentCopy_erased herased]
  rfl

/-- The end of step 5: node-ID and port B are taken from the configuration (R380). -/
def Engine.configured (e : Engine) : Engine :=
  Engine.endStep { e with net.nodeId := e.get 0x5000 1, net.portB := e.get 0x5000 4 } 5

theorem Engine.configured_mode : e.configured.mode = e.mode := rfl

theorem Engine.configured_nodeId : e.configured.net.nodeId = e.get 0x5000 1 := rfl

theorem Engine.get_configured_step : e.configured.get 0x2001 1 = 5 := Engine.get_endStep_step _ _

theorem Engine.get_configured_other {i j : Nat} (hi : i ≠ 0x2001) (hj : j < 256) : e.configured.get i j = e.get i j :=
  Engine.get_endStep_other _ 5 hi hj

/-- The engine that a boot ROM with nothing stored leaves. -/
def Engine.booted (n : NonVol) (e : Engine) : Engine := (Engine.imagesLoaded n e).remapsPublished.configured

variable {n e}

theorem Engine.bootRom_noHeader (hdawn : e.mode = .dawn) (hstep : e.get 0x2001 1 = 4) (hheader : n.header = false) :
    Engine.bootRom n e = { e with mode := .held 6 } := by
  rw [Engine.bootRom, if_neg (by simp [e.atStep_next hdawn hstep]), if_pos (by simp [hheader])]

theorem Engine.bootRom_noImage (hdawn : e.mode = .dawn) (hstep : e.get 0x2001 1 = 4) (hheader : n.header = true)
    (hbad : ∃ p, p < 4 ∧ (bootChoice n e p).ok = false) : Engine.bootRom n e = { e with mode := .held 4 } := by
  have hany : [0, 1, 2, 3].any (fun p => !(bootChoice n e p).ok) = true := by
    obtain ⟨p, hp, hfails⟩ := hbad
    exact List.any_eq_true.mpr ⟨p, mem_four.mpr hp, by simp [hfails]⟩
  rw [Engine.bootRom, if_neg (by simp [e.atStep_next hdawn hstep]), if_neg (by simp [hheader]), if_pos hany]

theorem Engine.bootRom_boots (hdawn : e.mode = .dawn) (hstep : e.get 0x2001 1 = 4) (hheader : n.header = true)
    (hgood : ∀ p, p < 4 → (bootChoice n e p).ok = true) (hcopies : n.copies = []) (hrecords : n.records = []) :
    Engine.bootRom n e = Engine.booted n e := by
  have hany : ¬ [0, 1, 2, 3].any (fun p => !(bootChoice n e p).ok) = true := by
    simp [hgood]
  rw [Engine.bootRom, if_neg (by simp [e.atStep_next hdawn hstep]), if_neg (by simp [hheader]), if_neg hany]
  simp only [Engine.loadRecords_erased n _ hrecords, NonVol.storedRecords_erased hcopies, List.filter_nil, List.foldl_nil]
  rfl

/-- R376, R380: the engine that has booted. -/
theorem Engine.booted_boots : (Engine.booted n e).get 0x2001 1 = 5 ∧ (Engine.booted n e).mode = e.mode ∧
    (Engine.booted n e).net.nodeId = e.get 0x5000 1 ∧ ∀ p, p < 4 → Engine.ImageLoaded n e p (Engine.booted n e) := by
  refine ⟨?_, ?_, ?_, fun p hp => ?_⟩
  · rw [Engine.booted, Engine.get_configured_step]
  · rw [Engine.booted, Engine.configured_mode, Engine.remapsPublished_mode, Engine.imagesLoaded_mode]
  · rw [Engine.booted, Engine.configured_nodeId, Engine.get_remapsPublished _ (by decide) (by decide),
      Engine.get_imagesLoaded_node n e (by decide)]
  · have hkeeps {j : Nat} (hj : j < 256) (hne : j ≠ 5) :
        (Engine.booted n e).get (partIdx p) j = (Engine.imagesLoaded n e).get (partIdx p) j := by
      have hidx : partIdx p ≠ 0x2001 := by
        unfold partIdx
        omega
      rw [Engine.booted, Engine.get_configured_other _ hidx hj, Engine.get_remapsPublished _ hj hne]
    rw [Engine.ImageLoaded, hkeeps (by decide) (by decide), hkeeps (by decide) (by decide), hkeeps (by decide) (by decide)]
    exact Engine.imagesLoaded_loads n e (mem_four.mpr hp)

end BootRom

theorem dawnFirstSteps : Says.DawnFirstSteps := by
  intro s weak rs e0 hlive hdawn hrs he0
  change e0 = s.e.withFuses rs at he0
  subst he0
  have hfuses : Becomes (.dawnFuseRead weak) s (fuseStep weak s.nv s.e) := by
    rw [← whenLive_live s.e (f := fuseStep weak s.nv) hlive]
    rfl
  have hwipe : Becomes .dawnWipe s s.e.wiped := becomes_of_whenLive rfl hlive
  have hboot : exec .dawnBootRom s = .next (s.withSelectors (Engine.bootRom s.nv s.e)) := by
    rw [← whenLive_live s.e (f := Engine.bootRom s.nv) hlive]
    rfl
  refine ⟨?_, ?_, ?_, ?_, ?_, ?_, ?_, ?_, ?_, ?_⟩
  · intro hstep
    rwa [fuseStep_waits _ _ _ hstep] at hfuses
  · intro hstep hstate
    rwa [fuseStep_noState hdawn hstep hrs hstate] at hfuses
  · intro k hstep hstate hfailed
    rwa [fuseStep_critical hdawn hstep hrs hstate hfailed] at hfuses
  · intro k hstep hstate hsound
    rw [fuseStep_taken hdawn hstep hrs hstate hsound] at hfuses
    obtain ⟨hpublished, hread, hmode⟩ := s.e.fusesTaken_publishes k rs
    exact hfuses.completes ⟨Engine.get_endStep_step _ _,
      (Engine.get_endStep_other _ 2 (by decide) (by decide)).trans hpublished,
      (Engine.endStep_read _ 2).trans hread, (Engine.endStep_mode _ 2).trans (hmode.trans hdawn), rfl⟩
  · intro hstep
    rwa [s.e.wiped_waits hstep] at hwipe
  · intro hstep hdue hvoid
    rw [s.e.wiped_void hdawn hstep hdue hvoid] at hwipe
    exact hwipe.completes ⟨rfl, Engine.get_endStep_step _ _⟩
  · intro hstep hdue hvoid
    rw [s.e.wiped_clocks hdawn hstep hdue hvoid] at hwipe
    refine hwipe.completes ⟨?_, ?_, fun x hx => ?_⟩
    · exact (Engine.each_keeps _ (·.mode) _ Engine.pllSearch_mode).trans hdawn
    · exact (Engine.each_keeps _ (·.get 0x2001 1) _ Engine.get_pllSearch_step).trans (Engine.get_endStep_step _ _)
    · exact Engine.each_pllSearch _ [0, 1, 2] (List.mem_range (n := 3).mpr hx)
  · intro hstep hheader
    rw [Engine.bootRom_noHeader hdawn hstep hheader] at hboot
    exact ⟨_, hboot, rfl⟩
  · intro hstep hheader hbad
    rw [Engine.bootRom_noImage hdawn hstep hheader hbad] at hboot
    exact ⟨_, hboot, rfl⟩
  · intro hstep hheader hgood hcopies hrecords
    rw [Engine.bootRom_boots hdawn hstep hheader hgood hcopies hrecords] at hboot
    obtain ⟨hnext, hmode, hnode, himages⟩ := Engine.booted_boots (n := s.nv) (e := s.e)
    exact ⟨_, hboot, hnext, hmode.trans hdawn, hnode, himages⟩

end Sys2Proof.Machine

/-! The last steps of Dawn (R209, R280, R287, R377, R387, R409): DRAM, partitions, peers, heads. -/

namespace Sys2Proof.Machine

/-! Step 6: DRAM training (R267, R280, R287) -/

section Training

variable (e : Engine) {tr : Nat}

/-- The channels that 4000h:07h fits (R266). -/
def Engine.fittedChannels (e : Engine) : List Nat := [0, 1, 2, 3].filter (fun c => bit (e.get 0x4000 7) c)

theorem Engine.mem_fittedChannels (c : Nat) : c ∈ e.fittedChannels ↔ c < 4 ∧ bit (e.get 0x4000 7) c = true := by
  rw [Engine.fittedChannels, List.mem_filter, mem_four]

/-- Channels that do not train are in state 4. -/
def Engine.markFailed (e : Engine) (c : Nat) : Engine := e.put (chanIdx c) 1 4

/-- The engine whose channels `cs` are up. -/
def Engine.channelsUp (e : Engine) (cs : List Nat) : Engine := e.memConfig.each cs Engine.channelUp

/-- Every line UNWRITTEN, marking begun, the step complete (R287). -/
def Engine.trainingEnds (e : Engine) : Engine :=
  ((({ e.dramMark with mem.trained := true } : Engine).put 0x4001 1 0).put 0x4001 5 0).publishDram.endStep 6

theorem Engine.trainDram_waits (hstep : e.get 0x2001 1 ≠ 5) : e.trainDram tr = e :=
  if_pos (.inl (by simp [e.atStep_other hstep]))

theorem Engine.trainDram_runs (hdawn : e.mode = .dawn) (hstep : e.get 0x2001 1 = 5)
    (hnew : ∀ c, c < 4 → e.get (0x4010 + c) 1 ≠ 4) :
    ¬ (!e.atStep 6 ∨ [0, 1, 2, 3].any (fun c => e.get (chanIdx c) 1 == 4)) := by
  simp [e.atStep_next hdawn hstep, chanIdx, hnew 0, hnew 1, hnew 2, hnew 3]

theorem Engine.trainDram_trains (hdawn : e.mode = .dawn) (hstep : e.get 0x2001 1 = 5)
    (hnew : ∀ c, c < 4 → e.get (0x4010 + c) 1 ≠ 4) (hall : ∀ c ∈ e.fittedChannels, bit tr c = true)
    (hsome : e.fittedChannels ≠ []) : e.trainDram tr = (e.channelsUp e.fittedChannels).trainingEnds := by
  have hfitted : [0, 1, 2, 3].filter (fun c => bit e.memConfig.mem.fitted c) = e.fittedChannels := rfl
  have hgood : e.fittedChannels.filter (fun c => bit tr c) = e.fittedChannels := List.filter_eq_self.mpr hall
  have hbad : e.fittedChannels.filter (fun c => !bit tr c) = [] := List.filter_eq_nil_iff.mpr fun c hc => by simp [hall c hc]
  rw [Engine.trainDram, if_neg (e.trainDram_runs hdawn hstep hnew)]
  simp only [hfitted, hgood, hbad, Engine.each, List.foldl_nil, List.isEmpty_iff, if_neg hsome]
  rfl

/-- R280: without a channel that trains, 09h:04h is raised and Dawn stays where it is. -/
theorem Engine.trainDram_fails (hdawn : e.mode = .dawn) (hstep : e.get 0x2001 1 = 5)
    (hnew : ∀ c, c < 4 → e.get (0x4010 + c) 1 ≠ 4) :
    e.trainDram 0 = (e.memConfig.each e.fittedChannels Engine.markFailed).raise 9 4 0 := by
  have hfitted : [0, 1, 2, 3].filter (fun c => bit e.memConfig.mem.fitted c) = e.fittedChannels := rfl
  have hnone (c : Nat) : bit 0 c = false := by simp [bit]
  rw [Engine.trainDram, if_neg (e.trainDram_runs hdawn hstep hnew)]
  simp only [hfitted, hnone, Bool.not_false, List.filter_true, List.filter_false, List.isEmpty_nil, if_true]
  rfl

theorem Engine.get_markFailed_step (c : Nat) : (e.markFailed c).get 0x2001 1 = e.get 0x2001 1 := by
  refine e.get_put_ne ?_
  unfold ekey chanIdx
  omega

theorem Engine.markFailed_marks {cs : List Nat} {c : Nat} (hc : c ∈ cs) :
    (e.each cs Engine.markFailed).get (0x4010 + c) 1 = 4 := by
  refine foldl_reaches (I := fun _ => True) (P := fun c x => x.get (chanIdx c) 1 = 4) (f := Engine.markFailed) cs e trivial
    (fun x _ k _ => ⟨trivial, x.get_put_same _ _ _, fun q hq => ?_⟩) c hc
  rw [Engine.markFailed, Engine.get_put]
  split_ifs
  · rfl
  · exact hq

theorem Engine.get_channelUp_state (c k : Nat) :
    (e.channelUp c).get (chanIdx k) 1 = if k = c then 1 else e.get (chanIdx k) 1 := by
  have hkey : ekey (chanIdx k) 1 = ekey (chanIdx c) 1 ↔ k = c := by
    unfold ekey chanIdx
    omega
  refine (Engine.get_put_other _ (by decide) (by decide) (by simp)).trans
    ((Engine.get_put_other _ (by decide) (by decide) (by simp)).trans ?_)
  rw [Engine.get_put]
  exact if_congr hkey rfl rfl

theorem Engine.up_channelUp (c k : Nat) : ((e.channelUp c).chan k).up = (decide (k = c) || (e.chan k).up) := by
  refine (congrArg Channel.up (Engine.chan_setChan _ _ _ _)).trans ?_
  split_ifs with hk <;> simp [hk]

theorem Engine.channelsUp_up {cs : List Nat} {c : Nat} (hc : c ∈ cs) :
    (e.channelsUp cs).get (chanIdx c) 1 = 1 ∧ ((e.channelsUp cs).chan c).up = true := by
  refine foldl_reaches (I := fun _ => True) (P := fun k x => x.get (chanIdx k) 1 = 1 ∧ (x.chan k).up = true)
    (f := Engine.channelUp) cs _ trivial (fun x _ k _ => ⟨trivial, ⟨?_, ?_⟩, ?_⟩) c hc
  · rw [Engine.get_channelUp_state, if_pos rfl]
  · simp [Engine.up_channelUp]
  · rintro q ⟨hstate, hup⟩
    rw [Engine.get_channelUp_state, Engine.up_channelUp, hup]
    split_ifs
    · simp
    · simpa using hstate

theorem Engine.channelUp_ranks (c : Nat) : (e.channelUp c).mem.ranks = e.mem.ranks := rfl

theorem Engine.channelsUp_ranks (cs : List Nat) : (e.channelsUp cs).mem.ranks = e.get 0x4000 3 :=
  Engine.each_keeps e.memConfig (·.mem.ranks) cs Engine.channelUp_ranks

theorem Engine.publishDram_mem : e.publishDram.mem = e.mem := by
  rw [Engine.publishDram, Engine.put_mem, Engine.put_mem, Engine.put_mem, Engine.put_mem]

theorem Engine.trainingEnds_mem : e.trainingEnds.mem = { e.dramMark.mem with trained := true } := by
  rw [Engine.trainingEnds, Engine.endStep_mem, Engine.publishDram_mem]
  rfl

theorem Engine.chan_trainingEnds (c : Nat) : e.trainingEnds.chan c = e.chan c := by
  rw [Engine.chan, Engine.trainingEnds_mem]
  rfl

theorem Engine.get_trainingEnds_step : e.trainingEnds.get 0x2001 1 = 6 := Engine.get_endStep_step _ 6

theorem Engine.get_publishDram (i j : Nat) (hj : j < 256) (h : ¬ (i = 0x4001 ∧ j ∈ [2, 3, 4, 6])) :
    e.publishDram.get i j = e.get i j := by
  have hother (k : Nat) (hk : k ∈ [2, 3, 4, 6]) : ¬ (i = 0x4001 ∧ j = k) := by
    rintro ⟨hi, rfl⟩
    exact h ⟨hi, hk⟩
  rw [Engine.publishDram, Engine.get_put_other _ (by decide) hj (hother 6 (by simp)),
    Engine.get_put_other _ (by decide) hj (hother 4 (by simp)), Engine.get_put_other _ (by decide) hj (hother 3 (by simp)),
    Engine.get_put_other _ (by decide) hj (hother 2 (by simp))]

/-- What the end of training publishes beside the capacities: state and progress of the marking. -/
theorem Engine.get_trainingEnds {i j : Nat} (hj : j < 256) (hstep : i ≠ 0x2001) (h : ¬ (i = 0x4001 ∧ j ∈ [2, 3, 4, 6])) :
    e.trainingEnds.get i j = ((e.put 0x4001 1 0).put 0x4001 5 0).get i j := by
  rw [Engine.trainingEnds, Engine.get_endStep_other _ 6 hstep hj, Engine.get_publishDram _ _ _ hj h]
  simp only [Engine.get_put]
  rfl

theorem Engine.get_trainingEnds_controller : e.trainingEnds.get 0x4001 1 = 0 ∧ e.trainingEnds.get 0x4001 5 = 0 := by
  rw [e.get_trainingEnds (by decide) (by decide) (by decide), e.get_trainingEnds (by decide) (by decide) (by decide)]
  exact ⟨(Engine.get_put_other _ (by decide) (by decide) (by decide)).trans (Engine.get_put_same _ _ _ _),
    Engine.get_put_same _ _ _ _⟩

theorem Engine.get_trainingEnds_channel {c : Nat} : e.trainingEnds.get (chanIdx c) 1 = e.get (chanIdx c) 1 := by
  have hidx : 0x4001 < chanIdx c := by
    unfold chanIdx
    omega
  rw [e.get_trainingEnds (by decide) (by omega) fun hsame => by omega,
    Engine.get_put_other _ (by decide) (by decide) (by omega), Engine.get_put_other _ (by decide) (by decide) (by omega)]

end Training

/-! Step 7: partitions and the stored dictionary (R377, R409) -/

section PartitionStart

variable (e : Engine)

/-- Adding a bit that is clear carries into none above it. -/
theorem div_two_pow_succ_add {v i : Nat} (hclear : bit v i = false) : (v + 2 ^ i) / 2 ^ (i + 1) = v / 2 ^ (i + 1) := by
  have hpos : 0 < 2 ^ i := Nat.two_pow_pos i
  have hdouble : 2 ^ (i + 1) = 2 ^ i * 2 := pow_succ 2 i
  have hlow : v % 2 ^ (i + 1) = v % 2 ^ i := by
    simp only [bit, Nat.shiftRight_eq_div_pow, beq_eq_false_iff_ne] at hclear
    rw [Nat.mod_pow_succ, show v / 2 ^ i % 2 = 0 by omega, Nat.mul_zero, Nat.add_zero]
  have hlt : v % 2 ^ i < 2 ^ i := Nat.mod_lt v hpos
  rw [Nat.add_div (by omega), hlow, Nat.mod_eq_of_lt (by omega : 2 ^ i < 2 ^ (i + 1)),
    Nat.div_eq_of_lt (by omega : 2 ^ i < 2 ^ (i + 1)), if_neg (by omega), Nat.add_zero, Nat.add_zero]

theorem bit_setBit_other {v i j : Nat} (hne : j ≠ i) : bit (setBit v i true) j = bit v j := by
  by_cases hset : bit v i = true
  · simp [setBit, hset]
  · have hclear : bit v i = false := Bool.eq_false_iff.mpr hset
    have hadd : setBit v i true = v + 2 ^ i := by simp [setBit, hclear]
    rw [hadd, bit_eq_testBit, bit_eq_testBit]
    obtain hlt | hgt := Nat.lt_or_gt_of_ne hne
    · rw [Nat.add_comm, Nat.testBit_two_pow_add_gt hlt]
    · obtain ⟨k, rfl⟩ := Nat.exists_eq_add_of_lt hgt
      rw [show i + k + 1 = k + (i + 1) by omega, Nat.testBit_add, Nat.testBit_add, div_two_pow_succ_add hclear]

theorem Engine.reportReady_up (p : Nat) : bit (e.reportReady p).dawn.partUp p = true := by
  rw [Engine.reportReady_dawn]
  exact bit_setBit_true _ _

theorem Engine.reportReady_stays_up {p q : Nat} (hup : bit e.dawn.partUp q = true) :
    bit (e.reportReady p).dawn.partUp q = true := by
  obtain rfl | hne := eq_or_ne q p
  · exact e.reportReady_up q
  · rw [Engine.reportReady_dawn]
    exact (bit_setBit_other hne).trans hup

theorem Engine.partitionsUp_noFallback (hdue : e.dawn.fallbackDue = []) :
    e.partitionsUp = Engine.each { e with dawn.fallbackDue := [] } [0, 1, 2, 3] Engine.reportReady := by
  simp only [Engine.partitionsUp, hdue, List.foldl_nil]

theorem Engine.partitionsUp_up (hdue : e.dawn.fallbackDue = []) {p : Nat} (hp : p < 4) :
    bit e.partitionsUp.dawn.partUp p = true := by
  rw [e.partitionsUp_noFallback hdue]
  exact foldl_reaches (I := fun _ => True) (P := fun q x => bit x.dawn.partUp q = true) (f := Engine.reportReady) [0, 1, 2, 3] _
    trivial (fun x _ k _ => ⟨trivial, x.reportReady_up k, fun _ hup => x.reportReady_stays_up hup⟩) p (mem_four.mpr hp)

theorem startPartitions_waits {s : State} (hstep : s.e.get 0x2001 1 ≠ 6) : startPartitions s = s :=
  if_pos (.inr (by simp [s.e.atStep_other hstep]))

/-- The end of step 7: sequence and number of the current copy are published. -/
def Engine.storeRead (e : Engine) (seq cur : Nat) : Engine := ((e.put 0x2003 2 seq).put 0x2003 3 cur).endStep 7

theorem Engine.storeRead_partUp (seq cur : Nat) : (e.storeRead seq cur).dawn.partUp = e.dawn.partUp := rfl

theorem Engine.get_storeRead (seq cur : Nat) : (e.storeRead seq cur).get 0x2001 1 = 7 ∧
    (e.storeRead seq cur).get 0x2003 2 = seq ∧ (e.storeRead seq cur).get 0x2003 3 = cur := by
  refine ⟨Engine.get_endStep_step _ _, ?_, ?_⟩
  · exact (Engine.get_endStep_other _ 7 (by decide) (by decide)).trans
      ((Engine.get_put_other _ (by decide) (by decide) (by decide)).trans (Engine.get_put_same _ _ _ _))
  · exact (Engine.get_endStep_other _ 7 (by decide) (by decide)).trans (Engine.get_put_same _ _ _ _)

/-- R409: with no valid copy 2003h:02h reads 0 and 2003h:03h FFh, and no record is applied. -/
theorem startPartitions_nothingStored {s : State} (hlive : s.e.live = true) (hdawn : s.e.mode = .dawn)
    (hstep : s.e.get 0x2001 1 = 6) (hcopies : s.nv.copies = []) :
    startPartitions s = { s with e := s.e.partitionsUp.storeRead 0 0xff } := by
  rw [startPartitions, if_neg (by simp [hlive, s.e.atStep_next hdawn hstep])]
  generalize s.e.partitionsUp = e
  simp only [NonVol.currentCopy_erased hcopies, NonVol.storedRecords_erased hcopies, List.filter_nil, List.foldl_nil]
  rfl

end PartitionStart

/-! Step 8: peers (R387) -/

section Discovery

variable (e : Engine)

/-- R387: communication is reset on port `p` and a scan begins there. -/
def Engine.portDiscovered (e : Engine) (p : Nat) : Engine := (e.nmt p 0x82 0).startScan p

/-- Whether the scan of port `p` runs and its reset went out. -/
def Engine.PortScans (p : Nat) (x : Engine) : Prop :=
  cellGet (fun _ => false) x.net.scan p = true ∧ .can p 0 (toLe 1 0x82 ++ toLe 1 0) ∈ x.out

theorem Engine.scan_portDiscovered (p : Nat) :
    (e.portDiscovered p).net.scan = cellSet (fun _ => false) e.net.scan p true := rfl

theorem Engine.portDiscovered_scans (p : Nat) : Engine.PortScans p (e.portDiscovered p) := by
  refine ⟨?_, List.mem_cons_of_mem _ List.mem_cons_self⟩
  rw [Engine.scan_portDiscovered, cellGet_cellSet_same]

theorem Engine.PortScans.portDiscovered {x : Engine} {q : Nat} (h : Engine.PortScans q x) (p : Nat) :
    Engine.PortScans q (x.portDiscovered p) := by
  obtain ⟨hscan, hsent⟩ := h
  refine ⟨?_, List.mem_cons_of_mem _ (List.mem_cons_of_mem _ hsent)⟩
  rw [Engine.scan_portDiscovered, cellGet_cellSet]
  split_ifs
  · rfl
  · exact hscan

theorem Engine.each_portDiscovered {ps : List Nat} {p : Nat} (hp : p ∈ ps) :
    Engine.PortScans p (e.each ps Engine.portDiscovered) :=
  foldl_reaches (I := fun _ => True) (P := Engine.PortScans) (f := Engine.portDiscovered) ps e trivial
    (fun x _ k _ => ⟨trivial, x.portDiscovered_scans k, fun _ hq => hq.portDiscovered k⟩) p hp

theorem Engine.discoverPeers_waits (hstep : e.get 0x2001 1 ≠ 7) : e.discoverPeers = e :=
  if_pos (.inl (by simp [e.atStep_other hstep]))

theorem Engine.discoverPeers_begins (hdawn : e.mode = .dawn) (hstep : e.get 0x2001 1 = 7) (hfirst : e.dawn.discovery = false) :
    e.discoverPeers = Engine.discovered { e.each e.managed Engine.portDiscovered with dawn.discovery := true } :=
  if_neg (by simp [e.atStep_next hdawn hstep, hfirst])

theorem Engine.discoveryOver_waits (hstep : e.get 0x2001 1 ≠ 7) : e.discoveryOver = e :=
  if_neg (by simp [e.atStep_other hstep])

theorem Engine.discoveryOver_ends (hdawn : e.mode = .dawn) (hstep : e.get 0x2001 1 = 7) (hruns : e.dawn.discovery = true) :
    e.discoveryOver = { e.endStep 8 with dawn.discovery := false } :=
  if_pos ⟨e.atStep_next hdawn hstep, hruns⟩

end Discovery

/-! Step 9: heads (R209) -/

section HeadDiscovery

variable (e : Engine) {h : Nat}

/-- A head is Quarantined where its receiver is up, and absent otherwise. -/
def Engine.discoverHead (e : Engine) (h : Nat) : Engine := if e.rxUp h then e.enterQuarantine h else e.setSvc h 6

/-- The engine with every head discovered and the step complete. -/
def Engine.headsDiscovered (e : Engine) : Engine := (e.each (List.range 128) Engine.discoverHead).endStep 9

theorem Engine.discoverHeads_waits (hstep : e.get 0x2001 1 ≠ 8) : e.discoverHeads = e :=
  if_pos (by simp [e.atStep_other hstep])

theorem Engine.discoverHeads_ends (hdawn : e.mode = .dawn) (hstep : e.get 0x2001 1 = 8) :
    e.discoverHeads = e.headsDiscovered.dawnEnds :=
  if_neg (by simp [e.atStep_next hdawn hstep])

/-- Discovery of a head writes its service state and, where it is up, its checks. -/
theorem Engine.get_discoverHead {i j : Nat} (hj : j < 256) (hne : ¬ (i = headIdx h ∧ j = 0x0E)) :
    (e.discoverHead h).get i j = (e.setSvc h (if e.rxUp h then 5 else 6)).get i j := by
  rw [Engine.discoverHead]
  split_ifs
  · exact e.get_enterQuarantine hj hne
  · rfl

theorem Engine.rxUp_discoverHead {k : Nat} (hh : h < 128) (hk : k < 128) : (e.discoverHead h).rxUp k = e.rxUp k := by
  have hlink : (e.discoverHead h).get (headIdx k) 1 = e.get (headIdx k) 1 :=
    (e.get_discoverHead (by decide) (by simp)).trans
      (e.get_put_other (by omega) (by decide) fun hsame => headIdx_ne_service hk hsame.1)
  rw [Engine.rxUp, hlink, Engine.rxUp]

theorem Engine.svc_discoverHead {k : Nat} (hh : h < 128) (hk : k < 128) :
    (e.discoverHead h).svc k = if k = h then (if e.rxUp h then 5 else 6) else e.svc k := by
  have hstate : (e.discoverHead h).svc k = (e.setSvc h (if e.rxUp h then 5 else 6)).svc k :=
    e.get_discoverHead (by omega) fun hsame => headIdx_ne_service hh hsame.1.symm
  rw [hstate, Engine.svc, Engine.setSvc, Engine.get_put]
  simp only [ekey_same_index, Nat.add_right_cancel_iff]
  rfl

theorem Engine.get_headsDiscovered_step : e.headsDiscovered.get 0x2001 1 = 9 := Engine.get_endStep_step _ 9

theorem Engine.svc_headsDiscovered (hh : h < 128) : e.headsDiscovered.svc h = if e.rxUp h then 5 else 6 := by
  refine (Engine.get_endStep_other _ 9 (by decide) (by omega)).trans ?_
  refine foldl_reaches (I := fun x => ∀ k, k < 128 → x.rxUp k = e.rxUp k)
    (P := fun k x => k < 128 → x.svc k = if e.rxUp k then 5 else 6) (f := Engine.discoverHead) (List.range 128) e
    (fun _ _ => rfl) (fun x hup k hk => ?_) h (List.mem_range.mpr hh) hh
  have hlt := List.mem_range.mp hk
  refine ⟨fun q hq => (x.rxUp_discoverHead hlt hq).trans (hup q hq), fun _ => ?_, fun q hq hlt' => ?_⟩
  · rw [x.svc_discoverHead hlt hlt, if_pos rfl, hup k hlt]
  · obtain rfl | hne := eq_or_ne q k
    · rw [x.svc_discoverHead hlt hlt, if_pos rfl, hup q hlt]
    · rw [x.svc_discoverHead hlt hlt', if_neg hne]
      exact hq hlt'

end HeadDiscovery

theorem dawnLastSteps : Says.DawnLastSteps := by
  intro s tr hlive hdawn
  have htrain : Becomes (.dawnDramTraining tr) s (s.e.trainDram tr.toNat) :=
    becomes_of_whenLive (f := fun e => e.trainDram tr.toNat) rfl hlive
  have hparts : exec .dawnPartitionStart s = .next (startPartitions s) := rfl
  have hpeers : Becomes .dawnPeerDiscovery s s.e.discoverPeers := becomes_of_whenLive rfl hlive
  have htimeout : Becomes .dawnDiscoveryTimeout s s.e.discoveryOver := becomes_of_whenLive rfl hlive
  have hheads : Becomes .dawnHeadDiscovery s s.e.discoverHeads := becomes_of_whenLive rfl hlive
  refine ⟨?_, ?_, ?_, ?_, ?_, ?_, ?_, ?_, ?_, ?_⟩
  · intro hstep
    rwa [s.e.trainDram_waits hstep] at htrain
  · intro hstep hchannels hsome
    have hall : ∀ c ∈ s.e.fittedChannels, bit tr.toNat c = true := fun c hc =>
      (hchannels c ((s.e.mem_fittedChannels c).mp hc).1).2 ((s.e.mem_fittedChannels c).mp hc).2
    have hne : s.e.fittedChannels ≠ [] := by
      obtain ⟨c, hc⟩ := hsome
      exact List.ne_nil_of_mem ((s.e.mem_fittedChannels c).mpr hc)
    rw [s.e.trainDram_trains hdawn hstep (fun c hc => (hchannels c hc).1) hall hne] at htrain
    obtain ⟨hmarking, hprogress⟩ := (s.e.channelsUp s.e.fittedChannels).get_trainingEnds_controller
    have hmem := (s.e.channelsUp s.e.fittedChannels).trainingEnds_mem
    refine htrain.completes ⟨Engine.get_trainingEnds_step _, hmarking, hprogress, congrArg Dram.written hmem,
      congrArg Dram.trained hmem, (congrArg Dram.ranks hmem).trans (s.e.channelsUp_ranks _), fun c hc hfitted => ?_⟩
    obtain ⟨hstate, hup⟩ := s.e.channelsUp_up ((s.e.mem_fittedChannels c).mpr ⟨hc, hfitted⟩)
    exact ⟨(Engine.get_trainingEnds_channel _).trans hstate, (congrArg Channel.up (Engine.chan_trainingEnds _ c)).trans hup⟩
  · intro hstep hnew hnone
    rw [hnone, s.e.trainDram_fails hdawn hstep hnew] at htrain
    refine ⟨_, ⟨?_, fun c hc hfitted => ?_⟩, htrain⟩
    · exact (Engine.each_keeps _ (·.get 0x2001 1) _ Engine.get_markFailed_step).trans hstep
    · exact Engine.markFailed_marks _ ((s.e.mem_fittedChannels c).mpr ⟨hc, hfitted⟩)
  · intro hstep
    rw [Becomes, hparts, startPartitions_waits hstep]
  · intro hstep hdue hcopies
    rw [startPartitions_nothingStored hlive hdawn hstep hcopies] at hparts
    obtain ⟨hnext, hseq, hcur⟩ := s.e.partitionsUp.get_storeRead 0 0xff
    refine ⟨_, hparts, hnext, hseq, hcur, fun p hp => ?_, rfl⟩
    rw [Engine.storeRead_partUp]
    exact s.e.partitionsUp_up hdue hp
  · intro hstep
    rw [s.e.discoverPeers_waits hstep] at hpeers
    rw [s.e.discoveryOver_waits hstep] at htimeout
    exact ⟨hpeers, htimeout⟩
  · intro hstep hfirst
    rw [s.e.discoverPeers_begins hdawn hstep hfirst] at hpeers
    exact hpeers.completes ⟨_, rfl, rfl, fun p hp => s.e.each_portDiscovered hp⟩
  · intro hstep hruns
    rw [s.e.discoveryOver_ends hdawn hstep hruns] at htimeout
    exact htimeout.completes ⟨Engine.get_endStep_step _ _, rfl, fun k hk => (s.e.ent_endStep 8 k).trans (if_neg hk)⟩
  · intro hstep
    rwa [s.e.discoverHeads_waits hstep] at hheads
  · intro hstep
    rw [s.e.discoverHeads_ends hdawn hstep] at hheads
    refine hheads.completes ?_
    dsimp only
    exact ⟨s.e.headsDiscovered, rfl, s.e.get_headsDiscovered_step, fun _ => s.e.svc_headsDiscovered⟩

/-- Settles O54: each step is computed where it is next, and waits where it is not. -/
theorem dawnSteps : Obligations.DawnSteps := ⟨dawnFirstSteps, dawnLastSteps⟩

end Sys2Proof.Machine

/-! Commands and states of an axis (R237-R239, R243). -/

namespace Sys2Proof.Machine

/-! Words and positions (R397) -/

theorem signed_mod (v : Nat) : signed 32 (v % 2 ^ 32) = signed 32 v := by
  simp only [signed, Nat.mod_mod]

/-- A position stored in a 32-bit entry reads back. -/
theorem signed_unsigned_signed (v : Nat) : signed 32 (unsigned 32 (signed 32 v)) = signed 32 v := by
  rw [unsigned_signed, signed_mod]

section MotionEntries

variable (e : Engine) {k i j : Nat}

@[simp] theorem Engine.get_setAxis (x : Axis) : (e.setAxis k x).get i j = e.get i j := rfl

@[simp] theorem Engine.ent_setAxis (x : Axis) (l : Nat) : (e.setAxis k x).ent l = e.ent l := rfl

@[simp] theorem Engine.getI_setAxis (w : Nat) (x : Axis) : (e.setAxis k x).getI w i j = e.getI w i j := rfl

@[simp] theorem Engine.getI_done (w : Nat) : e.done.getI w i j = e.getI w i j := rfl

theorem Engine.axis_setAxis_same (x : Axis) : (e.setAxis k x).axis k = x := (e.axis_setAxis k k x).trans (if_pos rfl)

theorem Engine.axis_setAxis_ne {a : Nat} (x : Axis) (h : a ≠ k) : (e.setAxis k x).axis a = e.axis a :=
  (e.axis_setAxis k a x).trans (if_neg h)

theorem Engine.getI_putI_same (v : Nat) : (e.putI 32 i j (signed 32 v)).getI 32 i j = signed 32 v := by
  rw [Engine.getI, Engine.putI, Engine.get_put_same, signed_unsigned_signed]

/-- What stands in an entry is left alone by a write of another entry of the same index. -/
theorem Engine.get_put_subindex {l : Nat} (v : Nat) (h : l ≠ j) : (e.put i j v).get i l = e.get i l :=
  e.get_put_ne fun hkey => h ((ekey_same_index i l j).mp hkey)

end MotionEntries

/-- A command whose engine is what `F` makes of an engine as `Q` says. -/
theorem Becomes.completes_exists {c : Instr} {s : State} (F : Engine → Engine) {Q : Engine → Prop} {x : Engine}
    (h : Becomes c s (F x)) (hQ : Q x) : Completes c s (fun t => ∃ y, t.e = F y ∧ Q y) := h.completes ⟨x, rfl, hQ⟩

/-! Enable and disable (R239) -/

section EnableDisable

variable (e : Engine) {a : Nat}

/-- Axis `a` at standstill, its set-point at the actual position. -/
def Engine.axisEnabled (e : Engine) (a : Nat) : Engine :=
  ((e.put (axisIdx a) 2 1).put (axisIdx a) 5 (e.get (axisIdx a) 6)).setAxis a
    { e.axis a with enable := true, hold := false, v := 0 }

/-- Axis `a` Disabled. -/
def Engine.axisDisabled (e : Engine) (a : Nat) : Engine :=
  (e.put (axisIdx a) 2 0).setAxis a { e.axis a with enable := false, hold := false, start := none }

theorem Engine.enableAxis_refused (hstate : e.get (axisIdx a) 2 ≠ 0) : e.enableAxis a = e.refuse abState := if_pos (.inl hstate)

theorem Engine.enableAxis_enables (hdisabled : e.get (axisIdx a) 2 = 0) (hlink : e.get (axisIdx a + 2) 1 = 1) :
    e.enableAxis a = (e.axisEnabled a).evalHolds.done := if_neg (by simp [hdisabled, hlink])

theorem Engine.get_axisEnabled_state : (e.axisEnabled a).get (axisIdx a) 2 = 1 :=
  (Engine.get_put_subindex _ _ (by decide)).trans (e.get_put_same _ _ _)

theorem Engine.disableAxis_refused (hstandstill : e.get (axisIdx a) 2 ≠ 1) (hholding : e.get (axisIdx a) 2 ≠ 2) :
    e.disableAxis a = e.refuse abState := if_pos ⟨hstandstill, hholding⟩

theorem Engine.disableAxis_disables (hstate : e.get (axisIdx a) 2 = 1 ∨ e.get (axisIdx a) 2 = 2) :
    e.disableAxis a = (e.axisDisabled a).evalHolds.done := if_neg (by tauto)

end EnableDisable

/-! Move, stop and set position (R237, R238, R243) -/

section MoveStopSet

variable (e : Engine) {a : Nat}

theorem Engine.moveAxis_job (hjob : e.jobControls a = true) : e.moveAxis a = (e.motionFault a 6).refuse abState :=
  if_pos hjob

theorem Engine.stopCommand_job (hjob : e.jobControls a = true) : e.stopCommand a = (e.motionFault a 6).refuse abState :=
  if_pos hjob

theorem Engine.setPosition_job (hjob : e.jobControls a = true) : e.setPosition a = (e.motionFault a 6).refuse abState :=
  if_pos hjob

theorem Engine.moveAxis_disabled (hfree : e.jobControls a = false) (hdisabled : e.get (axisIdx a) 2 = 0) :
    e.moveAxis a = e.refuse abState := by
  simp [Engine.moveAxis, hfree, hdisabled]

theorem Engine.stopCommand_disabled (hfree : e.jobControls a = false) (hdisabled : e.get (axisIdx a) 2 = 0) :
    e.stopCommand a = e.refuse abState := by
  simp [Engine.stopCommand, hfree, hdisabled]

/-- R241: with both limit inputs inactive no direction is closed. -/
theorem Engine.limitActive_none (s : Int) (hlimp : (e.inp (2 + a)).active = false) (hlimn : (e.inp (10 + a)).active = false) :
    e.limitActive a s = false := by
  simp [Engine.limitActive, hlimp, hlimn]

/-- R20: without a Halt demand and below stage 4 the axes may move. -/
theorem Engine.axesStopped_none (hhalt : e.haltDemand = false) (hstage : e.stage < 4) : e.axesStopped = false := by
  simp [Engine.axesStopped, hhalt, hstage]

/-- R237: at standstill, with no ratio, no stop ramp and nothing that stops it, an axis takes its target. -/
theorem Engine.moveAxis_taken (hfree : e.jobControls a = false) (hstate : e.get (axisIdx a) 2 = 1)
    (hratio : e.get (axisIdx a) 8 = 0) (hnext : (e.axis a).stopNext = false) (hramp : (e.axis a).stopping = false)
    (hstopped : e.axesStopped = false) (hlimit : ∀ s, e.limitActive a s = false) :
    e.moveAxis a = (e.setAxis a { e.axis a with start := some (e.getI 32 (axisIdx a) 4) }).done := by
  simp [Engine.moveAxis, hfree, hstate, hratio, hnext, hramp, hstopped, hlimit]

/-- Axis `a` on the stop ramp of command 4, its move discarded (R238, R246). -/
def Axis.onStopRamp (x : Axis) : Axis := { x with target := none, start := none, plan := [], stopNext := !x.stopping }

theorem Engine.stopAxis_moving (hrole : e.get (axisIdx a) 1 ≠ 0) (hstate : e.get (axisIdx a) 2 = 3)
    (hmoves : (e.axis a).v ≠ 0) :
    e.stopAxis a false false = (e.setAxis a (e.axis a).onStopRamp).put (axisIdx a) 2 4 := by
  simp only [axisIdx] at hrole hstate
  simp [Engine.stopAxis, Axis.onStopRamp, axisIdx, hrole, hstate, hmoves]

theorem Engine.stopCommand_moving (hfree : e.jobControls a = false) (hrole : e.get (axisIdx a) 1 ≠ 0)
    (hstate : e.get (axisIdx a) 2 = 3) (hmoves : (e.axis a).v ≠ 0) :
    e.stopCommand a = ((e.setAxis a (e.axis a).onStopRamp).put (axisIdx a) 2 4).done := by
  rw [← e.stopAxis_moving hrole hstate hmoves]
  simp [Engine.stopCommand, hfree, hstate]

/-- Set-point and actual position of axis `a` at the target. -/
def Engine.positioned (e : Engine) (a : Nat) : Engine :=
  (e.putI 32 (axisIdx a) 5 (e.getI 32 (axisIdx a) 4)).putI 32 (axisIdx a) 6 (e.getI 32 (axisIdx a) 4)

theorem Engine.get_positioned {j : Nat} (hset : j ≠ 5) (hactual : j ≠ 6) :
    (e.positioned a).get (axisIdx a) j = e.get (axisIdx a) j :=
  (Engine.get_put_subindex _ _ hactual).trans (Engine.get_put_subindex _ _ hset)

theorem Engine.ent_positioned {k : Nat} (hset : k ≠ ekey (axisIdx a) 5) (hactual : k ≠ ekey (axisIdx a) 6) :
    (e.positioned a).ent k = e.ent k :=
  (Engine.ent_put _ _ _ _ k).trans ((if_neg hactual).trans ((e.ent_put _ _ _ k).trans (if_neg hset)))

theorem Engine.getI_positioned_setPoint : (e.positioned a).getI 32 (axisIdx a) 5 = e.getI 32 (axisIdx a) 4 :=
  (congrArg (signed 32) (Engine.get_put_subindex _ _ (by decide))).trans (e.getI_putI_same _)

theorem Engine.getI_positioned_actual : (e.positioned a).getI 32 (axisIdx a) 6 = e.getI 32 (axisIdx a) 4 :=
  Engine.getI_putI_same _ _

/-- R239: with the drive as position source the position goes to the drive in POS. -/
theorem Engine.setPosition_drive (hfree : e.jobControls a = false) (hstate : e.get (axisIdx a) 2 = 1)
    (hdrive : e.get (axisIdx a) 7 = 0) :
    e.setPosition a = ((e.positioned a).setAxis a { e.axis a with sendPos := some (e.getI 32 (axisIdx a) 4) }).done := by
  have hsource : (e.positioned a).get (axisIdx a) 7 = 0 := (e.get_positioned (by decide) (by decide)).trans hdrive
  exact (if_neg (by simp [hfree])).trans ((if_neg (by simp [hstate])).trans (if_pos hsource))

end MoveStopSet

theorem axisCommands : Says.AxisCommands := by
  rintro s a i _ hs hi rfl
  obtain rfl : i = axisIdx a.val := hi
  have henable : Becomes (.axisEnable a) s (s.e.enableAxis a.val) :=
    becomes_of_request (idx := 0x3000) (f := fun e => e.enableAxis a.val) rfl hs
  have hdisable : Becomes (.axisDisable a) s (s.e.disableAxis a.val) :=
    becomes_of_request (idx := 0x3000) (f := fun e => e.disableAxis a.val) rfl hs
  have hmove : Becomes (.axisMove a) s (s.e.moveAxis a.val) :=
    becomes_of_request (idx := 0x3000) (f := fun e => e.moveAxis a.val) rfl hs
  have hstop : Becomes (.axisStop a) s (s.e.stopCommand a.val) :=
    becomes_of_request (idx := 0x3000) (f := fun e => e.stopCommand a.val) rfl hs
  have hset : Becomes (.axisSetPosition a) s (s.e.setPosition a.val) :=
    becomes_of_request (idx := 0x3000) (f := fun e => e.setPosition a.val) rfl hs
  refine ⟨?_, ?_, ?_, ?_, ?_, ?_, ?_, ?_, ?_⟩
  · intro hstate
    rwa [s.e.enableAxis_refused hstate] at henable
  · intro hdisabled hlink
    rw [s.e.enableAxis_enables hdisabled hlink] at henable
    exact henable.completes_exists (·.evalHolds.done)
      ⟨s.e.get_axisEnabled_state, Engine.get_put_same _ _ _ _, Engine.axis_setAxis_same _ _⟩
  · intro hstandstill hholding
    rwa [s.e.disableAxis_refused hstandstill hholding] at hdisable
  · intro hstate
    rw [s.e.disableAxis_disables hstate] at hdisable
    exact hdisable.completes_exists (·.evalHolds.done) ⟨s.e.get_put_same _ _ _, Engine.axis_setAxis_same _ _⟩
  · intro hjob
    rw [s.e.moveAxis_job hjob] at hmove
    rw [s.e.stopCommand_job hjob] at hstop
    rw [s.e.setPosition_job hjob] at hset
    exact ⟨hmove, hstop, hset⟩
  · intro hfree hstate hratio hnext hramp hhalt hstage hlimp hlimn
    rw [s.e.moveAxis_taken hfree hstate hratio hnext hramp (s.e.axesStopped_none hhalt hstage)
      fun d => s.e.limitActive_none d hlimp hlimn] at hmove
    exact hmove.completes ⟨s.e.axis_setAxis_same _, fun j hj => s.e.axis_setAxis_ne _ hj, rfl⟩
  · intro hfree hdisabled
    rw [s.e.moveAxis_disabled hfree hdisabled] at hmove
    rw [s.e.stopCommand_disabled hfree hdisabled] at hstop
    exact ⟨hmove, hstop⟩
  · intro hfree hstate hrole hmoves
    rw [s.e.stopCommand_moving hfree hrole hstate hmoves] at hstop
    exact hstop.completes ⟨s.e.axis_setAxis_same _, Engine.get_put_same _ _ _ _, rfl,
      fun k hk => (Engine.ent_put _ _ _ _ k).trans (if_neg hk), fun j hj => s.e.axis_setAxis_ne _ hj⟩
  · intro hfree hstate hdrive
    rw [s.e.setPosition_drive hfree hstate hdrive] at hset
    refine hset.completes ⟨?_, ?_, Engine.axis_setAxis_same _ _, fun k hset hactual => ?_, rfl⟩
    · rw [Engine.getI_done, Engine.getI_setAxis, Engine.getI_positioned_setPoint]
    · rw [Engine.getI_done, Engine.getI_setAxis, Engine.getI_positioned_actual]
    · rw [Engine.ent_done, Engine.ent_setAxis, s.e.ent_positioned hset hactual]

/-! Fault reset, the follow ratio and the hold delay (R237, R239) -/

section FaultFollowHold

variable (e : Engine) {a g : Nat}

theorem Engine.resetAxis_notFault (hstate : e.get (axisIdx a) 2 ≠ 5) : e.resetAxis a = e.refuse abState := if_pos (.inl hstate)

theorem Engine.resetAxis_causeHolds (hholds : e.causeHolds a = true) : e.resetAxis a = e.refuse abState :=
  if_pos (.inr (.inr (.inr (.inr hholds))))

/-- The axis that leaves Fault: ENABLE is set, and FAULT_RESET is due to the drive. -/
def Axis.faultCleared (x : Axis) : Axis :=
  { x with enable := true, hold := false, faultReset := true, driveFault := false, feRun := 0 }

/-- Axis `a` at standstill with neither a cause nor a largest following error kept. -/
def Engine.axisReset (e : Engine) (a : Nat) : Engine :=
  (((e.put (axisIdx a) 2 1).put (axisIdx a) 9 0).put (axisIdx a + 3) 4 0).setAxis a (e.axis a).faultCleared

theorem Engine.get_axisReset {j : Nat} (hj : j < 256) :
    (e.axisReset a).get (axisIdx a) j = ((e.put (axisIdx a) 2 1).put (axisIdx a) 9 0).get (axisIdx a) j := by
  rw [Engine.axisReset, Engine.get_setAxis, Engine.get_put_other _ (by decide) hj (by simp)]

theorem Engine.get_axisReset_state : (e.axisReset a).get (axisIdx a) 2 = 1 :=
  (e.get_axisReset (by decide)).trans ((Engine.get_put_subindex _ _ (by decide)).trans (e.get_put_same _ _ _))

theorem Engine.get_axisReset_cause : (e.axisReset a).get (axisIdx a) 9 = 0 :=
  (e.get_axisReset (by decide)).trans (Engine.get_put_same _ _ _ _)

theorem Engine.get_axisReset_source : (e.axisReset a).get (axisIdx a) 7 = e.get (axisIdx a) 7 :=
  (e.get_axisReset (by decide)).trans ((Engine.get_put_subindex _ _ (by decide)).trans (e.get_put_subindex _ (by decide)))

theorem Engine.resetAxis_resets (hfault : e.get (axisIdx a) 2 = 5) (hstill : (e.axis a).v = 0) (hseg : (e.axis a).seg = none)
    (hnext : (e.axis a).stopNext = false) (hcleared : e.causeHolds a = false) (hdrive : e.get (axisIdx a) 7 = 0) :
    e.resetAxis a = (e.axisReset a).release.evalHolds.done := by
  have hsource : (e.axisReset a).get (axisIdx a) 7 = 0 := e.get_axisReset_source.trans hdrive
  exact (if_neg (by simp [hfault, hstill, hseg, hnext, hcleared])).trans
    (congrArg (fun x : Engine => x.release.evalHolds.done) (if_pos hsource))

theorem Engine.setFollow_refused (hratio : g ≠ 0) (hunwind : e.get (axisIdx a) 1 ≠ 3) (hrewind : e.get (axisIdx a) 1 ≠ 4) :
    e.setFollow a g = e.refuse abValue := if_pos ⟨hratio, hunwind, hrewind⟩

theorem Engine.setFollow_takes (hrole : e.get (axisIdx a) 1 = 3 ∨ e.get (axisIdx a) 1 = 4 ∨ g = 0) :
    e.setFollow a g =
      ((e.put (axisIdx a) 8 g).setAxis a { e.axis a with ownBase := e.setPoint a, leadBase := e.setPoint 1 }).done :=
  if_neg (by tauto)

theorem Engine.holdExpiry_early (hstate : e.get (axisIdx a) 2 ≠ 1) : e.holdExpiry a = e := if_neg fun hdue => hstate hdue.1

theorem Engine.holdExpiry_holds (hstate : e.get (axisIdx a) 2 = 1) (hstill : (e.axis a).v = 0) (hseg : (e.axis a).seg = none)
    (hstart : (e.axis a).start = none) (htarget : (e.axis a).target = none) :
    e.holdExpiry a = (e.setAxis a { e.axis a with hold := true }).put (axisIdx a) 2 2 :=
  if_pos (by simp [hstate, hstill, hseg, hstart, htarget])

end FaultFollowHold

theorem axisFaultsAndFollow : Says.AxisFaultsAndFollow := by
  rintro s a i _ hs hi rfl
  obtain rfl : i = axisIdx a.val := hi
  have hreset : Becomes (.axisFaultReset a) s (s.e.resetAxis a.val) :=
    becomes_of_request (idx := 0x3000) (f := fun e => e.resetAxis a.val) rfl hs
  have hfollow (g : BitVec 32) : Becomes (.followRatioWrite a g) s (s.e.setFollow a.val g.toNat) :=
    becomes_of_request (idx := 0x3000) (f := fun e => e.setFollow a.val g.toNat) rfl hs
  have hdelay : Becomes (.holdDelayExpiry a) s (s.e.holdExpiry a.val) :=
    becomes_of_whenLive (f := fun e => e.holdExpiry a.val) rfl hs.1
  refine ⟨?_, ?_, ?_, ?_, ?_, ?_, ?_⟩
  · intro hstate
    rwa [s.e.resetAxis_notFault hstate] at hreset
  · intro _ hholds
    rwa [s.e.resetAxis_causeHolds hholds] at hreset
  · intro hfault hstill hseg hnext hcleared hdrive
    rw [s.e.resetAxis_resets hfault hstill hseg hnext hcleared hdrive] at hreset
    have haxis : (s.e.axisReset a.val).axis a.val = (s.e.axis a.val).faultCleared := Engine.axis_setAxis_same _ _
    exact hreset.completes_exists (·.release.evalHolds.done)
      ⟨s.e.get_axisReset_state, s.e.get_axisReset_cause, congrArg Axis.enable haxis, congrArg Axis.faultReset haxis⟩
  · intro g hratio hunwind hrewind
    have hrefused := hfollow g
    rwa [s.e.setFollow_refused hratio hunwind hrewind] at hrefused
  · intro g hrole
    have htaken := hfollow g
    rw [s.e.setFollow_takes hrole] at htaken
    exact htaken.completes ⟨s.e.get_put_same _ _ _, Engine.axis_setAxis_same _ _,
      fun k hk => (s.e.ent_put _ _ _ k).trans (if_neg hk), fun j hj => Engine.axis_setAxis_ne _ _ hj, rfl⟩
  · intro hstate
    rwa [s.e.holdExpiry_early hstate] at hdelay
  · intro hstate hstill hseg hstart htarget
    rw [s.e.holdExpiry_holds hstate hstill hseg hstart htarget] at hdelay
    exact hdelay.completes ⟨Engine.get_put_same _ _ _ _, s.e.axis_setAxis_same _,
      fun k hk => (Engine.ent_put _ _ _ _ k).trans (if_neg hk), rfl⟩

/-- Settles O36: each command by the state it finds, computed once, and the clauses read off what it leaves. -/
theorem axisStates : Obligations.AxisStates := ⟨axisCommands, axisFaultsAndFollow⟩

end Sys2Proof.Machine

/-! Encoder counts and the index (R234). -/

namespace Sys2Proof.Machine

section EncoderEntries

variable (e : Engine) {k i j : Nat}

@[simp] theorem Engine.enc_put (v : Nat) : (e.put i j v).enc k = e.enc k := rfl

theorem Engine.getI_of_ent {a b : Engine} (w : Nat) (h : a.ent (ekey i j) = b.ent (ekey i j)) : a.getI w i j = b.getI w i j :=
  congrArg (signed w) h

/-- An axis entry is not one of an encoder input. -/
theorem axis_key_ne_encoder_key {a n l m : Nat} (hl : l < 256) (hm : m < 256) :
    ekey (0x300F + 16 * n) l ≠ ekey (axisIdx a) m := by
  rw [Ne, ekey_inj hl hm, axisIdx]
  omega

end EncoderEntries

/-! The axes that an encoder input feeds -/

section SourcedAxes

variable (e : Engine) {i j : Nat} (c : Int)

theorem Engine.mem_sourcedAxes (a : Nat) : a ∈ e.sourcedAxes i ↔ a < 8 ∧ e.get (axisIdx a) 7 = i + 1 := by
  simp [Engine.sourcedAxes]

/-- The axes `as` at actual position `c`. -/
def Engine.axesAt (e : Engine) (as : List Nat) (c : Int) : Engine := e.each as fun e a => e.putI 32 (axisIdx a) 6 c

theorem Engine.ent_axesAt (as : List Nat) {k : Nat} (hk : ∀ a, k ≠ ekey (axisIdx a) 6) : (e.axesAt as c).ent k = e.ent k :=
  e.each_keeps (·.ent k) as fun x a => (x.ent_put _ _ _ k).trans (if_neg (hk a))

theorem Engine.getI_axesAt_encoder (as : List Nat) (hj : j < 256) :
    (e.axesAt as c).getI 32 (0x300F + 16 * i) j = e.getI 32 (0x300F + 16 * i) j :=
  Engine.getI_of_ent 32 (e.ent_axesAt c as fun _ => axis_key_ne_encoder_key hj (by decide))

theorem Engine.enc_axesAt (as : List Nat) (k : Nat) : (e.axesAt as c).enc k = e.enc k :=
  e.each_keeps (·.enc k) as fun _ _ => rfl

theorem Engine.get_axesAt {as : List Nat} {a : Nat} (ha : a ∈ as) : (e.axesAt as c).get (axisIdx a) 6 = unsigned 32 c := by
  refine foldl_reaches (I := fun _ => True) (P := fun a x => x.get (axisIdx a) 6 = unsigned 32 c) as e trivial
    (fun x _ b _ => ⟨trivial, x.get_put_same _ _ _, fun q hq => (x.get_put _ _ _ _ _).trans ?_⟩) a ha
  rw [hq, ite_self]

end SourcedAxes

/-! One count (R234) -/

section Counting

variable (e : Engine) {i dt : Nat} {c : Int}

/-- Lines A and B of encoder input `i` at new levels. -/
def Engine.levelsTaken (e : Engine) (i : Nat) (a b : Bool) : Engine :=
  e.setEnc i { e.enc i with a := a, b := b, lastAt := e.now }

/-- The filtered count of encoder input `i` at `c`, before the axes follow. -/
def Engine.countTaken (e : Engine) (i : Nat) (c : Int) : Engine :=
  (e.putI 32 (0x300F + 16 * i) 2 c).setEnc i { e.enc i with m := c, since := 0, fallen := false }

theorem Engine.encoderLevels_same : e.encoderLevels i (e.enc i).a (e.enc i).b dt = e := if_pos (.inr (.inr ⟨rfl, rfl⟩))

/-- A change of both lines is a quadrature error: counted, and a glitch of line A. -/
theorem Engine.encoderLevels_both (hstableA : (e.inp (26 + i)).unstable = false) (hstableB : (e.inp (30 + i)).unstable = false) :
    e.encoderLevels i (!(e.enc i).a) (!(e.enc i).b) dt =
      ((e.levelsTaken i (!(e.enc i).a) (!(e.enc i).b)).bump (0x300F + 16 * i) 0x0A 1).glitch (.encA (Fin.ofNat 4 i)) :=
  (if_neg (by simp [hstableA, hstableB])).trans (if_pos (by simp))

/-- A change of line B alone, slower than the overspeed limit, counts one step: up where the lines then agree. -/
theorem Engine.encoderLevels_lineB (hstableA : (e.inp (26 + i)).unstable = false) (hstableB : (e.inp (30 + i)).unstable = false)
    (hslow : 4000000000 ≤ dt * 5 * e.get (0x300F + 16 * i) 6)
    (hc : c = signed 32 (unsigned 32 (e.getI 32 (0x300F + 16 * i) 1 +
      (if ((e.enc i).a == (e.enc i).b) != e.flag (0x300F + 16 * i) 7 then -1 else 1)))) :
    e.encoderLevels i (e.enc i).a (!(e.enc i).b) dt = (e.levelsTaken i (e.enc i).a (!(e.enc i).b)).rawCount i c dt := by
  have hdirection : (if ((e.enc i).a == !(e.enc i).b) != e.flag (0x300F + 16 * i) 7 then (1 : Int) else -1) =
      if ((e.enc i).a == (e.enc i).b) != e.flag (0x300F + 16 * i) 7 then -1 else 1 := by
    cases (e.enc i).a <;> cases (e.enc i).b <;> cases e.flag (0x300F + 16 * i) 7 <;> rfl
  have hnotFast : ¬ decide (dt * 5 * e.get (0x300F + 16 * i) 6 < 4000000000) = true := by simpa using hslow
  rw [hc, ← hdirection]
  refine (if_neg (by simp [hstableA, hstableB])).trans ((if_neg (by simp)).trans ((if_neg hnotFast).trans ?_))
  rw [if_pos rfl]
  rfl

/-- Where the monotonic-maximum filter is inactive (R235) a raw count goes through. -/
theorem Engine.rawCount_through (hinactive : (e.enc i).active = false) :
    e.rawCount i c dt = (e.putI 32 (0x300F + 16 * i) 1 c).filteredCount i c ((e.enc i).since + dt) :=
  if_pos (.inl (by simp [hinactive]))

/-- An input other than ENC_X moves the axes it feeds, and not the interpolator. -/
theorem Engine.filteredCount_axes (hi : i ≠ 0) :
    e.filteredCount i c dt = (e.countTaken i c).axesAt ((e.countTaken i c).sourcedAxes i) c := if_neg hi

theorem Engine.getI_filteredCount_raw (hi : i ≠ 0) :
    (e.filteredCount i c dt).getI 32 (0x300F + 16 * i) 1 = e.getI 32 (0x300F + 16 * i) 1 := by
  rw [e.filteredCount_axes hi, Engine.getI_axesAt_encoder _ _ _ (by decide)]
  exact congrArg (signed 32) (e.get_put_subindex _ (by decide))

theorem Engine.getI_filteredCount (hi : i ≠ 0) :
    (e.filteredCount i c dt).getI 32 (0x300F + 16 * i) 2 = signed 32 (unsigned 32 c) := by
  rw [e.filteredCount_axes hi, Engine.getI_axesAt_encoder _ _ _ (by decide)]
  exact congrArg (signed 32) (e.get_put_same _ _ _)

theorem Engine.getI_filteredCount_axis (hi : i ≠ 0) {a : Nat} (ha : a < 8) (hsource : e.get (axisIdx a) 7 = i + 1) :
    (e.filteredCount i c dt).getI 32 (axisIdx a) 6 = signed 32 (unsigned 32 c) := by
  have hfollows : a ∈ (e.countTaken i c).sourcedAxes i := by
    have hkey := axis_key_ne_encoder_key (a := a) (n := i) (l := 2) (m := 7) (by decide) (by decide)
    exact (Engine.mem_sourcedAxes _ a).mpr ⟨ha, (e.get_put_ne hkey.symm).trans hsource⟩
  rw [e.filteredCount_axes hi]
  exact congrArg (signed 32) (Engine.get_axesAt _ c hfollows)

theorem Engine.enc_filteredCount (hi : i ≠ 0) (k : Nat) : (e.filteredCount i c dt).enc k = (e.countTaken i c).enc k := by
  rw [e.filteredCount_axes hi, Engine.enc_axesAt]

/-- The engine after one count of line B of encoder input `i`. -/
def Engine.counted (e : Engine) (i : Nat) (c : Int) (dt : Nat) : Engine :=
  ((e.levelsTaken i (e.enc i).a (!(e.enc i).b)).putI 32 (0x300F + 16 * i) 1 c).filteredCount i c ((e.enc i).since + dt)

theorem Engine.rawCount_counted (hinactive : (e.enc i).active = false) :
    (e.levelsTaken i (e.enc i).a (!(e.enc i).b)).rawCount i c dt = e.counted i c dt := by
  have henc : (e.levelsTaken i (e.enc i).a (!(e.enc i).b)).enc i =
      { e.enc i with a := (e.enc i).a, b := !(e.enc i).b, lastAt := e.now } := (e.enc_setEnc _ _ _).trans (if_pos rfl)
  rw [Engine.rawCount_through _ ((congrArg Encoder.active henc).trans hinactive), henc]
  rfl

theorem Engine.getI_counted_raw (hi : i ≠ 0) :
    (e.counted i c dt).getI 32 (0x300F + 16 * i) 1 = signed 32 (unsigned 32 c) := by
  rw [Engine.counted, Engine.getI_filteredCount_raw _ hi]
  exact congrArg (signed 32) (Engine.get_put_same _ _ _ _)

theorem Engine.getI_counted_filtered (hi : i ≠ 0) :
    (e.counted i c dt).getI 32 (0x300F + 16 * i) 2 = signed 32 (unsigned 32 c) := Engine.getI_filteredCount _ hi

theorem Engine.getI_counted_axis (hi : i ≠ 0) {a : Nat} (ha : a < 8) (hsource : e.get (axisIdx a) 7 = i + 1) :
    (e.counted i c dt).getI 32 (axisIdx a) 6 = signed 32 (unsigned 32 c) :=
  Engine.getI_filteredCount_axis _ hi ha
    ((Engine.get_put_ne _ (axis_key_ne_encoder_key (by decide) (by decide)).symm).trans hsource)

theorem Engine.enc_counted_same (hi : i ≠ 0) : ((e.counted i c dt).enc i).b = !(e.enc i).b := by
  simp [Engine.counted, Engine.enc_filteredCount _ hi, Engine.countTaken, Engine.levelsTaken, Engine.putI]

theorem Engine.enc_counted_other (hi : i ≠ 0) {k : Nat} (hk : k ≠ i) : (e.counted i c dt).enc k = e.enc k := by
  simp [Engine.counted, Engine.enc_filteredCount _ hi, Engine.countTaken, Engine.levelsTaken, Engine.putI, hk]

end Counting

theorem encoderCounts : Says.EncoderCounts := by
  rintro s n _ _ hlive rfl rfl
  have hcount (a b : Bool) (dt : Nat) : Becomes (.encoderCount n a b dt) s (s.e.encoderLevels n.val a b dt) :=
    becomes_of_whenLive (f := fun e => e.encoderLevels n.val a b dt) rfl hlive
  have hindex : Becomes (.encoderIndex n) s (if (s.e.inp (34 + n.val)).unstable then s.e else s.e.encoderIndex n.val) :=
    becomes_of_whenLive (f := fun e => if (e.inp (34 + n.val)).unstable then e else e.encoderIndex n.val) rfl hlive
  refine ⟨?_, ?_, ?_, ?_, ?_⟩
  · intro dt
    have hsame := hcount (s.e.enc n.val).a (s.e.enc n.val).b dt
    rwa [s.e.encoderLevels_same] at hsame
  · intro dt c hstableA hstableB hn hinactive hslow hc
    have hstep := hcount (s.e.enc n.val).a (!(s.e.enc n.val).b) dt
    rw [s.e.encoderLevels_lineB hstableA hstableB hslow hc, s.e.rawCount_counted hinactive] at hstep
    have hword : signed 32 (unsigned 32 c) = c := by rw [hc, signed_unsigned_signed]
    refine hstep.completes ⟨?_, ?_, fun a ha hsource => ?_, s.e.enc_counted_same hn, fun j hj => s.e.enc_counted_other hn hj⟩
    · exact (s.e.getI_counted_raw hn).trans hword
    · exact (s.e.getI_counted_filtered hn).trans hword
    · exact (s.e.getI_counted_axis hn ha hsource).trans hword
  · intro dt hstableA hstableB
    have hboth := hcount (!(s.e.enc n.val).a) (!(s.e.enc n.val).b) dt
    rw [s.e.encoderLevels_both hstableA hstableB, Fin.ofNat_val_eq_self] at hboth
    exact hboth.completes_exists (·.glitch (.encA n))
      ⟨Engine.get_put_same _ _ _ _, congrArg (signed 32) (Engine.get_put_subindex _ _ (by decide))⟩
  · intro hunstable
    rwa [if_pos hunstable] at hindex
  · intro hstable
    rw [if_neg (by simp [hstable])] at hindex
    refine hindex.completes ⟨fun p hp => ?_, fun k hk => ?_, rfl⟩
    · obtain rfl := List.mem_singleton.mp hp
      exact s.e.get_put_same _ _ _
    · exact (s.e.ent_put _ _ _ k).trans (if_neg (by simpa using hk))

end Sys2Proof.Machine

/-! Filtered digital inputs (R233, R241): levels, glitches, stable and stuck inputs. -/

namespace Sys2Proof.Machine

section InputEntries

variable (e : Engine) {n i j : Nat}

theorem Engine.inp_setInp_same (x : InputState) : (e.setInp n x).inp n = x := (e.inp_setInp n n x).trans (if_pos rfl)

theorem Engine.inp_setInp_ne {m : Nat} (x : InputState) (h : m ≠ n) : (e.setInp n x).inp m = e.inp m :=
  (e.inp_setInp n m x).trans (if_neg h)

theorem Engine.EntriesOnly.inp {a b : Engine} (h : a.EntriesOnly b) : b.inp n = a.inp n := by
  obtain ⟨dict, rfl⟩ := h
  rfl

end InputEntries

/-! Where inputs report (R247) -/

section Publishing

variable (e : Engine)

theorem Engine.publishInputs_entriesOnly (p : InputPlace) : e.EntriesOnly (e.publishInputs p) := by
  cases p with
  | engine => exact (Engine.EntriesOnly.refl e).put _ _ _
  | axis a => exact (Engine.EntriesOnly.refl e).put _ _ _
  | encoder i =>
    simp only [Engine.publishInputs]
    split_ifs
    · exact (Engine.EntriesOnly.refl e).put _ _ _
    · exact (Engine.EntriesOnly.refl e).put _ _ _
    · exact Engine.EntriesOnly.refl e

theorem Engine.ent_publishInputs_engine {k : Nat} (hk : k ≠ 0x307F01) : (e.publishInputs .engine).ent k = e.ent k :=
  (e.ent_put _ _ _ k).trans (if_neg hk)

theorem Engine.ent_publishInputs_axis {a k : Nat} (hk : k ≠ ekey (axisIdx a + 4) 1) :
    (e.publishInputs (.axis a)).ent k = e.ent k :=
  (e.ent_put _ _ _ k).trans (if_neg hk)

/-- Bit 2 of a byte of flags. -/
theorem bit_two_flags (p n h ps ns hs l u : Bool) :
    bit (ofBool p + 2 * ofBool n + 4 * ofBool h + 8 * ofBool ps + 16 * ofBool ns + 32 * ofBool hs + 64 * ofBool l +
      128 * ofBool u) 2 = h := by
  have hp : ofBool p ≤ 1 := by cases p <;> decide
  have hn : ofBool n ≤ 1 := by cases n <;> decide
  have hoff : ofBool false = 0 := rfl
  have hon : ofBool true = 1 := rfl
  rw [bit, Nat.shiftRight_eq_div_pow]
  cases h
  · rw [hoff, beq_eq_false_iff_ne]
    omega
  · rw [hon, beq_iff_eq]
    omega

/-- 30a4h:01h shows the home input of axis `a` in bit 2. -/
theorem Engine.publishInputs_home (a : Nat) :
    bit ((e.publishInputs (.axis a)).get (axisIdx a + 4) 1) 2 = (e.inp (18 + a)).active :=
  (congrArg (bit · 2) (e.get_put_same _ _ _)).trans (bit_two_flags _ _ _ _ _ _ _ _)

end Publishing

/-! Levels -/

section Levels

variable (e : Engine) {d : DigIn} {v : Bool}

/-- Input `d` at filtered level `v`. -/
def Engine.levelSet (e : Engine) (d : DigIn) (v : Bool) : Engine :=
  e.setInp (inputNo d) { e.inp (inputNo d) with active := v, stuck := (e.inp (inputNo d)).stuck && v }

theorem Engine.inputLevel_same : e.inputLevel d (e.inp (inputNo d)).active = e := if_pos (.inr rfl)

theorem Engine.inputLevel_takes (hstable : (e.inp (inputNo d)).unstable = false) (hchange : (e.inp (inputNo d)).active = !v) :
    e.inputLevel d v = ((e.levelSet d v).publishInputs (inputPlace d)).inputActs d v :=
  if_neg (by simp [hstable, hchange])

theorem Engine.active_levelSet : ((e.levelSet d v).inp (inputNo d)).active = v :=
  congrArg InputState.active (e.inp_setInp_same _)

theorem Engine.inp_levelSet_ne {j : Nat} (h : j ≠ inputNo d) : (e.levelSet d v).inp j = e.inp j := e.inp_setInp_ne _ h

/-- STOP_L active is a Halt that names the input (R233). -/
theorem Engine.inputActs_stop : e.inputActs .stop true = (e.wake 5).raise 7 0x0B 0 := rfl

end Levels

/-! Stable and stuck inputs -/

section StableStuck

variable (e : Engine) {d : DigIn}

theorem Engine.stable_already (hstable : (e.inp (inputNo d)).unstable = false) : e.stable d = e := if_neg (by simp [hstable])

/-- Input `d` free of its glitches. -/
def Engine.settled (e : Engine) (d : DigIn) : Engine :=
  e.setInp (inputNo d) { e.inp (inputNo d) with unstable := false, recent := [] }

theorem Engine.stable_ends (hunstable : (e.inp (inputNo d)).unstable = true) :
    e.stable d = (e.settled d).publishInputs (inputPlace d) := if_pos hunstable

theorem Engine.stuck_inactive (hinactive : (e.inp (inputNo d)).active = false) : e.stuck d = e :=
  if_neg fun hdue => absurd (hinactive.symm.trans hdue.1) (by decide)

/-- Input `d` reported stuck. -/
def Engine.stuckSet (e : Engine) (d : DigIn) : Engine :=
  (e.setInp (inputNo d) { e.inp (inputNo d) with stuck := true }).publishInputs (inputPlace d)

theorem Engine.stuck_reports (hactive : (e.inp (inputNo d)).active = true) (hnew : (e.inp (inputNo d)).stuck = false)
    (hlimit : e.stuckLimit d ≠ 0) : e.stuck d = (e.stuckSet d).inputFault (inputPlace d) 10 :=
  if_pos ⟨hactive, by simp [hnew], hlimit⟩

theorem Engine.inp_stuckSet : (e.stuckSet d).inp (inputNo d) = { e.inp (inputNo d) with stuck := true } :=
  (Engine.publishInputs_entriesOnly _ _).inp.trans (e.inp_setInp_same _)

end StableStuck

/-! Glitches -/

section Glitches

variable (e : Engine) {a : Fin 8}

/-- The glitches of the last millisecond of an input, with one at `now`. -/
def InputState.burst (x : InputState) (now : Nat) : List Nat := now :: x.recent.filter fun t => decide (now < t + refMs)

/-- Whether one more glitch of the home input of axis `a` exceeds its chatter limit. -/
def Engine.homeChatters (e : Engine) (a : Nat) : Bool :=
  decide (e.get (axisIdx a + 4) 5 < ((e.inp (18 + a)).burst e.now).length)

/-- A glitch of the home input of axis `a` as counted: the input becomes unstable if `bad`. -/
def Engine.homeGlitched (e : Engine) (a : Nat) (bad : Bool) : Engine :=
  (e.bump (axisIdx a + 4) 4 1).setInp (18 + a)
    { e.inp (18 + a) with recent := (e.inp (18 + a)).burst e.now, unstable := (e.inp (18 + a)).unstable || bad }

theorem Engine.glitch_home : e.glitch (.home a) =
    if e.homeChatters a.val = true ∧ !(e.inp (18 + a.val)).unstable then
      ((e.homeGlitched a.val (e.homeChatters a.val)).publishInputs (.axis a.val)).motionFault a.val 9
    else e.homeGlitched a.val (e.homeChatters a.val) := rfl

theorem Engine.homeChatters_first {a : Nat} (hfirst : (e.inp (18 + a)).recent = []) (hlimit : 1 ≤ e.get (axisIdx a + 4) 5) :
    e.homeChatters a = false := by
  rw [Engine.homeChatters, InputState.burst, hfirst]
  exact decide_eq_false (Nat.not_lt.mpr hlimit)

theorem Engine.homeChatters_noLimit {a : Nat} (hlimit : e.get (axisIdx a + 4) 5 = 0) : e.homeChatters a = true := by
  rw [Engine.homeChatters, hlimit]
  exact decide_eq_true (Nat.succ_pos _)

theorem Engine.glitch_home_first (hfirst : (e.inp (18 + a.val)).recent = []) (hlimit : 1 ≤ e.get (axisIdx a.val + 4) 5) :
    e.glitch (.home a) = e.homeGlitched a.val false := by
  rw [Engine.glitch_home, e.homeChatters_first hfirst hlimit, if_neg (by simp)]

theorem Engine.glitch_home_unstable (hlimit : e.get (axisIdx a.val + 4) 5 = 0) (hstable : (e.inp (18 + a.val)).unstable = false) :
    e.glitch (.home a) = ((e.homeGlitched a.val true).publishInputs (.axis a.val)).motionFault a.val 9 := by
  rw [Engine.glitch_home, e.homeChatters_noLimit hlimit, if_pos (by simp [hstable])]

theorem Engine.ent_homeGlitched (a : Nat) (bad : Bool) (k : Nat) :
    (e.homeGlitched a bad).ent k = (e.bump (axisIdx a + 4) 4 1).ent k := rfl

theorem Engine.get_homeGlitched_count (a : Nat) (bad : Bool) : (e.homeGlitched a bad).get (axisIdx a + 4) 4 =
    satAdd (entBits (axisIdx a + 4) 4) (e.get (axisIdx a + 4) 4) 1 := e.get_put_same _ _ _

theorem Engine.inp_homeGlitched_first {a : Nat} (hfirst : (e.inp (18 + a)).recent = []) :
    (e.homeGlitched a false).inp (18 + a) = { e.inp (18 + a) with recent := [e.now] } := by
  rw [Engine.homeGlitched, Engine.inp_setInp_same, InputState.burst, hfirst, Bool.or_false]
  rfl

theorem Engine.unstable_homeGlitched {a : Nat} : ((e.homeGlitched a true).inp (18 + a)).unstable = true := by
  rw [Engine.homeGlitched, Engine.inp_setInp_same, Bool.or_true]

end Glitches

theorem digitalInputs : Says.DigitalInputs := by
  intro s hlive
  have hlevel (d : DigIn) (v : Bool) : Becomes (.inputChange d v) s (s.e.inputLevel d v) :=
    becomes_of_whenLive (f := fun e => e.inputLevel d v) rfl hlive
  have hstable (d : DigIn) : Becomes (.inputStableTimeout d) s (s.e.stable d) :=
    becomes_of_whenLive (f := fun e => e.stable d) rfl hlive
  have hstuck (d : DigIn) : Becomes (.inputStuckTimeout d) s (s.e.stuck d) :=
    becomes_of_whenLive (f := fun e => e.stuck d) rfl hlive
  have hglitch (d : DigIn) : Becomes (.inputGlitch d) s (s.e.glitch d) :=
    becomes_of_whenLive (f := fun e => e.glitch d) rfl hlive
  have hindex (a : Nat) : 0x3004 + 16 * a = axisIdx a + 4 := by rw [axisIdx]; omega
  simp only [hindex]
  refine ⟨?_, ?_, ?_, ?_, ?_, ?_, ?_, ?_, ?_⟩
  · intro d
    have hsame := hlevel d (s.e.inp (inputNo d)).active
    rwa [s.e.inputLevel_same] at hsame
  · intro hfree hinactive
    have hstop := hlevel .stop true
    rw [s.e.inputLevel_takes (d := .stop) (v := true) hfree hinactive, Engine.inputActs_stop] at hstop
    refine hstop.completes_exists (fun e => (e.wake 5).raise 7 0x0B 0) ⟨?_, fun k hk => Engine.ent_publishInputs_engine _ hk⟩
    rw [(Engine.publishInputs_entriesOnly _ _).inp]
    exact s.e.active_levelSet (d := .stop)
  · intro a v hfree hchange
    have hhome := hlevel (.home a) v
    rw [s.e.inputLevel_takes (d := .home a) hfree hchange] at hhome
    have hinp (j : Nat) := ((s.e.levelSet (.home a) v).publishInputs_entriesOnly (.axis a.val)).inp (n := j)
    have hactive : ((s.e.levelSet (.home a) v).inp (18 + a.val)).active = v := s.e.active_levelSet (d := .home a)
    refine hhome.completes ⟨?_, ?_, ?_, ?_⟩
    · exact (congrArg InputState.active (hinp _)).trans hactive
    · exact fun k hk => Engine.ent_publishInputs_axis _ hk
    · exact (Engine.publishInputs_home _ _).trans hactive
    · exact fun j hj => (hinp j).trans (s.e.inp_levelSet_ne (d := .home a) hj)
  · intro d hfree
    have halready := hstable d
    rwa [s.e.stable_already hfree] at halready
  · intro d hunstable
    have hends := hstable d
    rw [s.e.stable_ends hunstable] at hends
    have hentries := (s.e.settled d).publishInputs_entriesOnly (inputPlace d)
    refine hends.completes ⟨?_, ?_, ?_⟩
    · exact hentries.inp.trans (s.e.inp_setInp_same _)
    · exact fun j hj => hentries.inp.trans (s.e.inp_setInp_ne _ hj)
    · obtain ⟨dict, hdict⟩ := hentries
      rw [hdict]
      rfl
  · intro d hinactive
    have hquiet := hstuck d
    rwa [s.e.stuck_inactive hinactive] at hquiet
  · intro hactive hnew hlimit
    have hreports := hstuck .stop
    rw [s.e.stuck_reports (d := .stop) hactive hnew hlimit] at hreports
    exact ⟨s.e.stuckSet .stop, ⟨s.e.inp_stuckSet (d := .stop), fun k hk => Engine.ent_publishInputs_engine _ hk⟩, hreports⟩
  · intro a hfirst hlimit
    have hcounted := hglitch (.home a)
    rw [s.e.glitch_home_first hfirst hlimit] at hcounted
    exact hcounted.completes ⟨s.e.get_homeGlitched_count _ _, s.e.inp_homeGlitched_first hfirst,
      fun k hk => (s.e.ent_homeGlitched _ _ k).trans ((s.e.ent_put _ _ _ k).trans (if_neg hk))⟩
  · intro a hlimit hfree
    have hbad := hglitch (.home a)
    rw [s.e.glitch_home_unstable hlimit hfree] at hbad
    refine hbad.completes_exists (·.motionFault a.val 9) ?_
    rw [(Engine.publishInputs_entriesOnly _ _).inp]
    exact s.e.unstable_homeGlitched

/-- Settles O37: counts by the lines that change, and inputs by what the filter reports of them. -/
theorem encodersAndInputs : Obligations.EncodersAndInputs := ⟨encoderCounts, digitalInputs⟩

end Sys2Proof.Machine

/-! Trace units as commanded (R262, R263): arm, trigger and stop. -/

namespace Sys2Proof.Machine

/-- A request that is answered as done and does nothing else. -/
theorem serves_nothing {c : Instr} {s : State} (h : Becomes c s s.e.done) : Serves c s [] :=
  serves_of_entriesOnly h (.refl _) (fun _ hp => absurd hp List.not_mem_nil) fun _ _ => rfl

section TraceEntries

variable (e : Engine) {u i j k : Nat} (x : Trace)

theorem ekey_div_index (hj : j < 256) : ekey i j / 256 = i := by
  unfold ekey
  omega

theorem ne_ekey_of_otherIndex (hj : j < 256) (hk : k / 256 ≠ i) : k ≠ ekey i j := by
  rintro rfl
  exact hk (ekey_div_index hj)

/-- A write of an entry leaves the entries of every other index alone. -/
theorem Engine.ent_put_otherIndex (v : Nat) (hj : j < 256) (hk : k / 256 ≠ i) : (e.put i j v).ent k = e.ent k :=
  (e.ent_put i j v k).trans (if_neg (ne_ekey_of_otherIndex hj hk))

@[simp] theorem Engine.ent_setTrace : (e.setTrace u x).ent k = e.ent k := rfl

@[simp] theorem Engine.trace_put (v : Nat) : (e.put i j v).trace u = e.trace u := rfl

@[simp] theorem Engine.trace_done : e.done.trace u = e.trace u := rfl

theorem Engine.EntriesOnly.trace {a b : Engine} (h : a.EntriesOnly b) : b.trace u = a.trace u := by
  obtain ⟨dict, rfl⟩ := h
  rfl

theorem Engine.trace_setTrace_same : (e.setTrace u x).trace u = x := (e.trace_setTrace u u x).trans (if_pos rfl)

theorem Engine.trace_setTrace_ne (h : j ≠ u) : (e.setTrace u x).trace j = e.trace j := (e.trace_setTrace u j x).trans (if_neg h)

/-- Engine `b` is `a` but for numeric dictionary entries and trace units. -/
def Engine.TracesOnly (a b : Engine) : Prop := ∃ dict traces, b = { a with d.dict := dict, ctl.traces := traces }

theorem Engine.TracesOnly.put {a b : Engine} (h : a.TracesOnly b) (i j v : Nat) : a.TracesOnly (b.put i j v) := by
  obtain ⟨dict, traces, rfl⟩ := h
  exact ⟨_, _, rfl⟩

theorem Engine.TracesOnly.setTrace {a b : Engine} (h : a.TracesOnly b) (u : Nat) (x : Trace) : a.TracesOnly (b.setTrace u x) := by
  obtain ⟨dict, traces, rfl⟩ := h
  exact ⟨_, _, rfl⟩

theorem Engine.TracesOnly.now {a b : Engine} (h : a.TracesOnly b) : b.now = a.now := by
  obtain ⟨dict, traces, rfl⟩ := h
  rfl

/-- What a request on trace units that is answered as done leaves. -/
theorem Engine.TracesOnly.done_eq {a b : Engine} (h : a.TracesOnly b) :
    b.done = { a with d.dict := b.done.d.dict, ctl.traces := b.done.ctl.traces, sdo := 0, sdoData := [] } := by
  obtain ⟨dict, traces, rfl⟩ := h
  rfl

end TraceEntries

section TraceCommands

variable (e : Engine) {u j k : Nat}

/-- Unit `u` triggered at `now`: the next sample is the trigger sample. -/
def Engine.triggered (e : Engine) (u : Nat) : Engine :=
  ((e.put (traceIdx u) 2 2).put (traceIdx u) 0x0F e.now).setTrace u { e.trace u with trigDue := true }

theorem Engine.traceTrig_waiting (hwaiting : e.get (traceIdx u) 2 = 1) : e.traceTrig u = e.triggered u := if_pos hwaiting

theorem Engine.traceTrig_notWaiting (hstate : e.get (traceIdx u) 2 ≠ 1) : e.traceTrig u = e := if_neg hstate

theorem Engine.get_triggered_state : (e.triggered u).get (traceIdx u) 2 = 2 :=
  (Engine.get_put_subindex _ _ (by decide)).trans (e.get_put_same _ _ _)

theorem Engine.get_triggered_time : (e.triggered u).get (traceIdx u) 0x0F = e.now := Engine.get_put_same _ _ _ _

theorem Engine.ent_triggered (hstate : k ≠ ekey (traceIdx u) 2) (htime : k ≠ ekey (traceIdx u) 0x0F) :
    (e.triggered u).ent k = e.ent k :=
  (Engine.ent_put _ _ _ _ k).trans ((if_neg htime).trans ((e.ent_put _ _ _ k).trans (if_neg hstate)))

theorem Engine.TracesOnly.triggered {a b : Engine} (h : a.TracesOnly b) : a.TracesOnly (b.triggered u) :=
  ((h.put _ _ _).put _ _ _).setTrace _ _

theorem Engine.get_triggered_other (hstate : j ≠ 2) (htime : j ≠ 0x0F) :
    (e.triggered u).get (traceIdx u) j = e.get (traceIdx u) j :=
  e.ent_triggered (by simpa using hstate) (by simpa using htime)

/-- What arming makes of unit `u`: it waits for its trigger, with its counts cleared. -/
def Engine.traceArmed (e : Engine) (u : Nat) : Engine :=
  [0x0C, 0x0D, 0x0E, 0x0F, 0x10].foldl (fun e sub => e.put (traceIdx u) sub 0) ((e.setTrace u {}).put (traceIdx u) 2 1)

theorem Engine.ent_traceArmed (k : Nat) : (e.traceArmed u).ent k =
    if k ∈ [0x0C, 0x0D, 0x0E, 0x0F, 0x10].map (ekey (traceIdx u)) then 0
    else if k = ekey (traceIdx u) 2 then 1 else e.ent k := by
  rw [Engine.traceArmed, Engine.ent_zeroAll, Engine.ent_put, Engine.ent_setTrace]

theorem Engine.get_traceArmed (j : Nat) : (e.traceArmed u).get (traceIdx u) j =
    if j ∈ [0x0C, 0x0D, 0x0E, 0x0F, 0x10] then 0 else if j = 2 then 1 else e.get (traceIdx u) j := by
  refine (e.ent_traceArmed _).trans ?_
  simp only [List.mem_map, ekey_same_index, exists_eq_right, Engine.get]

theorem Engine.ent_traceArmed_otherIndex (hk : k / 256 ≠ traceIdx u) : (e.traceArmed u).ent k = e.ent k := by
  rw [Engine.ent_traceArmed, if_neg, if_neg (ne_ekey_of_otherIndex (by decide) hk)]
  simp [ne_ekey_of_otherIndex _ hk]

theorem Engine.traceArmed_entriesOnly : (e.setTrace u {}).EntriesOnly (e.traceArmed u) :=
  ((Engine.EntriesOnly.refl _).put (traceIdx u) 2 1).trans (Engine.EntriesOnly.zeroAll _ _ _)

theorem Engine.traceArmed_tracesOnly : e.TracesOnly (e.traceArmed u) := by
  obtain ⟨dict, hdict⟩ := e.traceArmed_entriesOnly (u := u)
  exact ⟨dict, _, hdict⟩

theorem Engine.trace_traceArmed_same : (e.traceArmed u).trace u = {} :=
  e.traceArmed_entriesOnly.trace.trans (e.trace_setTrace_same _)

theorem Engine.trace_traceArmed_ne (h : j ≠ u) : (e.traceArmed u).trace j = e.trace j :=
  e.traceArmed_entriesOnly.trace.trans (e.trace_setTrace_ne _ h)

/-- Unit `u` as an arm that nothing refuses leaves it (R262): mode 0 triggers at once. -/
def Engine.traceStarted (e : Engine) (u : Nat) : Engine :=
  if e.get (traceIdx u) 7 = 0 then (e.traceArmed u).triggered u else e.traceArmed u

theorem Engine.get_traceStarted_state :
    (e.traceStarted u).get (traceIdx u) 2 = if e.get (traceIdx u) 7 = 0 then 2 else 1 := by
  rw [Engine.traceStarted]
  split_ifs
  · exact Engine.get_triggered_state _
  · exact e.get_traceArmed 2

theorem Engine.get_traceStarted_time :
    (e.traceStarted u).get (traceIdx u) 0x0F = if e.get (traceIdx u) 7 = 0 then e.now else 0 := by
  rw [Engine.traceStarted]
  split_ifs
  · exact (Engine.get_triggered_time _).trans e.traceArmed_tracesOnly.now
  · exact e.get_traceArmed 0x0F

theorem Engine.get_traceStarted_count (hj : j ∈ [0x0C, 0x0D, 0x0E, 0x10]) : (e.traceStarted u).get (traceIdx u) j = 0 := by
  have hkept : j ≠ 2 ∧ j ≠ 0x0F ∧ j ∈ [0x0C, 0x0D, 0x0E, 0x0F, 0x10] := by
    simp only [List.mem_cons, List.not_mem_nil, or_false] at hj ⊢
    omega
  obtain ⟨hstate, htime, hcount⟩ := hkept
  have hcleared : (e.traceArmed u).get (traceIdx u) j = 0 := (e.get_traceArmed j).trans (if_pos hcount)
  rw [Engine.traceStarted]
  split_ifs
  · exact ((e.traceArmed u).get_triggered_other hstate htime).trans hcleared
  · exact hcleared

theorem Engine.ent_traceStarted_otherIndex (hk : k / 256 ≠ traceIdx u) : (e.traceStarted u).ent k = e.ent k := by
  have harmed := e.ent_traceArmed_otherIndex hk
  rw [Engine.traceStarted]
  split_ifs
  · exact ((e.traceArmed u).ent_triggered (ne_ekey_of_otherIndex (by decide) hk)
      (ne_ekey_of_otherIndex (by decide) hk)).trans harmed
  · exact harmed

theorem Engine.trace_traceStarted_same : (e.traceStarted u).trace u = { trigDue := e.get (traceIdx u) 7 == 0 } := by
  rw [Engine.traceStarted]
  split_ifs with himmediate
  · rw [Engine.triggered, Engine.trace_setTrace_same, e.trace_traceArmed_same, himmediate, beq_self_eq_true]
  · rw [e.trace_traceArmed_same, beq_eq_false_iff_ne.mpr himmediate]

theorem Engine.trace_traceStarted_ne (h : j ≠ u) : (e.traceStarted u).trace j = e.trace j := by
  rw [Engine.traceStarted]
  split_ifs
  · rw [Engine.triggered, Engine.trace_setTrace_ne _ _ h, Engine.trace_put, Engine.trace_put, e.trace_traceArmed_ne h]
  · exact e.trace_traceArmed_ne h

theorem Engine.traceStarted_tracesOnly : e.TracesOnly (e.traceStarted u) := by
  rw [Engine.traceStarted]
  split_ifs
  · exact e.traceArmed_tracesOnly.triggered
  · exact e.traceArmed_tracesOnly

theorem Engine.traceArm_busy (hbusy : e.tracing u = true ∨ 1 ≤ e.stage) : e.traceArm u = e.refuse abState := if_pos hbusy

theorem Engine.traceArm_noSource (hfree : e.tracing u = false) (hstage : e.stage = 0) (hsource : e.traceSource u = false) :
    e.traceArm u = e.refuse abValue :=
  (if_neg (by simp [hfree, hstage])).trans (if_pos (.inl (by simp [hsource])))

/-- R262: no arm is refused where the source exists and the ring lies free in usable DRAM. -/
theorem Engine.traceArm_taken (hfree : e.tracing u = false) (hstage : e.stage = 0) (hsource : e.traceSource u = true)
    (hmode : e.get (traceIdx u) 7 ≠ 3) (hdram : e.inDram (e.get (traceIdx u) 0x0A) (e.get (traceIdx u) 0x0B) = true)
    (hclear : clash (e.get (traceIdx u) 0x0A) (e.get (traceIdx u) 0x0B)
      (e.traceRings u ++ e.openRings 256 ++ [e.proofRing] ++ e.fireTable ++ e.storeRegions) = false) :
    e.traceArm u = (e.traceStarted u).done := by
  have hwaiting : (e.traceArmed u).get (traceIdx u) 2 = 1 := e.get_traceArmed 2
  have hkept : (e.traceArmed u).get (traceIdx u) 7 = e.get (traceIdx u) 7 := e.get_traceArmed 7
  refine (if_neg (by simp [hfree, hstage])).trans ((if_neg ?_).trans ?_)
  · rw [hclear]
    simp [hsource, hmode, hdram]
  · rw [Engine.traceStarted, ← Engine.traceTrig_waiting _ hwaiting, ← hkept]
    rfl

/-- R263: what stopping leaves of the samples of unit `u` before they are published: whole groups of 1,024. -/
def Engine.traceCut (e : Engine) (u st : Nat) : Engine :=
  (e.put (traceIdx u) 2 st).setTrace u { e.trace u with
    taken := (e.trace u).taken / 1024 * 1024, chip := (e.trace u).chip.take ((e.trace u).taken / 1024 * 1024 - (e.trace u).drained) }

theorem Engine.traceEnd_recording (st : Nat) (hrecords : e.tracing u = true) :
    e.traceEnd u st = (e.traceCut u st).tracePublish u := if_pos hrecords

theorem Engine.traceEnd_notRecording (st : Nat) (hfree : e.tracing u = false) : e.traceEnd u st = e := if_neg (by simp [hfree])

theorem Engine.trace_traceCut (st : Nat) : ((e.traceCut u st).trace u).taken = (e.trace u).taken / 1024 * 1024 :=
  congrArg Trace.taken (Engine.trace_setTrace_same _ _)

theorem Engine.trace_tracePublish : (e.tracePublish u).trace j = e.trace j := rfl

theorem Engine.get_tracePublish_count : (e.tracePublish u).get (traceIdx u) 0x0C = min (e.trace u).taken (e.traceCap u) :=
  (Engine.get_put_subindex _ _ (by decide)).trans (e.get_put_same _ _ _)

theorem Engine.ent_tracePublish (hcount : k ≠ ekey (traceIdx u) 0x0C) (hfirst : k ≠ ekey (traceIdx u) 0x0D) :
    (e.tracePublish u).ent k = e.ent k :=
  (Engine.ent_put _ _ _ _ k).trans ((if_neg hfirst).trans ((e.ent_put _ _ _ k).trans (if_neg hcount)))

theorem Engine.ent_traceCut {st : Nat} (hstate : k ≠ ekey (traceIdx u) 2) : (e.traceCut u st).ent k = e.ent k :=
  (e.ent_put _ _ _ k).trans (if_neg hstate)

theorem Engine.get_traceCut_state (st : Nat) : (e.traceCut u st).get (traceIdx u) 2 = st := e.get_put_same _ _ _

theorem Engine.traceCap_traceCut (st : Nat) : (e.traceCut u st).traceCap u = e.get (traceIdx u) 0x0B / 4 :=
  congrArg (· / 4) (e.ent_traceCut (by simp))

end TraceCommands

/-- Settles O40: each command by the state of its unit. -/
theorem traceUnits : Obligations.TraceUnits := by
  rintro s u _ hs rfl
  have hindex : 0x3210 + u.val = traceIdx u.val := rfl
  simp only [hindex]
  have harm : Becomes (.traceArm u) s (s.e.traceArm u.val) :=
    becomes_of_request (idx := 0x3210) (f := fun e => e.traceArm u.val) rfl hs
  have htrigger : Becomes (.traceTrigger u) s (s.e.traceTrig u.val).done :=
    becomes_of_request (idx := 0x3210) (f := fun e => (e.traceTrig u.val).done) rfl hs
  have hstop : Becomes (.traceStop u) s (s.e.traceEnd u.val 4).done :=
    becomes_of_request (idx := 0x3210) (f := fun e => (e.traceEnd u.val 4).done) rfl hs
  refine ⟨?_, ?_, ?_, ?_, ?_, ?_, ?_⟩
  · intro hbusy
    rwa [s.e.traceArm_busy hbusy] at harm
  · intro hfree hstage hsource
    rwa [s.e.traceArm_noSource hfree hstage hsource] at harm
  · intro hfree hstage hsource hmode hdram hclear
    rw [s.e.traceArm_taken hfree hstage hsource hmode hdram hclear] at harm
    refine harm.completes ?_
    simp only [Engine.get_done, Engine.ent_done, Engine.trace_done]
    exact ⟨s.e.get_traceStarted_state, s.e.get_traceStarted_count (by decide), s.e.get_traceStarted_count (by decide),
      s.e.get_traceStarted_count (by decide), s.e.get_traceStarted_time, s.e.get_traceStarted_count (by decide),
      s.e.trace_traceStarted_same, Engine.done_sdo _, fun k hk => s.e.ent_traceStarted_otherIndex hk,
      fun j hj => s.e.trace_traceStarted_ne hj, congrArg (State.mk s.pending s.nv) s.e.traceStarted_tracesOnly.done_eq⟩
  · intro hwaiting
    rw [s.e.traceTrig_waiting hwaiting] at htrigger
    refine htrigger.completes ?_
    simp only [Engine.get_done, Engine.ent_done, Engine.trace_done]
    exact ⟨s.e.get_triggered_state, s.e.get_triggered_time, Engine.trace_setTrace_same _ _, rfl,
      fun k hstate htime => s.e.ent_triggered hstate htime⟩
  · intro hstate
    rw [s.e.traceTrig_notWaiting hstate] at htrigger
    exact serves_nothing htrigger
  · intro hrecords
    rw [s.e.traceEnd_recording 4 hrecords] at hstop
    refine hstop.completes ?_
    simp only [Engine.get_done, Engine.ent_done, Engine.trace_done]
    refine ⟨?_, ?_, ?_, rfl, fun k hstate hcount hfirst => ?_⟩
    · rw [Engine.get, Engine.ent_tracePublish _ (by simp) (by simp)]
      exact s.e.get_traceCut_state 4
    · rw [Engine.trace_tracePublish, s.e.trace_traceCut]
    · refine (Engine.get_tracePublish_count _).trans ?_
      rw [s.e.trace_traceCut, s.e.traceCap_traceCut]
    · exact (Engine.ent_tracePublish _ hcount hfirst).trans (s.e.ent_traceCut hstate)
  · intro hfree
    rw [s.e.traceEnd_notRecording 4 hfree] at hstop
    exact serves_nothing hstop

end Sys2Proof.Machine

/-! Sticky flags, trips of HV channels and conversions (R251, R258-R260). -/

namespace Sys2Proof.Machine

/-- R25: the entries of motion and of the loops are those of partition 1. -/
theorem owner_eq_one {idx : Nat} (hlow : 0x3000 ≤ idx) (hhigh : idx < 0x3500) : owner idx = 1 := by
  rw [owner, if_neg (by omega), if_pos ⟨hlow, hhigh⟩]

section Untraced

variable (e : Engine)

/-- A list of updates, each of which leaves the engine as it is. -/
theorem Engine.each_unchanged {f : Engine → Nat → Engine} (is : List Nat) (h : ∀ i ∈ is, f e i = e) : e.each is f = e :=
  List.foldlRecOn (motive := fun x => x = e) is f rfl fun x hx i hi => by rw [hx, h i hi]

/-- Where no unit records, no event is traced. -/
theorem Engine.traceEvent_untraced (hfree : ∀ u, u < 4 → e.tracing u = false) (kind idx code : Nat) (p : Nat → Bool) :
    e.traceEvent kind idx code p = e :=
  e.each_unchanged _ fun u hu => if_neg (by simp [hfree u (mem_four.mp hu)])

end Untraced

section StickyFlags

variable (e : Engine) {idx sub v : Nat}

theorem Engine.clearSticky_loop (hlow : 0x3100 ≤ idx) (hhigh : idx < 0x31C0) (hsub : sub = 0x11) :
    e.clearSticky idx sub v = (e.put idx sub (e.get idx sub &&& (255 ^^^ v))).done := if_pos ⟨hlow, hhigh, hsub⟩

theorem Engine.clearSticky_input (hidx : idx = 0x3408) (hlow : 1 ≤ sub) (hhigh : sub ≤ 64) :
    e.clearSticky idx sub v = (e.put idx sub (e.get idx sub &&& (255 ^^^ (v &&& 2)))).done :=
  (if_neg (by omega)).trans (if_pos ⟨hidx, hlow, hhigh⟩)

theorem Engine.clearSticky_missing (hlow : idx < 0x3100) : e.clearSticky idx sub v = e.refuse 0x06020000 :=
  (if_neg (by omega)).trans (if_neg (by omega))

end StickyFlags

section Trips

variable (e : Engine) {c j : Nat}

/-- Channel `c` with its latch cleared, before the restrictions follow. -/
def Engine.tripCleared (e : Engine) (c : Nat) : Engine :=
  Engine.put { e with ctl.tripped := cellErase c e.ctl.tripped } (0x3200 + c) 6 0

theorem Engine.clearTrip_exceeded (htripped : e.hvTripped c = true) (habove : e.getI 16 (0x3200 + c) 5 < e.pvOf (188 + c)) :
    e.clearTrip c = e.refuse abState := if_pos ⟨htripped, habove⟩

theorem Engine.clearTrip_clears (htripped : e.hvTripped c = true) (hbelow : e.pvOf (188 + c) ≤ e.getI 16 (0x3200 + c) 5) :
    e.clearTrip c = (e.tripCleared c).release.done := (if_neg fun h => absurd h.2 (not_lt.mpr hbelow)).trans (if_pos htripped)

theorem Engine.clearTrip_untripped (hfree : e.hvTripped c = false) : e.clearTrip c = e.done :=
  (if_neg (by simp [hfree])).trans (if_neg (by simp [hfree]))

theorem Engine.hvTripped_tripCleared : (e.tripCleared c).hvTripped j = if j = c then false else e.hvTripped j :=
  cellGet_cellErase _ _ _ _

theorem Engine.ent_tripCleared (k : Nat) : (e.tripCleared c).ent k = if k = ekey (0x3200 + c) 6 then 0 else e.ent k :=
  Engine.ent_put _ _ _ _ _

end Trips

section Conversions

variable (e : Engine) {i code : Nat}

/-- The running millisecond of input `i` with one conversion more. -/
def Engine.converted (e : Engine) (i code : Nat) : Engine :=
  { e with ctl.sums := cellSet (fun _ => 0) e.ctl.sums i (cellGet (fun _ => 0) e.ctl.sums i + code),
           ctl.counts := cellSet (fun _ => 0) e.ctl.counts i (cellGet (fun _ => 0) e.ctl.counts i + 1) }

theorem Engine.sums_converted (j : Nat) : cellGet (fun _ => 0) (e.converted i code).ctl.sums j =
    if j = i then cellGet (fun _ => 0) e.ctl.sums i + code else cellGet (fun _ => 0) e.ctl.sums j := cellGet_cellSet _ _ _ _ _

theorem Engine.counts_converted (j : Nat) : cellGet (fun _ => 0) (e.converted i code).ctl.counts j =
    if j = i then cellGet (fun _ => 0) e.ctl.counts i + 1 else cellGet (fun _ => 0) e.ctl.counts j := by
  simp only [Engine.converted, cellGet_cellSet]

/-- R253: the sequencers are gated in Dusk and deeper. -/
theorem Engine.conversion_gated (hidle : 1 ≤ e.idle) : e.conversion i code = e := if_pos hidle

theorem Engine.conversion_joins (hawake : e.idle = 0) (hfree : ∀ u, u < 4 → e.tracing u = false) :
    e.conversion i code = e.converted i code :=
  (if_neg (by omega)).trans ((e.converted i code).traceEvent_untraced hfree _ _ _ _)

end Conversions

/-- Settles O39: each command by its index, by the latch and by the idle state. -/
theorem flagsTripsConversions : Obligations.FlagsTripsConversions := by
  intro s idx sub v c i code hs
  have hsticky (hlow : 0x3000 ≤ idx.toNat) (hhigh : idx.toNat < 0x3500) :
      Becomes (.stickyFlagClear idx sub v) s (s.e.clearSticky idx.toNat sub.toNat v.toNat) :=
    becomes_of_request (f := fun e => e.clearSticky idx.toNat sub.toNat v.toNat) rfl (by rwa [owner_eq_one hlow hhigh])
  have hclear : Becomes (.hvClearTrip c) s (s.e.clearTrip c.val) :=
    becomes_of_request (idx := 0x3200) (f := fun e => e.clearTrip c.val) rfl hs
  have hconvert : Becomes (.analogConversion i code) s (s.e.conversion i.val code.toNat) :=
    becomes_of_whenLive (f := fun e => e.conversion i.val code.toNat) rfl hs.1
  refine ⟨?_, ?_, ?_, ?_, ?_, ?_, ?_, ?_⟩
  · intro hlow hhigh hsub
    have hloop := hsticky (by omega) (by omega)
    rw [s.e.clearSticky_loop hlow hhigh hsub, hsub] at hloop
    exact serves_of_put_done hloop
  · intro hidx hlow hhigh
    have hinput := hsticky (by omega) (by omega)
    rw [s.e.clearSticky_input hidx hlow hhigh, hidx] at hinput
    exact serves_of_put_done hinput
  · intro hlow hhigh
    have hmissing := hsticky hlow (by omega)
    rwa [s.e.clearSticky_missing hhigh] at hmissing
  · intro htripped habove
    rwa [s.e.clearTrip_exceeded htripped habove] at hclear
  · intro htripped hbelow
    rw [s.e.clearTrip_clears htripped hbelow] at hclear
    refine hclear.completes_exists (·.release.done) ⟨?_, ?_, fun k hk => ?_, fun j hj => ?_⟩
    · exact s.e.hvTripped_tripCleared.trans (if_pos rfl)
    · exact (s.e.ent_tripCleared _).trans (if_pos rfl)
    · exact (s.e.ent_tripCleared k).trans (if_neg hk)
    · exact s.e.hvTripped_tripCleared.trans (if_neg hj)
  · intro hfree
    rw [s.e.clearTrip_untripped hfree] at hclear
    exact serves_nothing hclear
  · intro hidle
    rwa [s.e.conversion_gated hidle] at hconvert
  · intro hawake hfree
    rw [s.e.conversion_joins hawake hfree] at hconvert
    exact hconvert.completes ⟨(s.e.sums_converted _).trans (if_pos rfl), (s.e.counts_converted _).trans (if_pos rfl),
      fun j hj => (s.e.sums_converted j).trans (if_neg hj), rfl⟩

end Sys2Proof.Machine

/-! Warming loops (R249, R250, R254): one evaluation without a restriction. -/

namespace Sys2Proof.Machine

/-! Words of 16 bits (R251, R397) -/

section Words

theorem signed_sixteen_fits (v : Nat) : -32768 ≤ signed 16 v ∧ signed 16 v ≤ 32767 := by
  unfold signed
  split_ifs <;> omega

theorem sat16_fits (i : Int) : -32768 ≤ sat16 i ∧ sat16 i ≤ 32767 := by
  unfold sat16
  split_ifs <;> omega

theorem sat16_of_fits {i : Int} (h : -32768 ≤ i ∧ i ≤ 32767) : sat16 i = i := by
  unfold sat16
  split_ifs <;> omega

/-- What fits 16 bits reads back as it was stored. -/
theorem signed_unsigned_sixteen {i : Int} (h : -32768 ≤ i ∧ i ≤ 32767) : signed 16 (unsigned 16 i) = i := by
  unfold signed unsigned
  split_ifs <;> omega

end Words

section LoopEntries

variable (e : Engine) {l i j : Nat}

@[simp] theorem Engine.get_setLoop (x : LoopState) : (e.setLoop l x).get i j = e.get i j := rfl

@[simp] theorem Engine.loop_put (v : Nat) : (e.put i j v).loop l = e.loop l := rfl

theorem Engine.loop_setLoop_same (x : LoopState) : (e.setLoop l x).loop l = x := (e.loop_setLoop l l x).trans (if_pos rfl)

theorem Engine.loop_setLoop_ne (x : LoopState) (h : j ≠ l) : (e.setLoop l x).loop j = e.loop j :=
  (e.loop_setLoop l j x).trans (if_neg h)

theorem Engine.get_stick_subindex {k n : Nat} (on : Bool) (h : j ≠ k) : (e.stick i k n on).get i j = e.get i j := by
  rw [Engine.stick]
  split_ifs
  · exact e.get_put_subindex _ h
  · rfl

theorem Engine.loop_stick {k n : Nat} (on : Bool) : (e.stick i k n on).loop l = e.loop l := by
  rw [Engine.stick]
  split_ifs <;> rfl

end LoopEntries

/-! What an evaluation of loop `l` may change -/

section LoopOnly

/-- Engine `b` is `a` but for the entries and the state of loop `l`. -/
structure Engine.LoopOnly (l : Nat) (a b : Engine) : Prop where
  eq : b = { a with d.dict := b.d.dict, ctl.loops := b.ctl.loops }
  ent : ∀ k, k / 256 ≠ 0x3100 + l → b.ent k = a.ent k
  loop : ∀ j, j ≠ l → b.loop j = a.loop j

variable {a b : Engine} {l : Nat}

theorem Engine.LoopOnly.refl (a : Engine) (l : Nat) : a.LoopOnly l a := ⟨rfl, fun _ _ => rfl, fun _ _ => rfl⟩

theorem Engine.LoopOnly.put (h : a.LoopOnly l b) {j : Nat} (hj : j < 256) (v : Nat) : a.LoopOnly l (b.put (0x3100 + l) j v) where
  eq := by rw [h.eq]; rfl
  ent k hk := (b.ent_put_otherIndex v hj hk).trans (h.ent k hk)
  loop := h.loop

theorem Engine.LoopOnly.setLoop (h : a.LoopOnly l b) (x : LoopState) : a.LoopOnly l (b.setLoop l x) where
  eq := by rw [h.eq]; rfl
  ent := h.ent
  loop j hj := (b.loop_setLoop_ne x hj).trans (h.loop j hj)

theorem Engine.LoopOnly.stick (h : a.LoopOnly l b) (n : Nat) (on : Bool) : a.LoopOnly l (b.stick (0x3100 + l) 0x11 n on) := by
  rw [Engine.stick]
  split_ifs
  · exact h.put (by decide) _
  · exact h

theorem Engine.LoopOnly.now (h : a.LoopOnly l b) : b.now = a.now := by rw [h.eq]

theorem Engine.LoopOnly.pan (h : a.LoopOnly l b) : b.pan = a.pan := by rw [h.eq]

/-- The trace units are those of another index (R265). -/
theorem Engine.LoopOnly.tracing (h : a.LoopOnly l b) (hl : l < 192) (u : Nat) : b.tracing u = a.tracing u := by
  have hstate : b.get (traceIdx u) 2 = a.get (traceIdx u) 2 :=
    h.ent _ (by rw [ekey_div_index (by decide), traceIdx]; omega)
  rw [Engine.tracing, hstate, Engine.tracing]

end LoopOnly

/-! The switching rule (R249, R250) -/

section Switching

variable (e : Engine) {l j : Nat} {err : Int}

theorem Engine.setLoopOut_changes {out : Bool} (h : e.flag (0x3100 + l) 0x0C ≠ out) : e.setLoopOut l out =
    ((e.put (0x3100 + l) 0x0C (ofBool out)).wrap (0x3100 + l) 0x13 1).setLoop l { e.loop l with changedAt := e.now } := if_neg h

theorem Engine.get_setLoopOut_output {out : Bool} (h : e.flag (0x3100 + l) 0x0C ≠ out) :
    (e.setLoopOut l out).get (0x3100 + l) 0x0C = ofBool out := by
  rw [e.setLoopOut_changes h, Engine.get_setLoop, Engine.wrap, Engine.get_put_subindex _ _ (by decide), Engine.get_put_same]

theorem Engine.get_setLoopOut_other (out : Bool) (hout : j ≠ 0x0C) (hcount : j ≠ 0x13) :
    (e.setLoopOut l out).get (0x3100 + l) j = e.get (0x3100 + l) j := by
  rw [Engine.setLoopOut]
  split_ifs
  · rfl
  · rw [Engine.get_setLoop, Engine.wrap, Engine.get_put_subindex _ _ hcount, Engine.get_put_subindex _ _ hout]

theorem Engine.changedAt_setLoopOut {out : Bool} (h : e.flag (0x3100 + l) 0x0C ≠ out) :
    ((e.setLoopOut l out).loop l).changedAt = e.now := by
  rw [e.setLoopOut_changes h, Engine.loop_setLoop_same]

theorem Engine.LoopOnly.setLoopOut {a b : Engine} (h : a.LoopOnly l b) (out : Bool) : a.LoopOnly l (b.setLoopOut l out) := by
  rw [Engine.setLoopOut]
  split_ifs
  · exact h
  · exact ((h.put (by decide) _).put (by decide) _).setLoop _

/-- The output of loop `l` after an evaluation with error `err`: a band is left and the minimum time has passed. -/
def Engine.outputSwitched (e : Engine) (l : Nat) (err : Int) : Engine :=
  let i := 0x3100 + l
  let age := e.now - (e.loop l).changedAt
  if !e.flag i 0x0C ∧ (e.get i 3 : Int) < err ∧ e.get i 6 * loopUnit l ≤ age then e.setLoopOut l true
  else if e.flag i 0x0C ∧ err < -(e.get i 4 : Int) ∧ e.get i 5 * loopUnit l ≤ age then e.setLoopOut l false
  else e

theorem Engine.get_outputSwitched_output : (e.outputSwitched l err).get (0x3100 + l) 0x0C =
    if e.flag (0x3100 + l) 0x0C = false ∧ (e.get (0x3100 + l) 3 : Int) < err ∧
      e.get (0x3100 + l) 6 * loopUnit l ≤ e.now - (e.loop l).changedAt then 1
    else if e.flag (0x3100 + l) 0x0C = true ∧ err < -(e.get (0x3100 + l) 4 : Int) ∧
      e.get (0x3100 + l) 5 * loopUnit l ≤ e.now - (e.loop l).changedAt then 0
    else e.get (0x3100 + l) 0x0C := by
  simp only [Engine.outputSwitched, Bool.not_eq_true']
  split_ifs with hon hoff
  · exact e.get_setLoopOut_output (by simp [hon.1])
  · exact e.get_setLoopOut_output (by simp [hoff.1])
  · rfl

theorem Engine.changedAt_outputSwitched
    (hchange : (e.outputSwitched l err).get (0x3100 + l) 0x0C ≠ e.get (0x3100 + l) 0x0C) :
    ((e.outputSwitched l err).loop l).changedAt = e.now := by
  simp only [Engine.outputSwitched, Bool.not_eq_true'] at hchange ⊢
  split_ifs at hchange ⊢ with hon hoff
  · exact e.changedAt_setLoopOut (by simp [hon.1])
  · exact e.changedAt_setLoopOut (by simp [hoff.1])
  · exact absurd rfl hchange

theorem Engine.get_outputSwitched_other (hout : j ≠ 0x0C) (hcount : j ≠ 0x13) :
    (e.outputSwitched l err).get (0x3100 + l) j = e.get (0x3100 + l) j := by
  simp only [Engine.outputSwitched, Bool.not_eq_true']
  split_ifs
  · exact e.get_setLoopOut_other _ hout hcount
  · exact e.get_setLoopOut_other _ hout hcount
  · rfl

theorem Engine.LoopOnly.outputSwitched {a b : Engine} (h : a.LoopOnly l b) : a.LoopOnly l (b.outputSwitched l err) := by
  simp only [Engine.outputSwitched, Bool.not_eq_true']
  split_ifs
  · exact h.setLoopOut _
  · exact h.setLoopOut _
  · exact h

end Switching

/-! An evaluation without a restriction (R249, R252) -/

section Evaluation

variable (e : Engine) {l j : Nat}

/-- The error of loop `l` at its set-point. -/
def Engine.loopError (e : Engine) (l : Nat) : Int := sat16 (e.getI 16 (0x3100 + l) 2 - e.pvOf l)

/-- What an evaluation of loop `l` at its set-point publishes: no restriction, PV, set-point and error. -/
def Engine.loopPublished (e : Engine) (l : Nat) : Engine :=
  let i := 0x3100 + l
  (((((e.put i 0x0E 0).putI 16 i 0x0D (e.pvOf l)).stick i 0x11 0 (e.getI 16 i 2 - e.pvOf l != e.loopError l)).putI 16 i 0x10
    (e.getI 16 i 2)).putI 16 i 0x0F (e.loopError l))

theorem Engine.loopPublished_loopOnly : e.LoopOnly l (e.loopPublished l) :=
  (((((Engine.LoopOnly.refl e l).put (by decide) _).put (by decide) _).stick _ _).put (by decide) _).put (by decide) _

theorem Engine.loop_loopPublished : (e.loopPublished l).loop l = e.loop l := by
  simp only [Engine.loopPublished, Engine.putI, Engine.loop_put, Engine.loop_stick]

theorem Engine.get_loopPublished_other (h : j ∉ [0x0D, 0x0E, 0x0F, 0x10, 0x11]) :
    (e.loopPublished l).get (0x3100 + l) j = e.get (0x3100 + l) j := by
  simp only [List.mem_cons, List.not_mem_nil, or_false, not_or] at h
  obtain ⟨hpv, hrestr, herr, hsp, hsticky⟩ := h
  rw [Engine.loopPublished, Engine.putI, Engine.get_put_subindex _ _ herr, Engine.putI, Engine.get_put_subindex _ _ hsp,
    Engine.get_stick_subindex _ _ hsticky, Engine.putI, Engine.get_put_subindex _ _ hpv, Engine.get_put_subindex _ _ hrestr]

theorem Engine.getI_loopPublished_error : (e.loopPublished l).getI 16 (0x3100 + l) 0x0F = e.loopError l :=
  (congrArg (signed 16) (Engine.get_put_same _ _ _ _)).trans (signed_unsigned_sixteen (sat16_fits _))

theorem Engine.getI_loopPublished_setPoint :
    (e.loopPublished l).getI 16 (0x3100 + l) 0x10 = e.getI 16 (0x3100 + l) 2 := by
  rw [Engine.getI, Engine.loopPublished, Engine.putI, Engine.get_put_subindex _ _ (by decide), Engine.putI, Engine.get_put_same]
  exact signed_unsigned_sixteen (signed_sixteen_fits _)

theorem Engine.get_loopPublished_pv : (e.loopPublished l).get (0x3100 + l) 0x0D = unsigned 16 (e.pvOf l) := by
  rw [Engine.loopPublished, Engine.putI, Engine.get_put_subindex _ _ (by decide), Engine.putI,
    Engine.get_put_subindex _ _ (by decide), Engine.get_stick_subindex _ _ (by decide), Engine.putI, Engine.get_put_same]

theorem Engine.get_loopPublished_restriction : (e.loopPublished l).get (0x3100 + l) 0x0E = 0 := by
  rw [Engine.loopPublished, Engine.putI, Engine.get_put_subindex _ _ (by decide), Engine.putI,
    Engine.get_put_subindex _ _ (by decide), Engine.get_stick_subindex _ _ (by decide), Engine.putI,
    Engine.get_put_subindex _ _ (by decide), Engine.get_put_same]

/-- R249 with restr = 0: the set-point lies within 16 bits and is not clamped. -/
theorem Engine.evalLoop_unrestricted (hrestr : e.restr l = 0) : e.evalLoop l =
    (((e.loopPublished l).outputSwitched l (e.loopError l)).driveLoop l).traceLoop l := by
  have hraw : ((e.put (0x3100 + l) 0x0E 0).putI 16 (0x3100 + l) 0x0D (e.pvOf l)).rawSp l 0 = e.getI 16 (0x3100 + l) 2 := by
    refine congrArg (signed 16) ?_
    rw [Engine.putI, Engine.get_put_subindex _ _ (by decide), Engine.get_put_subindex _ _ (by decide)]
  have hsp : sat16 (e.getI 16 (0x3100 + l) 2) = e.getI 16 (0x3100 + l) 2 := sat16_of_fits (signed_sixteen_fits _)
  simp only [Engine.evalLoop, hrestr, if_true, hraw, hsp, bne_self_eq_false]
  rfl

theorem Engine.driveLoop_warming (hl : l < 128) : e.driveLoop l = e := if_pos hl

/-- R252: a limit of 0 disables the supervision. -/
def Engine.unsupervised (e : Engine) (l : Nat) : Engine :=
  (e.setLoop l { e.loop l with lastEval := e.now, spWritten := false, feTime := 0, feRaised := false }).stick (0x3100 + l) 0x11 0
    (e.get (0x3100 + l) 0x0E == 0 && e.getI 16 (0x3100 + l) 0x0F == -32768)

theorem Engine.supervise_disabled (hlimit : e.get (0x3100 + l) 9 = 0) : e.supervise l = e.unsupervised l := if_pos (.inr (.inl hlimit))

theorem Engine.get_unsupervised (h : j ≠ 0x11) : (e.unsupervised l).get (0x3100 + l) j = e.get (0x3100 + l) j := by
  rw [Engine.unsupervised, Engine.get_stick_subindex _ _ h, Engine.get_setLoop]

theorem Engine.changedAt_unsupervised : ((e.unsupervised l).loop l).changedAt = (e.loop l).changedAt := by
  rw [Engine.unsupervised, Engine.loop_stick, Engine.loop_setLoop_same]

theorem Engine.LoopOnly.unsupervised {a b : Engine} (h : a.LoopOnly l b) : a.LoopOnly l (b.unsupervised l) :=
  (h.setLoop _).stick _ _

/-- A warming loop after an evaluation with no restriction and no supervision. -/
def Engine.warmed (e : Engine) (l : Nat) : Engine := ((e.loopPublished l).outputSwitched l (e.loopError l)).unsupervised l

theorem Engine.evalTimed_warming (hl : l < 128) (hrestr : e.restr l = 0) (hlimit : e.get (0x3100 + l) 9 = 0)
    (hfree : ∀ u, u < 4 → e.tracing u = false) : e.evalTimed l = e.warmed l := by
  have honly : e.LoopOnly l ((e.loopPublished l).outputSwitched l (e.loopError l)) := e.loopPublished_loopOnly.outputSwitched
  have hoff : ((e.loopPublished l).outputSwitched l (e.loopError l)).get (0x3100 + l) 9 = 0 := by
    rw [Engine.get_outputSwitched_other _ (by decide) (by decide), e.get_loopPublished_other (by decide), hlimit]
  rw [Engine.evalTimed, e.evalLoop_unrestricted hrestr, Engine.driveLoop_warming _ hl, Engine.traceLoop,
    Engine.traceEvent_untraced _ fun u hu => (honly.tracing (by omega) u).trans (hfree u hu), Engine.supervise_disabled _ hoff,
    Engine.warmed]

theorem Engine.warmed_loopOnly : e.LoopOnly l (e.warmed l) := e.loopPublished_loopOnly.outputSwitched.unsupervised

theorem Engine.get_warmed (hout : j ≠ 0x0C) (hcount : j ≠ 0x13) (hsticky : j ≠ 0x11) :
    (e.warmed l).get (0x3100 + l) j = (e.loopPublished l).get (0x3100 + l) j :=
  (Engine.get_unsupervised _ hsticky).trans (Engine.get_outputSwitched_other _ hout hcount)

theorem Engine.get_warmed_output : (e.warmed l).get (0x3100 + l) 0x0C =
    ((e.loopPublished l).outputSwitched l (e.loopError l)).get (0x3100 + l) 0x0C := Engine.get_unsupervised _ (by decide)

/-- The bands, the minimum times and the output as the evaluation finds them. -/
theorem Engine.get_warmed_output_eq (hl : l < 128) : (e.warmed l).get (0x3100 + l) 0x0C =
    if e.flag (0x3100 + l) 0x0C = false ∧ (e.get (0x3100 + l) 3 : Int) < e.loopError l ∧
      e.get (0x3100 + l) 6 * 50 ≤ e.now - (e.loop l).changedAt then 1
    else if e.flag (0x3100 + l) 0x0C = true ∧ e.loopError l < -(e.get (0x3100 + l) 4 : Int) ∧
      e.get (0x3100 + l) 5 * 50 ≤ e.now - (e.loop l).changedAt then 0
    else e.get (0x3100 + l) 0x0C := by
  have hunit : loopUnit l = 50 := if_pos hl
  have hkept {j : Nat} (h : j ∉ [0x0D, 0x0E, 0x0F, 0x10, 0x11]) := e.get_loopPublished_other (l := l) h
  rw [e.get_warmed_output, Engine.get_outputSwitched_output, hunit, e.loop_loopPublished, e.loopPublished_loopOnly.now,
    Engine.flag, hkept (by decide), hkept (by decide), hkept (by decide), hkept (by decide), hkept (by decide), Engine.flag]

theorem Engine.changedAt_warmed (hchange : (e.warmed l).get (0x3100 + l) 0x0C ≠ e.get (0x3100 + l) 0x0C) :
    ((e.warmed l).loop l).changedAt = e.now := by
  rw [e.get_warmed_output, ← e.get_loopPublished_other (by decide)] at hchange
  exact (Engine.changedAt_unsupervised _).trans
    ((Engine.changedAt_outputSwitched _ hchange).trans e.loopPublished_loopOnly.now)

end Evaluation

/-! The timer (R254, R255) -/

section Timer

variable (e : Engine) {l : Nat}

theorem Engine.lt_of_mem_enabledLoops {lo n : Nat} (h : l ∈ e.enabledLoops lo n) : lo ≤ l ∧ l < lo + n := by
  simp only [Engine.enabledLoops, List.mem_filter, List.mem_map, List.mem_range] at h
  omega

/-- R255: in a transit IDLE_WARM stays as it is. -/
theorem Engine.idleWarm_inTransit (h : Nat) (hflight : e.pan.flight.isSome = true) : e.idleWarm h = e := if_pos (.inl hflight)

theorem Engine.warmTimer_one (hflight : e.pan.flight.isSome = true) (hone : e.enabledLoops 0 128 = [l]) (hrestr : e.restr l = 0)
    (hlimit : e.get (0x3100 + l) 9 = 0) (hfree : ∀ u, u < 4 → e.tracing u = false) : e.warmTimer = e.warmed l := by
  have hl := e.lt_of_mem_enabledLoops (hone ▸ List.mem_singleton.mpr rfl)
  have hflight' : (e.warmed l).pan.flight.isSome = true := by rw [e.warmed_loopOnly.pan, hflight]
  have heval : e.each [l] Engine.evalTimed = e.warmed l := e.evalTimed_warming (by omega) hrestr hlimit hfree
  rw [Engine.warmTimer, hone, heval]
  exact Engine.each_unchanged _ _ fun h _ => Engine.idleWarm_inTransit _ h hflight'

end Timer

theorem warmingLoops : Says.WarmingLoops := by
  rintro s l _ _ _ _ out _ hlive hflight hone hrestr rfl hlimit hfree rfl rfl rfl rfl hout
  have htimer : Becomes .warmingTimer s s.e.warmTimer := becomes_of_whenLive rfl hlive
  have hl := s.e.lt_of_mem_enabledLoops (hone ▸ List.mem_singleton.mpr rfl)
  have houtput : (s.e.warmed l).get (0x3100 + l) 0x0C = out := (s.e.get_warmed_output_eq (by omega)).trans hout.symm
  have hget {j : Nat} (hj : j ∈ [0x0D, 0x0E, 0x0F, 0x10]) :
      (s.e.warmed l).get (0x3100 + l) j = (s.e.loopPublished l).get (0x3100 + l) j := by
    simp only [List.mem_cons, List.not_mem_nil, or_false] at hj
    exact s.e.get_warmed (by omega) (by omega) (by omega)
  rw [s.e.warmTimer_one hflight hone hrestr hlimit hfree] at htimer
  refine htimer.completes ?_
  dsimp only
  refine ⟨(hget (by decide)).trans s.e.get_loopPublished_restriction,
    (hget (by decide)).trans s.e.get_loopPublished_pv, ?_, ?_, houtput, fun hchange => ?_, s.e.warmed_loopOnly.loop,
    s.e.warmed_loopOnly.ent, congrArg (State.mk s.pending s.nv) s.e.warmed_loopOnly.eq⟩
  · rw [Engine.getI, hget (by decide)]
    exact s.e.getI_loopPublished_setPoint
  · rw [Engine.getI, hget (by decide)]
    exact s.e.getI_loopPublished_error
  · rw [← houtput] at hchange
    exact s.e.changedAt_warmed hchange

end Sys2Proof.Machine

/-! Zone evaluations (R249, R256, R259, R260): the means, values and states of the analog inputs, then the zone loops. -/

namespace Sys2Proof.Machine

section InputEntry

theorem bit_setBit_same (v i : Nat) (on : Bool) : bit (setBit v i on) i = on := by
  cases on
  · by_cases hset : bit v i = true
    · have hclear : setBit v i false = v - 2 ^ i * 1 := by simp [setBit, hset]
      rw [hclear, bit, Nat.shiftRight_eq_div_pow, Nat.sub_mul_div]
      simp only [bit, Nat.shiftRight_eq_div_pow, beq_iff_eq, beq_eq_false_iff_ne] at hset ⊢
      omega
    · simp [setBit, hset]
  · exact bit_setBit_true v i

variable (e : Engine) {i j k : Nat}

theorem Engine.ent_stick_ne {idx sub n : Nat} (on : Bool) (h : k ≠ ekey idx sub) : (e.stick idx sub n on).ent k = e.ent k := by
  rw [Engine.stick]
  split_ifs
  · exact (e.ent_put _ _ _ k).trans (if_neg h)
  · rfl

theorem Engine.EntriesOnly.stick {a b : Engine} (h : a.EntriesOnly b) (idx sub n : Nat) (on : Bool) :
    a.EntriesOnly (b.stick idx sub n on) := by
  rw [Engine.stick]
  split_ifs
  · exact h.put _ _ _
  · exact h

/-- Setting one sticky bit leaves every other bit of the entry. -/
theorem Engine.bit_stick_other {idx sub n m : Nat} (on : Bool) (h : m ≠ n) :
    bit ((e.stick idx sub n on).get idx sub) m = bit (e.get idx sub) m := by
  rw [Engine.stick]
  split_ifs
  · rw [Engine.get_put_same, bit_setBit_other h]
  · rfl

end InputEntry

/-! One input (R259, R260) -/

section Input

variable (e : Engine) {i j k : Nat}

/-- The mean code of input `i` at the end of a millisecond: of the conversions there were, half up (log entry 29). -/
def Engine.meanCode (e : Engine) (i : Nat) : Nat :=
  if cellGet (fun _ => 0) e.ctl.counts i = 0 then e.get 0x3407 (i + 1)
  else (cellGet (fun _ => 0) e.ctl.sums i + cellGet (fun _ => 0) e.ctl.counts i / 2) / cellGet (fun _ => 0) e.ctl.counts i

/-- Whether mean code `m` of input `i` lies outside its valid range. -/
def Engine.outOfRange (e : Engine) (i m : Nat) : Bool :=
  decide (m < e.get 0x3404 (i + 1)) || decide (e.get 0x3405 (i + 1) < m)

/-- Input `i` with its mean code. -/
def Engine.meanTaken (e : Engine) (i : Nat) : Engine :=
  if cellGet (fun _ => 0) e.ctl.counts i = 0 then e
  else e.put 0x3407 (i + 1)
    ((cellGet (fun _ => 0) e.ctl.sums i + cellGet (fun _ => 0) e.ctl.counts i / 2) / cellGet (fun _ => 0) e.ctl.counts i)

/-- Input `i` with its mean code and whether that is out of range. -/
def Engine.rangeTaken (e : Engine) (i : Nat) : Engine :=
  (e.meanTaken i).put 0x3408 (i + 1) (setBit ((e.meanTaken i).get 0x3408 (i + 1)) 0
    ((e.meanTaken i).outOfRange i ((e.meanTaken i).get 0x3407 (i + 1))))

/-- The value of input `i` clamped to 16 bits, with the clamp noted. -/
def Engine.valueTaken (e : Engine) (i m : Nat) : Engine :=
  (e.stick 0x3408 (i + 1) 1 (e.get 0x3401 (i + 1) == 1 && e.scaled i m != sat16 (e.scaled i m))).putI 16 0x3406 (i + 1)
    (sat16 (e.scaled i m))

theorem Engine.inputValue_eq : e.inputValue i =
    if (e.rangeTaken i).get 0x3401 (i + 1) = 0 then e.rangeTaken i
    else (e.rangeTaken i).valueTaken i ((e.meanTaken i).get 0x3407 (i + 1)) := rfl

theorem Engine.meanTaken_entriesOnly : e.EntriesOnly (e.meanTaken i) := by
  rw [Engine.meanTaken]
  split_ifs
  · exact .refl e
  · exact (Engine.EntriesOnly.refl e).put _ _ _

theorem Engine.inputValue_entriesOnly (i : Nat) : e.EntriesOnly (e.inputValue i) := by
  have hrange : e.EntriesOnly (e.rangeTaken i) := e.meanTaken_entriesOnly.put _ _ _
  rw [Engine.inputValue_eq]
  split_ifs
  · exact hrange
  · exact (hrange.stick _ _ _ _).put _ _ _

theorem Engine.get_meanTaken_mean : (e.meanTaken i).get 0x3407 (i + 1) = e.meanCode i := by
  rw [Engine.meanTaken, Engine.meanCode]
  split_ifs
  · rfl
  · exact e.get_put_same _ _ _

theorem Engine.ent_meanTaken (hmean : k ≠ ekey 0x3407 (i + 1)) : (e.meanTaken i).ent k = e.ent k := by
  rw [Engine.meanTaken]
  split_ifs
  · rfl
  · exact (e.ent_put _ _ _ k).trans (if_neg hmean)

theorem Engine.ent_rangeTaken (hmean : k ≠ ekey 0x3407 (i + 1)) (hstatus : k ≠ ekey 0x3408 (i + 1)) :
    (e.rangeTaken i).ent k = e.ent k :=
  (Engine.ent_put _ _ _ _ k).trans ((if_neg hstatus).trans (e.ent_meanTaken hmean))

theorem Engine.ent_valueTaken (m : Nat) (hvalue : k ≠ ekey 0x3406 (i + 1)) (hstatus : k ≠ ekey 0x3408 (i + 1)) :
    (e.valueTaken i m).ent k = e.ent k :=
  (Engine.ent_put _ _ _ _ k).trans ((if_neg hvalue).trans (e.ent_stick_ne _ hstatus))

/-- An input writes its own value, mean code and status. -/
theorem Engine.ent_inputValue (hvalue : k ≠ ekey 0x3406 (i + 1)) (hmean : k ≠ ekey 0x3407 (i + 1))
    (hstatus : k ≠ ekey 0x3408 (i + 1)) : (e.inputValue i).ent k = e.ent k := by
  rw [Engine.inputValue_eq]
  split_ifs
  · exact e.ent_rangeTaken hmean hstatus
  · exact (Engine.ent_valueTaken _ _ hvalue hstatus).trans (e.ent_rangeTaken hmean hstatus)

/-- Entries of different indices have different keys. -/
theorem ekey_ne_of_index {a b l m : Nat} (hl : l < 256) (hm : m < 256) (h : a ≠ b) : ekey a l ≠ ekey b m :=
  fun hkey => h ((ekey_inj hl hm).mp hkey).1

theorem Engine.get_inputValue_mean (hi : i < 64) : (e.inputValue i).get 0x3407 (i + 1) = e.meanCode i := by
  have hrange : (e.rangeTaken i).get 0x3407 (i + 1) = e.meanCode i :=
    (Engine.get_put_ne _ (ekey_ne_of_index (by omega) (by omega) (by decide))).trans e.get_meanTaken_mean
  rw [Engine.inputValue_eq]
  split_ifs
  · exact hrange
  · exact (Engine.ent_valueTaken _ _ (ekey_ne_of_index (by omega) (by omega) (by decide))
      (ekey_ne_of_index (by omega) (by omega) (by decide))).trans hrange

theorem Engine.bit_inputValue_status (hi : i < 64) :
    bit ((e.inputValue i).get 0x3408 (i + 1)) 0 = e.outOfRange i (e.meanCode i) := by
  have hlimit {idx : Nat} (hne : idx ≠ 0x3407) : (e.meanTaken i).get idx (i + 1) = e.get idx (i + 1) :=
    e.ent_meanTaken (ekey_ne_of_index (by omega) (by omega) hne)
  have hrange : bit ((e.rangeTaken i).get 0x3408 (i + 1)) 0 = e.outOfRange i (e.meanCode i) := by
    rw [Engine.rangeTaken, Engine.get_put_same, bit_setBit_same, e.get_meanTaken_mean, Engine.outOfRange,
      hlimit (by decide), hlimit (by decide), Engine.outOfRange]
  rw [Engine.inputValue_eq]
  split_ifs
  · exact hrange
  · rw [Engine.valueTaken, Engine.putI, Engine.get_put_ne _ (ekey_ne_of_index (by omega) (by omega) (by decide)),
      Engine.bit_stick_other _ _ (by decide), hrange]

/-- Inputs do not write each other's entries. -/
theorem Engine.get_inputValue_other {idx : Nat} (hi : i < 64) (hj : j < 64) (hne : j ≠ i) :
    (e.inputValue i).get idx (j + 1) = e.get idx (j + 1) := by
  have hkey (idx' : Nat) : ekey idx (j + 1) ≠ ekey idx' (i + 1) := fun hkey =>
    hne (Nat.succ_injective ((ekey_inj (by omega) (by omega)).mp hkey).2)
  exact e.ent_inputValue (hkey _) (hkey _) (hkey _)

end Input

/-! The inputs in order -/

section Inputs

variable (e : Engine) {n i k : Nat}

/-- The engine after the first `n` inputs. -/
def Engine.inputsTaken (e : Engine) (n : Nat) : Engine := e.each (List.range n) Engine.inputValue

theorem Engine.inputsTaken_succ (n : Nat) : e.inputsTaken (n + 1) = (e.inputsTaken n).inputValue n := by
  simp [Engine.inputsTaken, Engine.each, List.range_succ]

theorem Engine.inputsTaken_entriesOnly (n : Nat) : e.EntriesOnly (e.inputsTaken n) := by
  induction n with
  | zero => exact .refl e
  | succ n ih =>
    rw [e.inputsTaken_succ]
    exact ih.trans (Engine.inputValue_entriesOnly _ n)

theorem Engine.ent_inputsTaken (hn : n ≤ 64) (hvalue : k / 256 ≠ 0x3406) (hmean : k / 256 ≠ 0x3407)
    (hstatus : k / 256 ≠ 0x3408) : (e.inputsTaken n).ent k = e.ent k := by
  induction n with
  | zero => rfl
  | succ n ih =>
    rw [e.inputsTaken_succ, ← ih (by omega)]
    exact Engine.ent_inputValue _ (ne_ekey_of_otherIndex (by omega) hvalue) (ne_ekey_of_otherIndex (by omega) hmean)
      (ne_ekey_of_otherIndex (by omega) hstatus)

/-- An input whose turn has not come is as it was. -/
theorem Engine.get_inputsTaken_later {idx : Nat} (hni : n ≤ i) (hi : i < 64) :
    (e.inputsTaken n).get idx (i + 1) = e.get idx (i + 1) := by
  induction n with
  | zero => rfl
  | succ n ih =>
    rw [e.inputsTaken_succ, Engine.get_inputValue_other _ (by omega) hi (by omega), ih (by omega)]

/-- After its turn an input has the mean of its conversions and the status of that mean. -/
theorem Engine.inputsTaken_earlier (hn : n ≤ 64) (hin : i < n) : (e.inputsTaken n).get 0x3407 (i + 1) = e.meanCode i ∧
    bit ((e.inputsTaken n).get 0x3408 (i + 1)) 0 = e.outOfRange i (e.meanCode i) := by
  induction n with
  | zero => exact absurd hin (Nat.not_lt_zero i)
  | succ n ih =>
    rw [e.inputsTaken_succ]
    obtain hlt | rfl := Nat.lt_succ_iff_lt_or_eq.mp hin
    · rw [Engine.get_inputValue_other _ (by omega) (by omega) (by omega),
        Engine.get_inputValue_other _ (by omega) (by omega) (by omega)]
      exact ih (by omega) hlt
    · have hctl : (e.inputsTaken i).ctl = e.ctl := by rw [(e.inputsTaken_entriesOnly i).eq]
      have hmean : (e.inputsTaken i).meanCode i = e.meanCode i := by
        rw [Engine.meanCode, hctl, e.get_inputsTaken_later le_rfl (by omega), Engine.meanCode]
      have hrange (m : Nat) : (e.inputsTaken i).outOfRange i m = e.outOfRange i m := by
        rw [Engine.outOfRange, e.get_inputsTaken_later le_rfl (by omega), e.get_inputsTaken_later le_rfl (by omega), Engine.outOfRange]
      rw [Engine.get_inputValue_mean _ (by omega), Engine.bit_inputValue_status _ (by omega), hmean, hrange]
      exact ⟨rfl, rfl⟩

/-- The next millisecond of conversions begins. -/
def Engine.millisecondBegun (e : Engine) : Engine := { e with ctl.sums := [], ctl.counts := [] }

@[simp] theorem Engine.ent_millisecondBegun : e.millisecondBegun.ent k = e.ent k := rfl

@[simp] theorem Engine.get_millisecondBegun (idx sub : Nat) : e.millisecondBegun.get idx sub = e.get idx sub := rfl

theorem Engine.ctl_millisecondBegun : e.millisecondBegun.ctl.sums = [] ∧ e.millisecondBegun.ctl.counts = [] := ⟨rfl, rfl⟩

/-- The inputs of a millisecond taken, and the next millisecond begun. -/
def Engine.inputsClosed (e : Engine) : Engine := (e.inputsTaken 64).millisecondBegun

theorem Engine.ctl_inputsClosed : e.inputsClosed.ctl.sums = [] ∧ e.inputsClosed.ctl.counts = [] :=
  (e.inputsTaken 64).ctl_millisecondBegun

theorem Engine.get_inputsClosed (idx sub : Nat) : e.inputsClosed.get idx sub = (e.inputsTaken 64).get idx sub := by
  rw [Engine.inputsClosed, Engine.get_millisecondBegun]

theorem Engine.ent_inputsClosed (hvalue : k / 256 ≠ 0x3406) (hmean : k / 256 ≠ 0x3407) (hstatus : k / 256 ≠ 0x3408) :
    e.inputsClosed.ent k = e.ent k := by
  rw [Engine.inputsClosed, Engine.ent_millisecondBegun, e.ent_inputsTaken le_rfl hvalue hmean hstatus]

end Inputs

/-! The evaluation (R249, R256) -/

section ZoneEvaluation

variable (e : Engine)

/-- A channel that is off does not trip (R258). -/
theorem Engine.hvTrip_off {c : Nat} (hoff : e.hvOn c = false) : e.hvTrip c = e := if_neg (by simp [hoff])

/-- Engines with the same enable entries evaluate the same loops. -/
theorem Engine.enabledLoops_congr {a b : Engine} {lo n : Nat}
    (h : ∀ l, lo ≤ l → l < lo + n → b.get (0x3100 + l) 1 = a.get (0x3100 + l) 1) : b.enabledLoops lo n = a.enabledLoops lo n := by
  refine List.filter_congr fun l hl => ?_
  simp only [List.mem_map, List.mem_range] at hl
  rw [Engine.flag, h l (by omega) (by omega), Engine.flag]

theorem Engine.zoneEval_eq : e.zoneEval =
    let x := (e.inputsClosed.each (List.range 64) fun e i => e.traceEvent 3 i 0 fun n => n == 1).each [0, 1, 2, 3] Engine.hvTrip
    x.each (x.enabledLoops 128 64) fun e l => (e.zoneInput l).evalTimed l := by
  simp only [Engine.zoneEval, Engine.inputsClosed, Engine.inputsTaken, Engine.millisecondBegun]

/-- With no HV channel on and no unit that records, the inputs are followed by the zone loops alone. -/
theorem Engine.zoneEval_quiet (hoff : ∀ c, c < 4 → e.hvOn c = false) (hfree : ∀ u, u < 4 → e.tracing u = false) :
    e.zoneEval = e.inputsClosed.each (e.enabledLoops 128 64) fun e l => (e.zoneInput l).evalTimed l := by
  have hkept {idx sub : Nat} (hsub : sub < 256) (hidx : idx < 0x3406) : e.inputsClosed.get idx sub = e.get idx sub := by
    refine e.ent_inputsClosed ?_ ?_ ?_ <;> rw [ekey_div_index hsub] <;> omega
  have hfree' (u : Nat) (hu : u < 4) : e.inputsClosed.tracing u = false := by
    rw [Engine.tracing, traceIdx, hkept (by decide) (by omega)]
    exact hfree u hu
  have hoff' (c : Nat) (hc : c < 4) : e.inputsClosed.hvOn c = false := by
    rw [Engine.hvOn, hkept (by decide) (by omega)]
    exact hoff c hc
  have htraced : e.inputsClosed.each (List.range 64) (fun e i => e.traceEvent 3 i 0 fun n => n == 1) = e.inputsClosed :=
    Engine.each_unchanged _ _ fun i _ => Engine.traceEvent_untraced _ hfree' _ _ _ _
  have htrips : e.inputsClosed.each [0, 1, 2, 3] Engine.hvTrip = e.inputsClosed :=
    Engine.each_unchanged _ _ fun c hc => Engine.hvTrip_off _ (hoff' c (mem_four.mp hc))
  have hloops : e.inputsClosed.enabledLoops 128 64 = e.enabledLoops 128 64 :=
    Engine.enabledLoops_congr fun l _ hl => hkept (by decide) (by omega)
  simp only [e.zoneEval_eq, htraced, htrips, hloops]

end ZoneEvaluation

theorem zoneLoops : Says.ZoneLoops := by
  intro s hlive hoff hfree
  have hzone : Becomes .zoneEvaluation s s.e.zoneEval := becomes_of_whenLive rfl hlive
  rw [s.e.zoneEval_quiet hoff hfree] at hzone
  obtain ⟨hsums, hcounts⟩ := s.e.ctl_inputsClosed
  refine hzone.completes_exists (fun e => e.each (s.e.enabledLoops 128 64) fun e l => (e.zoneInput l).evalTimed l)
    ⟨hsums, hcounts, fun i hi => ?_, fun i hi => ?_, fun k hvalue hmean hstatus => s.e.ent_inputsClosed hvalue hmean hstatus⟩
  · obtain ⟨hmean, _⟩ := s.e.inputsTaken_earlier le_rfl hi
    rw [Engine.get_inputsClosed, hmean, Engine.meanCode]
  · obtain ⟨hmean, hstatus⟩ := s.e.inputsTaken_earlier le_rfl hi
    rw [Engine.get_inputsClosed, Engine.get_inputsClosed, hmean, hstatus, Engine.outOfRange]

/-- Settles O38: one warming loop by its bands and minimum times, and a zone evaluation input by input. -/
theorem heatingLoops : Obligations.HeatingLoops := ⟨warmingLoops, zoneLoops⟩

end Sys2Proof.Machine

/-! What every command keeps (R362, R374, log entries 1 and 3): each answers a next state and leaves the queue, blows fuse bits
only, and keeps the canonical form of what outlives power. The commands that reach beyond the engine are taken one by one, each by
a lemma about the operation it shares; all others act on the engine alone. -/

namespace Sys2Proof.Machine

/-! What outlives power -/

section NonVolatile

/-- Every blown bit stays blown, and a canonical form stays canonical. -/
def NonVol.Keeps (a b : NonVol) : Prop := a.fusesGrow b ∧ (a.wf = true → b.wf = true)

variable {a b c : NonVol}

theorem NonVol.Keeps.refl (a : NonVol) : a.Keeps a := ⟨fun _ _ => id, id⟩

theorem NonVol.Keeps.trans (h : a.Keeps b) (h' : b.Keeps c) : a.Keeps c :=
  ⟨fun w i hbit => h'.1 w i (h.1 w i hbit), fun hwf => h'.2 (h.2 hwf)⟩

theorem NonVol.wf_iff (n : NonVol) : n.wf = true ↔
    cellsWf (fun _ => 0) n.fuses = true ∧ cellsWf (fun _ => 0) n.slot = true ∧ cellsWf (fun _ => false) n.trial = true ∧
      cellsWf (fun _ => 0) n.fallbacks = true ∧ cellsWf (fun _ => []) n.images = true ∧
      cellsWf (fun _ => []) n.records = true ∧ cellsWf (fun _ => []) n.copies = true := by
  simp only [NonVol.wf, Bool.and_eq_true, and_assoc]

/-- A change that leaves the fuses alone has only its canonical form to keep. -/
theorem NonVol.Keeps.of_fuses (hfuses : b.fuses = a.fuses) (hwf : a.wf = true → b.wf = true) : a.Keeps b :=
  ⟨fun _ _ hbit => by rwa [hfuses], hwf⟩

theorem NonVol.keeps_counters (n : NonVol) (losses rails dawns : Nat) :
    n.Keeps { n with refLosses := losses, railResets := rails, dawns := dawns } := .of_fuses rfl id

theorem NonVol.keeps_image (n : NonVol) (k : Nat) (img : List Byte) :
    n.Keeps { n with images := cellSet (fun _ => []) n.images k img } := .of_fuses rfl fun hwf => by
  rw [NonVol.wf_iff] at hwf ⊢
  obtain ⟨hfuses, hslot, htrial, hfallbacks, himages, hrest⟩ := hwf
  exact ⟨hfuses, hslot, htrial, hfallbacks, cellSet_wf _ _ _ _ himages, hrest⟩

theorem NonVol.keeps_record (n : NonVol) (k : Nat) (bs : List Byte) :
    n.Keeps { n with records := cellSet (fun _ => []) n.records k bs } := .of_fuses rfl fun hwf => by
  rw [NonVol.wf_iff] at hwf ⊢
  obtain ⟨hfuses, hslot, htrial, hfallbacks, himages, hrecords, hcopies⟩ := hwf
  exact ⟨hfuses, hslot, htrial, hfallbacks, himages, cellSet_wf _ _ _ _ hrecords, hcopies⟩

theorem NonVol.keeps_copies (n : NonVol) {m : List (Nat × List Byte)}
    (hm : cellsWf (fun _ => []) n.copies = true → cellsWf (fun _ => []) m = true) : n.Keeps { n with copies := m } :=
  .of_fuses rfl fun hwf => by
    rw [NonVol.wf_iff] at hwf ⊢
    obtain ⟨hfuses, hslot, htrial, hfallbacks, himages, hrecords, hcopies⟩ := hwf
    exact ⟨hfuses, hslot, htrial, hfallbacks, himages, hrecords, hm hcopies⟩

theorem NonVol.keeps_saveSelectors (n : NonVol) (e : Engine) : n.Keeps (n.saveSelectors e) := .of_fuses rfl fun hwf => by
  rw [NonVol.wf_iff] at hwf ⊢
  obtain ⟨hfuses, hslot, htrial, hfallbacks, hrest⟩ := hwf
  exact ⟨hfuses, cellSetAll_wf _ _ _ hslot, cellSetAll_wf _ _ _ htrial, cellSetAll_wf _ _ _ hfallbacks, hrest⟩

/-- A fuse word may be rewritten where every bit it holds is kept. -/
theorem NonVol.keeps_fuse (n : NonVol) (w v : Nat) (h : ∀ i, (n.fuse w).testBit i = true → v.testBit i = true) :
    n.Keeps { n with fuses := cellSet (fun _ => 0) n.fuses w v } := by
  refine ⟨fun j i hbit => ?_, fun hwf => ?_⟩
  · obtain rfl | hne := eq_or_ne j w
    · rw [cellGet_cellSet_same]
      exact h i hbit
    · rwa [cellGet_cellSet_ne _ _ _ _ _ hne]
  · rw [NonVol.wf_iff] at hwf ⊢
    obtain ⟨hfuses, hrest⟩ := hwf
    exact ⟨cellSet_wf _ _ _ _ hfuses, hrest⟩

end NonVolatile

/-! The fuse sequencer (R365 to R367) -/

section Sequencer

theorem testBit_setBit_true {v i j : Nat} (h : v.testBit j = true) : (setBit v i true).testBit j = true := by
  rw [← bit_eq_testBit] at h ⊢
  obtain rfl | hne := eq_or_ne j i
  · exact bit_setBit_true v j
  · rwa [bit_setBit_other hne]

theorem testBit_foldl_setBit {is : List Nat} {v j : Nat} (h : v.testBit j = true) :
    (is.foldl (fun v i => setBit v i true) v).testBit j = true := by
  induction is generalizing v with
  | nil => exact h
  | cons i is ih => exact ih (testBit_setBit_true h)

variable (n : NonVol) (w : Nat) (fails : List Nat)

/-- Blowing bits of a word keeps those that are blown, whether a bit fails or not. -/
theorem NonVol.keeps_blow (new : Nat) (order : List Nat) :
    n.Keeps { n with fuses := cellSet (fun _ => 0) n.fuses w (blow (n.fuse w) new order fails).1 } :=
  n.keeps_fuse w _ fun _ hbit => testBit_foldl_setBit hbit

theorem keeps_programWord (data : Nat) : n.Keeps (programWord n w data fails).1 := by
  simp only [programWord]
  split
  · exact .refl n
  · split
    · exact .refl n
    · exact n.keeps_blow w fails _ _

theorem keeps_sealWord : n.Keeps (sealWord n w fails).1 := by
  simp only [sealWord]
  split
  · exact .refl n
  · split
    · exact .refl n
    · exact n.keeps_blow w fails _ _

theorem keeps_writeSealed (data : Nat) : n.Keeps (writeSealed n w data fails).1 := by
  simp only [writeSealed]
  split_ifs
  · exact (keeps_programWord n w fails data).trans (keeps_sealWord _ w fails)
  · exact keeps_programWord n w fails data

theorem keeps_lockRegion (r : Nat) : n.Keeps (lockRegion n r fails).1 := by
  simp only [lockRegion]
  split_ifs
  · exact keeps_writeSealed n _ fails _
  · exact .refl n

end Sequencer

/-! States -/

section States

/-- What every command leaves of the queue and of what outlives power. -/
def State.LeadsTo (s t : State) : Prop := t.pending = s.pending ∧ s.nv.Keeps t.nv

variable {s t u : State}

theorem State.LeadsTo.refl (s : State) : s.LeadsTo s := ⟨rfl, .refl _⟩

theorem State.LeadsTo.trans (h : s.LeadsTo t) (h' : t.LeadsTo u) : s.LeadsTo u := ⟨h'.1.trans h.1, h.2.trans h'.2⟩

/-- An effect on the engine alone. -/
theorem State.leadsTo_engine (s : State) (e : Engine) : s.LeadsTo { s with e := e } := ⟨rfl, .refl _⟩

/-- An effect on the engine and on what outlives power. -/
theorem State.leadsTo_nv {n : NonVol} (h : s.nv.Keeps n) (e : Engine) : s.LeadsTo { s with nv := n, e := e } := ⟨rfl, h⟩

theorem State.LeadsTo.engine (h : s.LeadsTo t) (e : Engine) : s.LeadsTo { t with e := e } := h.trans (t.leadsTo_engine e)

theorem State.LeadsTo.ite {p : Prop} [Decidable p] (h : s.LeadsTo t) (h' : s.LeadsTo u) :
    s.LeadsTo (if p then t else u) := by
  split_ifs
  · exact h
  · exact h'

theorem leadsTo_restart (s : State) (c : ResetCause) : s.LeadsTo (restart s c) := State.leadsTo_nv (s.nv.keeps_counters _ _ _) _

theorem State.leadsTo_withSelectors (s : State) (e : Engine) : s.LeadsTo (s.withSelectors e) := by
  refine ⟨rfl, ?_⟩
  simp only [State.withSelectors]
  split_ifs
  · exact s.nv.keeps_saveSelectors e
  · exact .refl _

theorem leadsTo_holdReset {n : NonVol} (h : s.nv.Keeps n) (e : Engine) (vinLow refHold : Bool) :
    s.LeadsTo (holdReset { s with nv := n, e := e } vinLow refHold) := State.leadsTo_nv h _

theorem leadsTo_refWindow (n : Nat) (s : State) : s.LeadsTo (refWindow n s) := by
  have hkept : s.nv.Keeps { s.nv with refLosses := satAdd 16 s.nv.refLosses 1 } := s.nv.keeps_counters _ _ _
  simp only [refWindow]
  split
  · split_ifs
    · exact s.leadsTo_engine _
    · exact leadsTo_restart s _
    · exact .refl s
  · exact .refl s
  · exact .refl s
  · split_ifs
    · exact s.leadsTo_engine _
    · exact s.leadsTo_engine _
    · exact leadsTo_holdReset hkept _ _ _

theorem leadsTo_powerReset (recovered : Bool) (s : State) : s.LeadsTo (powerReset recovered s) := by
  simp only [powerReset]
  split_ifs
  · exact s.leadsTo_engine _
  · exact leadsTo_restart s _
  · exact .refl s
  · exact leadsTo_holdReset (s.nv.keeps_counters _ _ _) _ _ _

theorem leadsTo_railReset (r mv : Nat) (s : State) : s.LeadsTo (railReset r mv s) := by
  have hcounted := State.leadsTo_nv (s.nv.keeps_counters s.nv.refLosses (satAdd 16 s.nv.railResets 1) s.nv.dawns) s.e
  simp only [railReset]
  split_ifs
  · exact .refl s
  · exact s.leadsTo_engine _
  · exact hcounted.trans (leadsTo_restart _ _)

theorem leadsTo_fuseAnswer {x : NonVol × Nat} (h : s.nv.Keeps x.1) : s.LeadsTo (fuseAnswer s x) := State.leadsTo_nv h _

theorem leadsTo_fuseCommand {f : NonVol → NonVol × Nat} (hf : ∀ n : NonVol, n.Keeps (f n).1) (r : Nat) (supply : Bool)
    (s : State) : s.LeadsTo (fuseCommand r supply f s) := by
  simp only [fuseCommand]
  split_ifs
  · exact .refl s
  · exact s.leadsTo_engine _
  · exact leadsTo_fuseAnswer (hf s.nv)
  · exact leadsTo_fuseAnswer (.refl s.nv)

theorem leadsTo_transition (target : Nat) (supply : Bool) (s : State) : s.LeadsTo (transition target supply s) := by
  have hstays (e : Engine) : s.LeadsTo { s with e := e } := s.leadsTo_engine e
  have hsealed := keeps_writeSealed s.nv (target - 1) [] (cyclePattern target)
  simp only [transition]
  refine .ite (.refl s) (.ite (hstays _) (.ite (hstays _) (.ite (hstays _) (.ite ?_ ?_))))
  · exact (State.leadsTo_nv hsealed _).trans (leadsTo_restart _ _)
  · exact State.leadsTo_nv hsealed _

theorem leadsTo_revoke (supply : Bool) (s : State) : s.LeadsTo (revoke supply s) := by
  simp only [revoke]
  refine .ite (.refl s) (.ite (s.leadsTo_engine _) (.ite (s.leadsTo_engine _) ?_))
  exact State.leadsTo_nv (keeps_writeSealed s.nv _ [] _) _

theorem leadsTo_debugPort (a : DebugAccess) (s : State) : s.LeadsTo (debugPort a s) := by
  have hsealed := keeps_writeSealed s.nv 0 [] (cyclePattern 1)
  simp only [debugPort]
  refine .ite (.refl s) ?_
  cases a with
  | identity => exact s.leadsTo_engine _
  | core p => exact .ite (s.leadsTo_engine _) (.refl s)
  | fuseProgram w d => exact .ite (State.leadsTo_nv (keeps_programWord s.nv _ [] _) _) (.refl s)
  | fuseSeal w => exact .ite (State.leadsTo_nv (keeps_sealWord s.nv _ []) _) (.refl s)
  | toDevelop =>
    refine .ite (.ite ?_ ?_) (.refl s)
    · exact (State.leadsTo_nv hsealed s.e).trans (leadsTo_restart _ _)
    · exact State.leadsTo_nv hsealed s.e

theorem leadsTo_imageWrite (p : Nat) (img : List Byte) (s : State) : s.LeadsTo (imageWrite p img s) := by
  have hstored (e : Engine) := State.leadsTo_nv (s.nv.keeps_image (2 * p + s.e.otherSlot p) img) e
  simp only [imageWrite]
  exact .ite (.refl s) (.ite (s.leadsTo_engine _) (.ite (s.leadsTo_engine _) (.ite (hstored _) (hstored _))))

theorem leadsTo_storeDict (save : Bool) (g v : Nat) (ok : Bool) (s : State) : s.LeadsTo (storeDict save g v ok s) := by
  have hstays (e : Engine) : s.LeadsTo { s with e := e } := s.leadsTo_engine e
  simp only [storeDict]
  refine .ite (hstays _) (.ite (hstays _) (.ite (hstays _) (.ite (hstays _) (.ite ?_ ?_))))
  · exact State.leadsTo_nv (s.nv.keeps_copies (cellErase_wf _ _ _)) _
  · exact State.leadsTo_nv (s.nv.keeps_copies (cellSet_wf _ _ _ _)) _

theorem leadsTo_onRequest {f : State → State} (idx : Nat) (h : s.LeadsTo (f s)) : s.LeadsTo (onRequest idx f s) := by
  simp only [onRequest]
  split_ifs
  · exact .refl s
  · exact h
  · exact s.leadsTo_engine _

end States

/-! Writes of the dictionary, by every path (R399, R403, R406, R409) -/

section Writes

variable {s t : State}

theorem leadsTo_fuseWrite (v : Nat) (s : State) : s.LeadsTo (fuseWrite v s) := by
  have hflag := s.leadsTo_engine s.e.freeFlag.2
  simp only [fuseWrite]
  split_ifs
  · exact hflag.trans (leadsTo_fuseCommand (fun n => keeps_programWord n _ [] _) _ _ _)
  · exact hflag.trans (leadsTo_fuseCommand (fun n => keeps_sealWord n _ []) _ _ _)
  · exact hflag.trans (leadsTo_fuseCommand (fun n => keeps_lockRegion n [] _) _ _ _)
  · exact s.leadsTo_engine _

theorem leadsTo_writeChecked (idx sub : Nat) (data : List Byte) (s : State) : s.LeadsTo (writeChecked idx sub data s) := by
  have hflag := s.leadsTo_engine s.e.freeFlag.2
  simp only [writeChecked]
  split_ifs
  · exact leadsTo_fuseWrite _ s
  · exact hflag.trans (leadsTo_transition _ _ _)
  · exact hflag.trans (leadsTo_revoke _ _)
  · exact s.leadsTo_engine _
  · exact leadsTo_imageWrite _ _ s
  · exact hflag.trans (leadsTo_storeDict _ _ _ _ _)
  · split
    · exact s.leadsTo_engine _
    · split
      · exact s.leadsTo_engine _
      · exact .refl s

theorem leadsTo_serveWrite (idx sub : Nat) (data : List Byte) (s : State) : s.LeadsTo (serveWrite idx sub data s) := by
  simp only [serveWrite]
  split_ifs
  · exact s.leadsTo_engine _
  · exact leadsTo_writeChecked idx sub data s

theorem leadsTo_applyRecord (s : State) (r : Nat × Nat × List Byte) : s.LeadsTo (applyRecord s r) := by
  have hwrite := leadsTo_serveWrite r.1 r.2.1 r.2.2 s
  simp only [applyRecord]
  split
  · split_ifs
    · exact hwrite
    · exact hwrite.engine _
    · exact s.leadsTo_engine _
  · exact s.leadsTo_engine _

theorem leadsTo_applyRecords (rs : List (Nat × Nat × List Byte)) (s : State) : s.LeadsTo (rs.foldl applyRecord s) := by
  induction rs generalizing s with
  | nil => exact .refl s
  | cons r rs ih => exact (leadsTo_applyRecord s r).trans (ih _)

theorem leadsTo_startPartitions (s : State) : s.LeadsTo (startPartitions s) := by
  simp only [startPartitions]
  split_ifs
  · exact .refl s
  · exact ((s.leadsTo_engine _).trans (leadsTo_applyRecords _ _)).engine _

theorem leadsTo_mbWrite (r : MbRequest) (s : State) : s.LeadsTo (mbWrite r s) := by
  have hstays (e : Engine) : s.LeadsTo { s with e := e } := s.leadsTo_engine e
  have hwritten (bs : List Byte) (e : Engine) : s.LeadsTo (serveWrite r.idx r.sub bs { s with e := e }) :=
    (hstays e).trans (leadsTo_serveWrite _ _ _ _)
  simp only [mbWrite]
  exact .ite (hstays _) (.ite (hstays _) (.ite (hstays _) (.ite ((hwritten _ _).engine _) (hwritten _ _))))

theorem leadsTo_mailboxServe (s : State) : s.LeadsTo (mailboxServe s) := by
  simp only [mailboxServe]
  split
  · exact .refl s
  · split
    · exact .refl s
    · split_ifs
      · exact s.leadsTo_engine _
      · exact s.leadsTo_engine _
      · exact leadsTo_mbWrite _ s
      · exact s.leadsTo_engine _

theorem leadsTo_usdoServe (op idx sub : Nat) (data : List Byte) (s : State) : s.LeadsTo (usdoServe op idx sub data s) := by
  have hserved (e x : Engine) :
      s.LeadsTo (if op = 2 then serveWrite idx sub data { s with e := e } else { s with e := x }) :=
    .ite ((s.leadsTo_engine e).trans (leadsTo_serveWrite _ _ _ _)) (s.leadsTo_engine x)
  simp only [usdoServe]
  exact .ite (.refl s) (.ite (s.leadsTo_engine _) (.ite (hserved _ _) ((hserved _ _).engine _)))

end Writes

/-! Every command -/

section EveryCommand

/-- A remap record goes to the boot flash only where it is due. -/
theorem exec_remapRecordWrite_leadsTo (g : Fin 8) (slot : Fin 16) (ok : Bool) (s : State) :
    ∃ t, exec (.remapRecordWrite g slot ok) s = .next t ∧ s.LeadsTo t := by
  simp only [exec, execRemapRecordWrite]
  split
  · split
    · exact ⟨_, rfl, State.leadsTo_nv (s.nv.keeps_record _ _) _⟩
    · exact ⟨_, rfl, s.leadsTo_engine _⟩
  · exact ⟨s, rfl, .refl s⟩

/-- Every command answers a next state; it leaves the queue, and keeps what outlives power. -/
theorem exec_leadsTo (c : Instr) (s : State) : ∃ t, exec c s = .next t ∧ s.LeadsTo t := by
  cases c
  case dictionaryWrite idx sub data =>
    refine ⟨_, rfl, ?_⟩
    split_ifs
    · exact leadsTo_serveWrite _ _ _ s
    · exact .refl s
  case conventionalReset =>
    refine ⟨_, rfl, ?_⟩
    split_ifs
    · exact leadsTo_restart s _
    · exact .refl s
  case panelBoundary => exact ⟨_, rfl, s.leadsTo_withSelectors _⟩
  case partitionReady p => exact ⟨_, rfl, s.leadsTo_withSelectors _⟩
  case partitionFallback p => exact ⟨_, rfl, s.leadsTo_withSelectors _⟩
  case dawnBootRom => exact ⟨_, rfl, s.leadsTo_withSelectors _⟩
  case partitionImageWrite p img => exact ⟨_, rfl, leadsTo_imageWrite _ _ s⟩
  case refMonitorWindow n => exact ⟨_, rfl, leadsTo_refWindow n s⟩
  case powerOnReset recovered => exact ⟨_, rfl, leadsTo_powerReset recovered s⟩
  case railFault r mv => exact ⟨_, rfl, leadsTo_railReset _ _ s⟩
  case remapRecordWrite g slot ok => exact exec_remapRecordWrite_leadsTo g slot ok s
  case fuseProgram supply fails => exact ⟨_, rfl, leadsTo_fuseCommand (fun n => keeps_programWord n _ fails _) _ _ s⟩
  case fuseSeal supply fails => exact ⟨_, rfl, leadsTo_fuseCommand (fun n => keeps_sealWord n _ fails) _ _ s⟩
  case fuseLock supply fails => exact ⟨_, rfl, leadsTo_fuseCommand (fun n => keeps_lockRegion n fails _) _ _ s⟩
  case lifecycleTransition target supply => exact ⟨_, rfl, leadsTo_transition _ _ s⟩
  case keyRevoke supply => exact ⟨_, rfl, leadsTo_revoke supply s⟩
  case debugPortAccess a => exact ⟨_, rfl, leadsTo_debugPort a s⟩
  case dictionaryStore group v ok => exact ⟨_, rfl, leadsTo_onRequest _ (leadsTo_storeDict _ _ _ _ s)⟩
  case dictionaryRestore group v ok => exact ⟨_, rfl, leadsTo_onRequest _ (leadsTo_storeDict _ _ _ _ s)⟩
  case dawnPartitionStart => exact ⟨_, rfl, leadsTo_startPartitions s⟩
  case mailboxResponse => exact ⟨_, rfl, leadsTo_mailboxServe s⟩
  case usdoRequest op idx sub data => exact ⟨_, rfl, leadsTo_usdoServe _ _ _ _ s⟩
  all_goals exact ⟨_, rfl, s.leadsTo_engine _⟩

/-- A step keeps what outlives power. -/
theorem step_keeps {s t : State} (h : step s = .next t) : s.nv.Keeps t.nv := by
  rw [step] at h
  split at h
  · obtain rfl := Host.Outcome.next.inj h
    exact .refl _
  · obtain ⟨u, hexec, hleads⟩ := exec_leadsTo _ _
    obtain rfl := Host.Outcome.next.inj (hexec.symm.trans h)
    exact hleads.2

theorem commandsKeepTheQueue : Says.CommandsKeepTheQueue := by
  intro c s t h
  obtain ⟨u, hexec, hleads⟩ := exec_leadsTo c s
  obtain rfl := Host.Outcome.next.inj (hexec.symm.trans h)
  exact hleads.1

theorem everyStepGoesOn : Says.EveryStepGoesOn := by
  intro s
  rw [SafeStep, step]
  split
  · exact ⟨_, rfl⟩
  · obtain ⟨t, hexec, _⟩ := exec_leadsTo _ _
    exact ⟨t, hexec⟩

/-- Settles O4: every command's next state is computed, and none touches the queue. -/
theorem queueOutlivesEveryCommand : Obligations.QueueOutlivesEveryCommand := ⟨commandsKeepTheQueue, everyStepGoesOn⟩

/-- Settles O5: flash and fuses are only ever written by operations that keep the canonical form. -/
theorem nonVolatileFormKept : Obligations.NonVolatileFormKept := fun _ _ hwf h => (step_keeps h).2 hwf

/-- Settles O6: the fuse words are only ever rewritten by blowing bits. -/
theorem fusesAreOneTime : Obligations.FusesAreOneTime := fun _ _ h => (step_keeps h).1

/-- Settles O1: the queue's rest is the queue that the command finds. -/
theorem stepRunsFrontCommand : Obligations.StepRunsFrontCommand := fun _ _ _ => rfl

/-- Settles O2: on an empty queue only the count of REF cycles moves, and in power-on reset not even that. -/
theorem emptyQueueTicks : Obligations.EmptyQueueTicks := by
  intro s hempty
  have hstep : step s = .next { s with e := s.e.tick } := by rw [step, hempty]
  rw [hstep]
  refine ⟨fun hmode => ?_, fun hmode => ?_⟩
  · rw [Engine.tick]
    split
    · contradiction
    · rfl
  · rw [Engine.tick, hmode]

end EveryCommand

/-! An engine that is held (R349, R358, R378) -/

section Held

variable {s : State}

/-- A command on the engine that changes nothing of it changes nothing. -/
theorem onEngine_unchanged {f : Engine → Engine} (h : f s.e = s.e) : onEngine f s = .next s := by rw [onEngine, h]

theorem onSelectors_held {f : Engine → Engine} (hheld : s.e.live = false) : onSelectors (whenLive f) s = .next s := by
  simp [onSelectors, State.withSelectors, whenLive_held s.e hheld, hheld]

theorem onRequest_held {f : State → State} {idx : Nat} (hheld : s.e.live = false) : onRequest idx f s = s :=
  if_pos (by simp [hheld])

theorem fuseCommand_held {f : NonVol → NonVol × Nat} {r : Nat} {supply : Bool} (hheld : s.e.live = false) :
    fuseCommand r supply f s = s := if_pos (by simp [hheld])

/-- Every command but removal and return of power, the REF monitor and the thermal comparators finds the engine held. -/
theorem exec_held (c : Instr) (hheld : s.e.live = false) (hpower : ∀ r, c ≠ .powerOnReset r)
    (hmonitor : ∀ n, c ≠ .refMonitorWindow n) (hthermal : c ≠ .thermalShutdown) : exec c s = .next s := by
  have hnot : ¬ s.e.live = true := by simp [hheld]
  have hoff : (!s.e.live) = true := by simp [hheld]
  cases c
  case powerOnReset r => exact absurd rfl (hpower r)
  case refMonitorWindow n => exact absurd rfl (hmonitor n)
  case thermalShutdown => exact absurd rfl hthermal
  case dictionaryWrite idx sub data => exact congrArg _ (if_neg hnot)
  case conventionalReset => exact congrArg _ (if_neg hnot)
  case panelBoundary => exact onSelectors_held hheld
  case partitionReady p => exact onSelectors_held hheld
  case partitionFallback p => exact onSelectors_held hheld
  case dawnBootRom => exact onSelectors_held hheld
  case partitionImageWrite p img => exact congrArg _ (if_pos hoff)
  case railFault r mv => exact congrArg _ (if_pos hoff)
  case remapRecordWrite g slot ok => exact if_neg fun h => hnot h.1
  case fuseProgram supply fails => exact congrArg _ (fuseCommand_held hheld)
  case fuseSeal supply fails => exact congrArg _ (fuseCommand_held hheld)
  case fuseLock supply fails => exact congrArg _ (fuseCommand_held hheld)
  case lifecycleTransition target supply => exact congrArg _ (if_pos hoff)
  case keyRevoke supply => exact congrArg _ (if_pos hoff)
  case debugPortAccess a => exact congrArg _ (if_pos (.inl hoff))
  case dictionaryStore group v ok => exact congrArg _ (onRequest_held hheld)
  case dictionaryRestore group v ok => exact congrArg _ (onRequest_held hheld)
  case dawnPartitionStart => exact congrArg _ (if_pos (.inl hoff))
  case mailboxResponse => exact congrArg _ (if_pos (.inl hoff))
  case usdoRequest op idx sub data => exact congrArg _ (if_pos hoff)
  all_goals exact onEngine_unchanged (if_neg hnot)

/-- Settles O7: every command but the three asks first whether the engine executes at all. -/
theorem heldEngineIgnoresCommands : Obligations.HeldEngineIgnoresCommands := fun c _ => exec_held c

end Held

/-! The machine at the release of power-on reset (R368, R377) -/

section Reset

/-- Nothing is written yet, so no read of DRAM succeeds. -/
theorem Engine.dramRead_unwritten {e : Engine} (hwritten : e.mem.written = []) {a n : Nat} (hn : 0 < n) :
    e.dramRead a n = none := by
  have hline (l : Nat) : e.lineOk l = false := by simp [Engine.lineOk, hwritten, spanMem]
  have hlines : linesOf a n = a / 64 :: ((List.range ((a + n - 1) / 64 - a / 64)).map Nat.succ).map (· + a / 64) := by
    have hcount : (a + n - 1) / 64 + 1 - a / 64 = ((a + n - 1) / 64 - a / 64) + 1 := by omega
    rw [linesOf, if_neg (by omega), hcount, List.range_succ_eq_map]
    simp
  simp [Engine.dramRead, Engine.busError, hlines, firstIdx, hline]

/-- Settles O3: the entries and units of the reset state read as listed, and its stores are empty. -/
theorem resetState : Obligations.ResetState :=
  ⟨rfl, rfl, rfl, rfl, rfl, rfl, rfl, rfl, fun _ => rfl, rfl, fun _ _ hn => Engine.dramRead_unwritten rfl hn, rfl, rfl⟩

end Reset

end Sys2Proof.Machine

/-! Engine DRAM: what reads and the patrol find (R268, R269, R304), and the migration of a rank to the spare (R284 to R286). -/

namespace Sys2Proof.Machine

/-! Commands that write entries only -/

section EntryWrites

variable {c : Instr} {s : State} {e : Engine}

/-- The entries `kvs` written one after the other. -/
def Engine.setAll (e : Engine) (kvs : List (Nat × Nat)) : Engine := kvs.foldl (fun e p => e.setEnt p.1 p.2) e

theorem Engine.entriesOnly_setAll (kvs : List (Nat × Nat)) : e.EntriesOnly (e.setAll kvs) := by
  rw [Engine.setAll]
  exact List.foldlRecOn (motive := fun x => e.EntriesOnly x) kvs _ (.refl e) fun x hx p _ =>
    hx.trans ⟨cellSet dictDefault x.d.dict p.1 p.2, rfl⟩

theorem Engine.ent_setAll_other {kvs : List (Nat × Nat)} {k : Nat} (hk : k ∉ kvs.map Prod.fst) :
    (e.setAll kvs).ent k = e.ent k := by
  induction kvs generalizing e with
  | nil => rfl
  | cons p kvs ih =>
    rw [List.map_cons, List.mem_cons, not_or] at hk
    exact (ih (e := e.setEnt p.1 p.2) hk.2).trans ((Engine.ent_setEnt _ _ _ _).trans (if_neg hk.1))

theorem Engine.ent_setAll_mem {kvs : List (Nat × Nat)} (hkeys : (kvs.map Prod.fst).Nodup) {p : Nat × Nat} (hp : p ∈ kvs) :
    (e.setAll kvs).ent p.1 = p.2 := by
  induction kvs generalizing e with
  | nil => exact absurd hp List.not_mem_nil
  | cons q kvs ih =>
    rw [List.map_cons, List.nodup_cons] at hkeys
    obtain rfl | hp := List.mem_cons.mp hp
    · exact (Engine.ent_setAll_other (e := e.setEnt p.1 p.2) hkeys.1).trans ((Engine.ent_setEnt _ _ _ _).trans (if_pos rfl))
    · exact ih (e := e.setEnt q.1 q.2) hkeys.2 hp

/-- Writes of entries, each once, in whatever order. -/
theorem writes_of_setAll {kvs ops : List (Nat × Nat)} (h : Becomes c s (e.setAll ops))
    (hkeys : (ops.map Prod.fst).Nodup) (hperm : ops.Perm kvs) : Writes c s e kvs := by
  refine h.completes ⟨fun p hp => Engine.ent_setAll_mem hkeys (hperm.mem_iff.mpr hp), fun k hk => ?_, ?_⟩
  · exact Engine.ent_setAll_other fun hmem => hk (((hperm.map Prod.fst).mem_iff).mp hmem)
  · exact congrArg (fun x : Engine => { s with e := x }) (Engine.entriesOnly_setAll ops).eq

/-- One entry is written. -/
theorem writes_of_put {i j v : Nat} (h : Becomes c s (e.put i j v)) : Writes c s e [(ekey i j, v)] :=
  writes_of_setAll (ops := [(ekey i j, v)]) h (List.nodup_singleton _) (.refl _)

/-- Two entries are written. -/
theorem writes_of_put_put {i j i' j' v v' : Nat} (h : Becomes c s ((e.put i j v).put i' j' v')) (hne : ekey i j ≠ ekey i' j') :
    Writes c s e [(ekey i j, v), (ekey i' j', v')] :=
  writes_of_setAll (ops := [(ekey i j, v), (ekey i' j', v')]) h (by simpa using hne) (.refl _)

/-- Entries that differ in index or subindex have different keys. -/
theorem ekey_ne {i j i' j' : Nat} (hj : j < 256) (hj' : j' < 256) (h : i ≠ i' ∨ j ≠ j') : ekey i j ≠ ekey i' j' := by
  rw [Ne, ekey_inj hj hj']
  tauto

@[simp] theorem Engine.get_bump_same (i j n : Nat) : (e.bump i j n).get i j = satAdd (entBits i j) (e.get i j) n :=
  e.get_put_same i j _

theorem Engine.get_bump_other {i j n i' j' : Nat} (hj : j < 256) (hj' : j' < 256) (h : i ≠ i' ∨ j ≠ j') :
    (e.bump i j n).get i' j' = e.get i' j' := e.get_put_ne (ekey_ne hj' hj (by tauto))

theorem Engine.ent_bump_other {i j n k : Nat} (hk : k ≠ ekey i j) : (e.bump i j n).ent k = e.ent k :=
  (e.ent_put i j _ k).trans (if_neg hk)

theorem Engine.ent_put_other {i j v k : Nat} (hk : k ≠ ekey i j) : (e.put i j v).ent k = e.ent k :=
  (e.ent_put i j v k).trans (if_neg hk)

@[simp] theorem Engine.chan_put (i j v c : Nat) : (e.put i j v).chan c = e.chan c := rfl

/-- A command that raises a message on an engine as `P` says. -/
theorem Becomes.raises {x : Engine} {P : Engine → Prop} {src kind detail : Nat} (h : Becomes c s (x.raise src kind detail))
    (hP : P x) : Raises c s P src kind detail := ⟨x, hP, h⟩

@[simp] theorem Engine.get_setChan (c : Nat) (x : Channel) (i j : Nat) : (e.setChan c x).get i j = e.get i j := rfl

@[simp] theorem Engine.ent_setChan (c : Nat) (x : Channel) (k : Nat) : (e.setChan c x).ent k = e.ent k := rfl

end EntryWrites

/-! Engines that differ in numeric entries and DRAM channels only -/

section Channels

/-- Engine `b` is `a` but for numeric dictionary entries and what the controller holds of its channels. -/
def Engine.ChannelsOnly (a b : Engine) : Prop := ∃ dict chans, b = { a with d.dict := dict, mem.chans := chans }

variable {a b : Engine}

theorem Engine.ChannelsOnly.refl (a : Engine) : a.ChannelsOnly a := ⟨_, _, rfl⟩

theorem Engine.ChannelsOnly.put (h : a.ChannelsOnly b) (i j v : Nat) : a.ChannelsOnly (b.put i j v) := by
  obtain ⟨dict, chans, rfl⟩ := h
  exact ⟨_, _, rfl⟩

theorem Engine.ChannelsOnly.setChan (h : a.ChannelsOnly b) (c : Nat) (x : Channel) : a.ChannelsOnly (b.setChan c x) := by
  obtain ⟨dict, chans, rfl⟩ := h
  exact ⟨_, _, rfl⟩

theorem Engine.ChannelsOnly.eq (h : a.ChannelsOnly b) : b = { a with d.dict := b.d.dict, mem.chans := b.mem.chans } := by
  obtain ⟨dict, chans, rfl⟩ := h
  rfl

end Channels

/-! What reads find (R268, R269) -/

section Findings

variable {e : Engine} {addr ch a : Nat}

/-- The line's rank has no threshold: a corrected line is counted for it and starts nothing. -/
theorem Engine.correctedLine_noThreshold (h : e.get 0x4002 8 = 0) (rank : Nat) :
    ∃ x, e.correctedLine ch rank addr = e.setChan ch x :=
  ⟨_, if_neg fun hdue => hdue.1 h⟩

theorem Engine.touchRow_eq (rank : Nat) : ∃ x, e.touchRow ch rank a = e.setChan ch x := ⟨_, rfl⟩

@[simp] theorem Engine.get_touchRow (rank i j : Nat) : (e.touchRow ch rank a).get i j = e.get i j := by
  obtain ⟨x, hx⟩ := e.touchRow_eq (ch := ch) (a := a) rank
  rw [hx, Engine.get_setChan]

@[simp] theorem Engine.ent_touchRow (rank k : Nat) : (e.touchRow ch rank a).ent k = e.ent k := by
  obtain ⟨x, hx⟩ := e.touchRow_eq (ch := ch) (a := a) rank
  rw [hx, Engine.ent_setChan]

theorem Engine.migrating_put {j v : Nat} (hj : j ≠ 0x0C) : (e.put (chanIdx ch) j v).migrating ch = e.migrating ch := by
  rw [Engine.migrating, Engine.get_put_subindex _ _ (Ne.symm hj), Engine.migrating]

/-- An access leaves the migration of its channel alone. -/
theorem Engine.chan_touchRow_migrating (rank : Nat) : ((e.touchRow ch rank a).chan ch).migrating = (e.chan ch).migrating := by
  simp [Engine.touchRow]

theorem Engine.readDone_unserved (o : ReadOutcome) (lat : Nat)
    (h : e.dramServing = false ∨ e.inDram (addr / 64 * 64) 64 = false) : e.readDone addr o lat = e := by
  rw [Engine.readDone, if_pos]
  rcases h with h | h <;> simp [h]

/-- A read in time: what the line holds decides what follows. -/
theorem Engine.readDone_served (hplace : (ch, a) = e.mem.place addr) (hserving : e.dramServing = true)
    (hin : e.inDram (addr / 64 * 64) 64 = true) {x : Engine} (hx : x = e.touchRow ch (e.rankAt ch a) a) :
    e.readDone addr .clean 0 = x ∧
      e.readDone addr .corrected 0 = (x.bump (chanIdx ch) 4 1).correctedLine ch (e.rankAt ch a) addr ∧
      e.readDone addr .marker 0 = x.bump 0x4001 0x0C 1 ∧
      e.readDone addr .uncorrectable 0 = x.uncorrectable ch (e.rankAt ch a) addr := by
  have hreads : ¬ ((!e.dramServing) = true ∨ (!e.inDram (addr / 64 * 64) 64) = true) := by simp [hserving, hin]
  subst hx
  refine ⟨?_, ?_, ?_, ?_⟩ <;> rw [Engine.readDone, if_neg hreads, ← hplace] <;> rfl

theorem Engine.patrol_paused (o : ReadOutcome) (h : e.get 0x4020 2 = 0) : e.patrol addr o = e := if_pos (.inl h)

/-- A patrol of a channel that does not retrain: the line is where the patrol stands. -/
theorem Engine.patrol_reads (hplace : (ch, a) = e.mem.place addr) (hon : e.get 0x4020 2 ≠ 0) (hserving : e.dramServing = true)
    (hin : e.inDram (addr / 64 * 64) 64 = true) (hsteady : e.get (chanIdx ch) 1 ≠ 2) :
    e.patrol addr .clean = e.put 0x4020 3 addr ∧
      e.patrol addr .corrected = ((e.put 0x4020 3 addr).bump 0x4020 4 1).correctedLine ch (e.rankAt ch a) addr := by
  have hreads : ¬ (e.get 0x4020 2 = 0 ∨ (!e.dramServing) = true ∨ (!e.inDram (addr / 64 * 64) 64) = true ∨
      e.get (chanIdx ch) 1 = 2) := by simp [hon, hserving, hin, hsteady]
  refine ⟨?_, ?_⟩ <;> rw [Engine.patrol, ← hplace] <;> exact if_neg hreads

/-- The line at `addr` cannot be read from here on. -/
def Engine.lineLost (e : Engine) (addr : Nat) : Engine :=
  { e with mem.bad := cellSet (fun _ => false) e.mem.bad (addr / 64) true }

@[simp] theorem Engine.get_lineLost (i j : Nat) : (e.lineLost addr).get i j = e.get i j := rfl

@[simp] theorem Engine.ent_lineLost (k : Nat) : (e.lineLost addr).ent k = e.ent k := rfl

theorem Engine.lineOk_lineLost : (e.lineLost addr).lineOk (addr / 64) = false := by
  simp [Engine.lineOk, Engine.lineLost]

/-- R268: a line whose rank migrates already is counted, named and unreadable. -/
theorem Engine.uncorrectable_migrating {rank : Nat} (hmigrating : e.migrating ch = true)
    (hrank : (e.chan ch).migrating = some rank) :
    e.uncorrectable ch rank addr = ((e.bump (chanIdx ch) 5 1).put (chanIdx ch) 0x0F addr).lineLost addr := by
  have hkept : ((e.bump (chanIdx ch) 5 1).put (chanIdx ch) 0x0F addr).migrating ch = true := by
    rw [Engine.migrating_put (by decide), Engine.bump, Engine.migrating_put (by decide), hmigrating]
  generalize hx : (e.bump (chanIdx ch) 5 1).put (chanIdx ch) 0x0F addr = x at hkept ⊢
  have hchan : x.chan ch = e.chan ch := by rw [← hx]; rfl
  have hlost : (x.lineLost addr).migrating ch = true ∧ ((x.lineLost addr).chan ch).migrating = some rank :=
    ⟨hkept, (congrArg Channel.migrating hchan).trans hrank⟩
  rw [Engine.uncorrectable, hx]
  exact if_pos hlost

variable {s : State}

theorem becomes_dramRead (hlive : s.e.live = true) (o : ReadOutcome) (lat : Nat) :
    Becomes (.dramReadComplete addr o lat) s (s.e.readDone addr o lat) :=
  becomes_of_whenLive (f := fun e => e.readDone addr o lat) rfl hlive

theorem becomes_patrolLine (hlive : s.e.live = true) (o : ReadOutcome) :
    Becomes (.patrolLine addr o) s (s.e.patrol addr o) := becomes_of_whenLive (f := fun e => e.patrol addr o) rfl hlive

/-- A corrected line that starts no migration is one count, and what its channel knows of the hour. -/
theorem corrected_completes (hlive : s.e.live = true) (hplace : (ch, a) = s.e.mem.place addr) (hserving : s.e.dramServing = true)
    (hin : s.e.inDram (addr / 64 * 64) 64 = true) (hnone : s.e.get 0x4002 8 = 0) :
    Completes (.dramReadComplete addr .corrected 0) s (fun t =>
      t.e.get (chanIdx ch) 4 = satAdd (entBits (chanIdx ch) 4) (s.e.get (chanIdx ch) 4) 1 ∧
      (∀ k, k ≠ ekey (chanIdx ch) 4 → t.e.ent k = s.e.ent k) ∧
      t = { s with e := { s.e with d.dict := t.e.d.dict, mem.chans := t.e.mem.chans } }) := by
  have hthreshold : ((s.e.touchRow ch (s.e.rankAt ch a) a).bump (chanIdx ch) 4 1).get 0x4002 8 = 0 := by
    rw [Engine.get_bump_other (by decide) (by decide) (.inr (by decide)), Engine.get_touchRow, hnone]
  obtain ⟨x, hx⟩ := Engine.correctedLine_noThreshold (ch := ch) (addr := addr) hthreshold (s.e.rankAt ch a)
  obtain ⟨y, hy⟩ := s.e.touchRow_eq (ch := ch) (a := a) (s.e.rankAt ch a)
  obtain ⟨-, hcorrected, -⟩ := Engine.readDone_served hplace hserving hin rfl
  have hread := becomes_dramRead (addr := addr) hlive .corrected 0
  rw [hcorrected, hx, hy] at hread
  have hkept : s.e.ChannelsOnly (((s.e.setChan ch y).bump (chanIdx ch) 4 1).setChan ch x) :=
    (((Engine.ChannelsOnly.refl s.e).setChan ch y).put _ _ _).setChan ch x
  refine hread.completes ⟨?_, fun k hk => ?_, congrArg (fun x : Engine => { s with e := x }) hkept.eq⟩
  · rw [Engine.get_setChan, Engine.get_bump_same, Engine.get_setChan]
  · rw [Engine.ent_setChan, Engine.ent_bump_other hk, Engine.ent_setChan]

/-- An uncorrectable line is counted, named and unreadable from then on. -/
theorem uncorrectable_completes (hlive : s.e.live = true) (hplace : (ch, a) = s.e.mem.place addr)
    (hserving : s.e.dramServing = true) (hin : s.e.inDram (addr / 64 * 64) 64 = true) (hmigrating : s.e.migrating ch = true)
    (hrank : (s.e.chan ch).migrating = some (s.e.rankAt ch a)) :
    Completes (.dramReadComplete addr .uncorrectable 0) s (fun t =>
      t.e.get (chanIdx ch) 5 = satAdd (entBits (chanIdx ch) 5) (s.e.get (chanIdx ch) 5) 1 ∧ t.e.get (chanIdx ch) 0x0F = addr ∧
      t.e.lineOk (addr / 64) = false ∧
      (∀ k, k ≠ ekey (chanIdx ch) 5 → k ≠ ekey (chanIdx ch) 0x0F → t.e.ent k = s.e.ent k)) := by
  have hread := becomes_dramRead (addr := addr) hlive .uncorrectable 0
  obtain ⟨-, -, -, hbad⟩ := Engine.readDone_served hplace hserving hin rfl
  rw [hbad, Engine.uncorrectable_migrating (e := s.e.touchRow ch (s.e.rankAt ch a) a) hmigrating
    ((Engine.chan_touchRow_migrating _).trans hrank)] at hread
  refine hread.completes ⟨?_, ?_, Engine.lineOk_lineLost, fun k hk hk' => ?_⟩
  · rw [Engine.get_lineLost, Engine.get_put_subindex _ _ (by decide), Engine.get_bump_same, Engine.get_touchRow]
  · rw [Engine.get_lineLost, Engine.get_put_same]
  · rw [Engine.ent_lineLost, Engine.ent_put_other hk', Engine.ent_bump_other hk, Engine.ent_touchRow]

/-- Settles O41: a read and a patrol by what they find. -/
theorem dramFindings : Obligations.DramFindings := by
  intro s addr ch a i hlive hplace hi
  subst hi
  refine ⟨fun o lat h => ?_, fun hserving hin => ?_, fun o hoff => ?_, fun hon hserving hin hsteady => ?_⟩
  · simpa only [Engine.readDone_unserved o lat h] using becomes_dramRead (addr := addr) hlive o lat
  · obtain ⟨hclean, -, hmarker, -⟩ := Engine.readDone_served hplace hserving hin rfl
    refine ⟨?_, writes_of_put (i := 0x4001) (j := 0x0C) ?_, corrected_completes hlive hplace hserving hin,
      uncorrectable_completes hlive hplace hserving hin⟩
    · simpa only [hclean] using becomes_dramRead (addr := addr) hlive .clean 0
    · have hread := becomes_dramRead (addr := addr) hlive .marker 0
      rwa [hmarker, Engine.bump, Engine.get_touchRow] at hread
  · simpa only [Engine.patrol_paused o hoff] using becomes_patrolLine (addr := addr) hlive o
  · obtain ⟨hclean, hcorrected⟩ := Engine.patrol_reads hplace hon hserving hin hsteady
    refine ⟨writes_of_put (i := 0x4020) (j := 3) ?_, fun hnone => ?_⟩
    · simpa only [hclean] using becomes_patrolLine (addr := addr) hlive .clean
    · have hthreshold : ((s.e.put 0x4020 3 addr).bump 0x4020 4 1).get 0x4002 8 = 0 := by
        rw [Engine.get_bump_other (by decide) (by decide) (.inl (by decide)),
          Engine.get_put_other _ (by decide) (by decide) (by decide), hnone]
      obtain ⟨x, hx⟩ := Engine.correctedLine_noThreshold (ch := ch) (addr := addr) hthreshold (s.e.rankAt ch a)
      have hread := becomes_patrolLine (addr := addr) hlive .corrected
      rw [hcorrected, hx] at hread
      refine hread.completes ⟨?_, ?_, fun k hk hk' => ?_⟩
      · rw [Engine.get_setChan, Engine.get_bump_other (by decide) (by decide) (.inr (by decide)), Engine.get_put_same]
      · rw [Engine.get_setChan, Engine.get_bump_same, Engine.get_put_subindex _ _ (by decide)]
      · rw [Engine.ent_setChan, Engine.ent_bump_other hk', Engine.ent_put_other hk]

end Findings
/-! Rank sparing (R284 to R286) -/

section Migration

variable {e : Engine} {ch rank : Nat}

theorem chanIdx_ne_controller (c : Nat) : chanIdx c ≠ 0x4001 := by
  unfold chanIdx
  omega

/-- What the controller publishes of its capacity leaves a channel's entries alone. -/
theorem Engine.get_publishDram_channel {c j : Nat} (hj : j < 256) : e.publishDram.get (chanIdx c) j = e.get (chanIdx c) j :=
  e.get_publishDram _ _ hj fun h => chanIdx_ne_controller c h.1

theorem Engine.chan_publishDram (c : Nat) : e.publishDram.chan c = e.chan c := by
  rw [Engine.chan, Engine.publishDram_mem, Engine.chan]

/-- The entries of a migration that begins: state, P, cause, address and the channel's own state. -/
def Engine.migrationEntries (e : Engine) (ch cause addr : Nat) : Engine :=
  ((((e.put (chanIdx ch) 0x0C (if e.get 0x4001 1 = 2 ∨ e.get 0x4001 1 = 3 then 2 else 1)).put (chanIdx ch) 0x0D 0).put
    (chanIdx ch) 0x0E cause).put (chanIdx ch) 0x0F addr).put (chanIdx ch) 1 3

/-- The engine with the migration of `rank` begun. -/
def Engine.migrationBegun (e : Engine) (ch rank cause addr : Nat) : Engine :=
  let x := e.migrationEntries ch cause addr
  (x.setChan ch { x.chan ch with migrating := some rank }).publishDram

theorem Engine.migrate_begins (hup : (e.chan ch).up = true) (hidle : e.migrating ch = false)
    (hspare : e.get (chanIdx ch) 0x0A ≠ 0xff) (cause addr : Nat) :
    e.migrate ch rank cause addr = (e.migrationBegun ch rank cause addr).raise 9 5 (detailM ch rank addr) := by
  have hfree : ¬ (e.migrating ch = true ∨ e.get (chanIdx ch) 0x0A = 0xff) := by simp [hidle, hspare]
  rw [Engine.migrate, if_neg (by simp [hup]), if_neg hfree]
  rfl

theorem Engine.get_migrationBegun {j : Nat} (hj : j < 256) (cause addr : Nat) :
    (e.migrationBegun ch rank cause addr).get (chanIdx ch) j = (e.migrationEntries ch cause addr).get (chanIdx ch) j := by
  rw [Engine.migrationBegun, Engine.get_publishDram_channel hj, Engine.get_setChan]

theorem Engine.get_migrationEntries (cause addr j : Nat) :
    (e.migrationEntries ch cause addr).get (chanIdx ch) j =
      if j = 1 then 3 else if j = 0x0F then addr else if j = 0x0E then cause else if j = 0x0D then 0
      else if j = 0x0C then (if e.get 0x4001 1 = 2 ∨ e.get 0x4001 1 = 3 then 2 else 1) else e.get (chanIdx ch) j := by
  simp only [Engine.migrationEntries, Engine.get_put, ekey_same_index]

theorem Engine.migrating_migrationBegun (cause addr : Nat) :
    ((e.migrationBegun ch rank cause addr).chan ch).migrating = some rank := by
  rw [Engine.migrationBegun, Engine.chan_publishDram, Engine.chan_setChan, if_pos rfl]

theorem Engine.alert_down (hdown : (e.chan ch).up = false) (again : Bool) : e.alert ch rank again = e :=
  if_pos (by simp [hdown])

theorem Engine.alert_counted (hup : (e.chan ch).up = true) : e.alert ch rank false = e.bump (chanIdx ch) 6 1 :=
  (if_neg (by simp [hup])).trans (if_neg (by simp))

/-- R284: a rank that alerts again is migrated. -/
theorem Engine.alert_again (hup : (e.chan ch).up = true) (hidle : e.migrating ch = false)
    (hspare : e.get (chanIdx ch) 0x0A ≠ 0xff) :
    e.alert ch rank true = ((e.bump (chanIdx ch) 6 1).migrationBegun ch rank 2 0).raise 9 5 (detailM ch rank 0) := by
  have hidle' : (e.bump (chanIdx ch) 6 1).migrating ch = false := (Engine.migrating_put (by decide)).trans hidle
  have hspare' : (e.bump (chanIdx ch) 6 1).get (chanIdx ch) 0x0A ≠ 0xff := by
    rwa [Engine.bump, Engine.get_put_subindex _ _ (by decide)]
  have hbegins := Engine.migrate_begins (rank := rank) (e := e.bump (chanIdx ch) 6 1) hup hidle' hspare' 2 0
  rw [Engine.alert, if_neg (by simp [hup]), if_pos (by simp [hidle']), hbegins]

theorem Engine.migrateNow_refused (h : (e.chan ch).up = false ∨ e.migrating ch = true) : e.migrateNow ch = e.refuse abState := by
  refine if_pos ?_
  rcases h with h | h <;> simp [h]

theorem Engine.migrateNow_noRank (hup : (e.chan ch).up = true) (hidle : e.migrating ch = false)
    (hspare : e.get (chanIdx ch) 0x0A ≠ 0xff) (hrank : (e.chan ch).lrank.contains (e.get (chanIdx ch) 0x11) = false) :
    e.migrateNow ch = e.refuse abValue :=
  (if_neg (by simp [hup, hidle, hspare])).trans (if_pos (by simpa using hrank))

theorem Engine.migrateNow_begins (hup : (e.chan ch).up = true) (hidle : e.migrating ch = false)
    (hspare : e.get (chanIdx ch) 0x0A ≠ 0xff) (hrank : (e.chan ch).lrank.contains (e.get (chanIdx ch) 0x11) = true) :
    e.migrateNow ch = ((e.migrationBegun ch (e.get (chanIdx ch) 0x11) 4 0).raise 9 5
      (detailM ch (e.get (chanIdx ch) 0x11) 0)).done := by
  rw [← Engine.migrate_begins hup hidle hspare]
  exact (if_neg (by simp [hup, hidle, hspare])).trans (if_neg (by simpa using hrank))

/-- R286: the spare in the place of `rank`. -/
def Engine.switchedOver (e : Engine) (ch rank : Nat) : Engine :=
  let x := e.setChan ch { e.chan ch with
    lrank := (e.chan ch).lrank.map (fun k => if k = rank then e.get (chanIdx ch) 0x0A else k), migrating := none }
  ((((x.put (chanIdx ch) 0x0B rank).put (chanIdx ch) 0x0A 0xff).put (chanIdx ch) 0x0C 3).put (chanIdx ch) 1 1).publishDram

theorem Engine.switchOver_eq : e.switchOver ch rank = (e.switchedOver ch rank).raise 9 6 (detailM ch rank 0) := rfl

theorem Engine.get_switchedOver {j : Nat} (hj : j < 256) : (e.switchedOver ch rank).get (chanIdx ch) j =
    if j = 1 then 1 else if j = 0x0C then 3 else if j = 0x0A then 0xff else if j = 0x0B then rank
      else e.get (chanIdx ch) j := by
  rw [Engine.switchedOver, Engine.get_publishDram_channel hj]
  simp only [Engine.get_put, ekey_same_index, Engine.get_setChan]

theorem Engine.migrating_switchedOver : ((e.switchedOver ch rank).chan ch).migrating = none := by
  simp only [Engine.switchedOver, Engine.chan_publishDram, Engine.chan_put, Engine.chan_setChan, if_true]

theorem Engine.copyLine_none (o : ReadOutcome) (hnone : (e.chan ch).migrating = none) : e.copyLine ch o = e := by
  rw [Engine.copyLine, hnone]

/-- R285: a line that reads is copied; after the last one the spare takes over. -/
theorem Engine.copyLine_copies (hrank : (e.chan ch).migrating = some rank) (hcopies : e.get (chanIdx ch) 0x0C = 1)
    (hserving : e.get 0x4001 1 = 1) :
    e.copyLine ch .clean =
        (if e.mem.rsize ≤ e.get (chanIdx ch) 0x0D + 64 then
          (e.put (chanIdx ch) 0x0D (e.get (chanIdx ch) 0x0D + 64)).switchOver ch rank
        else e.put (chanIdx ch) 0x0D (e.get (chanIdx ch) 0x0D + 64)) ∧
      (e.get (chanIdx ch) 0x0D + 64 < e.mem.rsize →
        e.copyLine ch .corrected = (e.bump (chanIdx ch) 4 1).put (chanIdx ch) 0x0D (e.get (chanIdx ch) 0x0D + 64)) := by
  have hruns : ¬ (e.get (chanIdx ch) 0x0C ≠ 1 ∨ (!decide (e.get 0x4001 1 = 1)) = true) := by simp [hcopies, hserving]
  refine ⟨?_, fun hmore => ?_⟩
  · rw [Engine.copyLine, hrank]
    exact if_neg hruns
  · rw [Engine.copyLine, hrank]
    exact (if_neg hruns).trans (if_neg (Nat.not_le.mpr hmore))

variable {s : State} {c r : Fin 4}

theorem becomes_dramAlert (hlive : s.e.live = true) (again : Bool) :
    Becomes (.dramAlert c r again) s (s.e.alert c.val r.val again) :=
  becomes_of_whenLive (f := fun e => e.alert c.val r.val again) rfl hlive

theorem becomes_migrateCommand (hs : s.serves 3) : Becomes (.migrateCommand c) s (s.e.migrateNow c.val) :=
  becomes_of_request (idx := 0x4010) (f := fun e => e.migrateNow c.val) rfl hs

theorem becomes_migrationLineCopy (hlive : s.e.live = true) (o : ReadOutcome) :
    Becomes (.migrationLineCopy c o) s (s.e.copyLine c.val o) :=
  becomes_of_whenLive (f := fun e => e.copyLine c.val o) rfl hlive

/-- An alert that repeats, and the command, each begin a migration where a spare is left. -/
theorem migration_begins (hs : s.serves 3) (hup : (s.e.chan c.val).up = true) (hidle : s.e.migrating c.val = false)
    (hspare : s.e.get (chanIdx c.val) 0x0A ≠ 0xff) :
    Raises (.dramAlert c r true) s (fun e => e.get (chanIdx c.val) 0x0D = 0 ∧ e.get (chanIdx c.val) 0x0E = 2 ∧
        e.get (chanIdx c.val) 0x0F = 0 ∧ e.get (chanIdx c.val) 1 = 3 ∧
        e.get (chanIdx c.val) 0x0C = (if s.e.get 0x4001 1 = 2 ∨ s.e.get 0x4001 1 = 3 then 2 else 1) ∧
        (e.chan c.val).migrating = some r.val) 9 5 (detailM c.val r.val 0) ∧
      (∀ k, s.e.get (chanIdx c.val) 0x11 = k → (s.e.chan c.val).lrank.contains k = false →
        Refuses (.migrateCommand c) s 0x06090030) ∧
      (∀ k, s.e.get (chanIdx c.val) 0x11 = k → (s.e.chan c.val).lrank.contains k = true →
        Completes (.migrateCommand c) s (fun t => ∃ e : Engine, t.e = (e.raise 9 5 (detailM c.val k 0)).done ∧
          e.get (chanIdx c.val) 0x0D = 0 ∧ e.get (chanIdx c.val) 0x0E = 4 ∧ e.get (chanIdx c.val) 1 = 3 ∧
          (e.chan c.val).migrating = some k)) := by
  have hcommand := becomes_migrateCommand (c := c) hs
  have halert := becomes_dramAlert (c := c) (r := r) hs.1 true
  rw [Engine.alert_again hup hidle hspare] at halert
  have hcontroller : (s.e.bump (chanIdx c.val) 6 1).get 0x4001 1 = s.e.get 0x4001 1 :=
    Engine.get_bump_other (by decide) (by decide) (.inl (chanIdx_ne_controller _))
  refine ⟨halert.raises ?_, ?_, ?_⟩
  · simp [Engine.get_migrationBegun, Engine.get_migrationEntries, Engine.migrating_migrationBegun, hcontroller]
  · rintro k rfl hrank
    rwa [Engine.migrateNow_noRank hup hidle hspare hrank] at hcommand
  · rintro k rfl hrank
    rw [Engine.migrateNow_begins hup hidle hspare hrank] at hcommand
    refine hcommand.completes_exists (fun e => (e.raise 9 5 (detailM c.val _ 0)).done) ?_
    simp [Engine.get_migrationBegun, Engine.get_migrationEntries, Engine.migrating_migrationBegun]

/-- Settles O42: alert, command and copy by what the channel does. -/
theorem rankMigration : Obligations.RankMigration := by
  intro s c r i hs hi
  obtain rfl : i = chanIdx c.val := hi
  have hcommand := becomes_migrateCommand (c := c) hs
  have halert := becomes_dramAlert (c := c) (r := r) hs.1
  have hcopy := becomes_migrationLineCopy (c := c) hs.1
  refine ⟨fun hdown => ⟨?_, ?_⟩, fun hup => writes_of_put ?_, migration_begins hs, fun hmigrating => ?_, fun o hnone => ?_,
    fun hrank hcopies hserving => ⟨fun hmore => ⟨writes_of_put ?_, ?_⟩, fun hlast => ?_⟩⟩
  · simpa only [Engine.alert_down hdown] using halert true
  · rwa [Engine.migrateNow_refused (.inl hdown)] at hcommand
  · simpa only [Engine.alert_counted hup, Engine.bump] using halert false
  · rwa [Engine.migrateNow_refused (.inr hmigrating)] at hcommand
  · simpa only [Engine.copyLine_none o hnone] using hcopy o
  all_goals obtain ⟨hclean, hcorrected⟩ := Engine.copyLine_copies hrank hcopies hserving
  · simpa only [hclean, if_neg (Nat.not_le.mpr hmore)] using hcopy .clean
  · have hcopied := hcopy .corrected
    rw [hcorrected hmore] at hcopied
    exact writes_of_setAll (ops := [(ekey _ 4, _), (ekey _ 0x0D, _)]) hcopied (by simp) (.swap _ _ _)
  · have hcopied := hcopy .clean
    rw [hclean, if_pos hlast, Engine.switchOver_eq] at hcopied
    refine hcopied.raises ?_
    simp [Engine.get_switchedOver, Engine.migrating_switchedOver]

end Migration

end Sys2Proof.Machine

/-! On-chip integrity (R298, R299, R303): what the scrubber makes of a word, and the remap records of the boot flash. -/

namespace Sys2Proof.Machine

section Scrubber

variable {e : Engine} {g word : Nat}

/-- The scrubber at `word` of group `g`: a word no higher than the one before completes a pass. -/
def Engine.scrubbedTo (e : Engine) (g word : Nat) : Engine :=
  let x := match cellFind g e.integ.scrubbed with
    | some w => if word ≤ w then e.wrap (0x4030 + g) 7 1 else e
    | none => e
  { x with integ.scrubbed := cellInsert g word (cellErase g x.integ.scrubbed) }

theorem cellFind_insert_erase {α : Type} (k : Nat) (v : α) (m : List (Nat × α)) :
    cellFind k (cellInsert k v (cellErase k m)) = some v := by
  rw [cellFind_insert _ _ _ _ (by rw [cellFind_erase, if_pos rfl]), if_pos rfl]

theorem Engine.scrubbedTo_first (hfirst : cellFind g e.integ.scrubbed = none) :
    e.scrubbedTo g word = { e with integ.scrubbed := cellInsert g word (cellErase g e.integ.scrubbed) } := by
  rw [Engine.scrubbedTo, hfirst]

theorem Engine.ent_scrubbedTo_pass {p : Nat} (hplace : cellFind g e.integ.scrubbed = some p) (hpass : word ≤ p) (k : Nat) :
    (e.scrubbedTo g word).ent k = (e.wrap (0x4030 + g) 7 1).ent k := by
  simp only [Engine.scrubbedTo, hplace, if_pos hpass]
  rfl

/-- Of the entries, the scrubber's place touches the count of passes alone. -/
theorem Engine.ent_scrubbedTo {k : Nat} (hk : k ≠ ekey (0x4030 + g) 7) : (e.scrubbedTo g word).ent k = e.ent k := by
  simp only [Engine.scrubbedTo]
  split
  · split_ifs
    · exact Engine.ent_put_other hk
    · rfl
  · rfl

theorem Engine.get_scrubbedTo {j : Nat} (hj : j ≠ 7) : (e.scrubbedTo g word).get (0x4030 + g) j = e.get (0x4030 + g) j :=
  Engine.ent_scrubbedTo fun hkey => hj ((ekey_same_index _ _ _).mp hkey)

/-- R300, R301: poison reaches the item that the word holds, and no entry. -/
theorem Engine.ent_poison (x : Holding) (k : Nat) : (e.poison x).ent k = e.ent k := by
  cases x with
  | logEntry i =>
    simp only [Engine.poison]
    split <;> rfl
  | _ => rfl

theorem Engine.get_poison (x : Holding) (i j : Nat) : (e.poison x).get i j = e.get i j := e.ent_poison x _

theorem Engine.scrub_clean : e.scrub g word .clean = e.scrubbedTo g word := rfl

theorem Engine.scrub_marker : e.scrub g word .marker = e.scrubbedTo g word := rfl

theorem Engine.scrub_corrected :
    e.scrub g word .corrected = ((e.scrubbedTo g word).bump (0x4030 + g) 1 1).suspect g word false := rfl

/-- The uncorrectable word is counted, named and poisoned. -/
def Engine.wordLost (e : Engine) (g word : Nat) : Engine :=
  ((e.bump (0x4030 + g) 2 1).put (0x4030 + g) 8 word).poison (Config.holding g word)

theorem Engine.scrub_uncorrectable : e.scrub g word .uncorrectable =
    (((e.scrubbedTo g word).wordLost g word).raise 0x0A 3 (detailG g word)).suspect g word true := rfl

theorem Engine.get_wordLost : (e.wordLost g word).get (0x4030 + g) 2 = satAdd (entBits (0x4030 + g) 2) (e.get (0x4030 + g) 2) 1 ∧
    (e.wordLost g word).get (0x4030 + g) 8 = word := by
  rw [Engine.wordLost, Engine.get_poison, Engine.get_poison, Engine.get_put_subindex _ _ (by decide)]
  exact ⟨Engine.get_bump_same _ _ _, Engine.get_put_same _ _ _ _⟩

theorem Engine.ent_wordLost {k : Nat} (hcount : k ≠ ekey (0x4030 + g) 2) (hname : k ≠ ekey (0x4030 + g) 8) :
    (e.wordLost g word).ent k = e.ent k := by
  rw [Engine.wordLost, Engine.ent_poison, Engine.ent_put_other hname, Engine.ent_bump_other hcount]

variable {s : State} {c : Fin 8} {slot : Fin 16}

theorem becomes_scrubWord (hlive : s.e.live = true) (w : BitVec 31) (o : ReadOutcome) :
    Becomes (.scrubWord c w o) s (s.e.scrub c.val w.toNat o) :=
  becomes_of_whenLive (f := fun e => e.scrub c.val w.toNat o) rfl hlive

/-- The boot flash with the remap record of entry `k`. -/
def State.recorded (s : State) (g slot k : Nat) : NonVol :=
  { s.nv with records := cellSet (fun _ => []) s.nv.records k (remapRecord g slot (cellGet (fun _ => 0) s.e.integ.remap k)) }

/-- R299: a record that is due is written; it is due no longer where it reads back. -/
theorem exec_remapRecordWrite_due (hlive : s.e.live = true) (hserving : s.e.serving 3 = true)
    (hdue : s.e.integ.flashDue.contains (16 * c.val + slot.val) = true) (ok : Bool) :
    exec (.remapRecordWrite c slot ok) s = .next { s with
      e := s.e.recordWritten (16 * c.val + slot.val) ok
      nv := if ok then s.recorded c.val slot.val (16 * c.val + slot.val) else s.nv } :=
  if_pos ⟨hlive, hserving, hdue⟩

theorem remapRecordWrite_notDue (hdone : s.e.integ.flashDue.contains (16 * c.val + slot.val) = false) (ok : Bool) :
    Becomes (.remapRecordWrite c slot ok) s s.e :=
  if_neg fun ⟨_, _, hdue⟩ => Bool.false_ne_true (hdone.symm.trans hdue)

/-- Settles O44: the scrubber by its finding, and a record by whether it is due and reads back. -/
theorem onChipIntegrity : Obligations.OnChipIntegrity := by
  intro s c w slot k i hlive hk hi
  subst hk hi
  have hscrub := becomes_scrubWord (c := c) hlive w
  refine ⟨fun o ho hfirst => ?_, fun p hplace hpass => ?_, ?_, ?_, fun hserving hdue => ⟨?_, ?_⟩, fun ok hdone =>
    remapRecordWrite_notDue hdone ok⟩
  · have hplaced : s.e.scrub c.val w.toNat o = s.e.scrubbedTo c.val w.toNat := by
      rcases ho with rfl | rfl
      · exact Engine.scrub_clean
      · exact Engine.scrub_marker
    have hword := hscrub o
    rw [hplaced, Engine.scrubbedTo_first hfirst] at hword
    exact hword.completes ⟨cellFind_insert_erase _ _ _, rfl⟩
  · refine (hscrub .clean).completes ⟨?_, fun j hj => ?_⟩
    · exact (Engine.ent_scrubbedTo_pass hplace hpass _).trans (Engine.get_put_same _ _ _ _)
    · exact Engine.ent_scrubbedTo hj
  · have hword := hscrub .corrected
    rw [Engine.scrub_corrected] at hword
    refine hword.completes_exists (fun e => e.suspect c.val w.toNat false) ⟨?_, fun j hcount hpass => ?_⟩
    · rw [Engine.get_bump_same, Engine.get_scrubbedTo (by decide)]
    · rw [Engine.ent_bump_other hcount, Engine.ent_scrubbedTo hpass]
  · obtain ⟨hcount, hname⟩ := (s.e.scrubbedTo c.val w.toNat).get_wordLost (g := c.val) (word := w.toNat)
    rw [Engine.get_scrubbedTo (by decide)] at hcount
    have hword := hscrub .uncorrectable
    rw [Engine.scrub_uncorrectable] at hword
    refine hword.completes_exists
      (fun e => (e.raise 0x0A 3 (detailG c.val w.toNat)).suspect c.val w.toNat true) ⟨hcount, hname, fun j hj hj' hj'' => ?_⟩
    rw [Engine.ent_wordLost hj hj'', Engine.ent_scrubbedTo hj']
  · exact ⟨_, exec_remapRecordWrite_due hlive hserving hdue true, rfl, rfl, rfl⟩
  · exact writes_of_put (i := 0x4020) (j := 6) (exec_remapRecordWrite_due hlive hserving hdue false)

end Scrubber

end Sys2Proof.Machine

/-! What the upkeep that many commands end with leaves alone: loop evaluations (R249, R253), self-refresh (R288), the stop of the
axes (R238), the hold causes (R51, R52) and the trace units (R262). -/

namespace Sys2Proof.Machine

/-- What upkeep leaves alone: the entries of the indices that `keep` names, the faults but for their windows, power, mode, time
and the host's mailbox and power management. -/
def Engine.view (keep : Nat → Bool) (e : Engine) : (Nat → Nat) × Collector × Power × EngineMode × Nat × Mailbox × Bool :=
  (fun k => if keep (k / 256) then e.ent k else 0, { e.flt with windows := [] }, e.pwr, e.mode, e.now, e.host.mb, e.host.aspmL1)

section Views

variable {keep : Nat → Bool} {a b : Engine}

theorem Engine.view_of_slices (hd : b.d = a.d) (hflt : b.flt = a.flt) (hpwr : b.pwr = a.pwr) (hmode : b.mode = a.mode)
    (hnow : b.now = a.now) (hhost : b.host = a.host) : b.view keep = a.view keep := by
  simp only [Engine.view, Engine.ent, hd, hflt, hpwr, hmode, hnow, hhost]

theorem Engine.view_put (e : Engine) {i j : Nat} (v : Nat) (hj : j < 256) (hi : keep i = false) :
    (e.put i j v).view keep = e.view keep := by
  have hent : ∀ k, keep (k / 256) = true → (e.put i j v).ent k = e.ent k := fun k hk =>
    e.ent_put_otherIndex v hj fun heq => by simp [heq, hi] at hk
  simp only [Engine.view, Prod.mk.injEq]
  refine ⟨funext fun k => ?_, rfl, rfl, rfl, rfl, rfl, rfl⟩
  split_ifs with hk
  · exact hent k hk
  · rfl

section Reads

variable (h : b.view keep = a.view keep)
include h

theorem Engine.view_ent {k : Nat} (hk : keep (k / 256) = true) : b.ent k = a.ent k := by
  have hents := congrFun (congrArg Prod.fst h) k
  simpa [Engine.view, hk] using hents

theorem Engine.view_get {i j : Nat} (hi : keep i = true) (hj : j < 256) : b.get i j = a.get i j :=
  Engine.view_ent h (by rwa [ekey_div_index hj])

theorem Engine.view_flt : { b.flt with windows := [] } = { a.flt with windows := [] } := congrArg (·.2.1) h
theorem Engine.view_log : b.flt.log = a.flt.log := congrArg (·.2.1.log) h
theorem Engine.view_pwr : b.pwr = a.pwr := congrArg (·.2.2.1) h
theorem Engine.view_mode : b.mode = a.mode := congrArg (·.2.2.2.1) h
theorem Engine.view_now : b.now = a.now := congrArg (·.2.2.2.2.1) h
theorem Engine.view_mailbox : b.host.mb = a.host.mb := congrArg (·.2.2.2.2.2.1) h
theorem Engine.view_aspm : b.host.aspmL1 = a.host.aspmL1 := congrArg (·.2.2.2.2.2.2) h

end Reads

theorem Engine.view_setTrace (e : Engine) (u : Nat) (x : Trace) : (e.setTrace u x).view keep = e.view keep := rfl

theorem Engine.view_setLoop (e : Engine) (l : Nat) (x : LoopState) : (e.setLoop l x).view keep = e.view keep := rfl

theorem Engine.enabledLoops_lt {lo n l : Nat} (h : l ∈ a.enabledLoops lo n) : l < lo + n := by
  simp only [Engine.enabledLoops, List.mem_filter, List.mem_map, List.mem_range] at h
  omega

end Views

/-! The loops and the trace units: entries of 3100h to 3213h -/

section Loops

variable {keep : Nat → Bool} (hctl : ∀ i, 0x3000 ≤ i → i < 0x3500 → keep i = false) {e : Engine}
include hctl

theorem Engine.view_put_ctl {i j : Nat} (v : Nat) (hj : j < 256) (hlo : 0x3000 ≤ i) (hhi : i < 0x3500) :
    (e.put i j v).view keep = e.view keep := e.view_put v hj (hctl i hlo hhi)

theorem Engine.view_put_trace {u j : Nat} (v : Nat) (hu : u < 4) (hj : j < 256) :
    (e.put (traceIdx u) j v).view keep = e.view keep :=
  Engine.view_put_ctl hctl v hj (by unfold traceIdx; omega) (by unfold traceIdx; omega)

theorem Engine.traceTrig_view {u : Nat} (hu : u < 4) : (e.traceTrig u).view keep = e.view keep := by
  rw [Engine.traceTrig]
  split_ifs
  · simp (disch := omega) only [Engine.view_setTrace, Engine.view_put_trace hctl _ hu]
  · rfl

theorem Engine.tracePublish_view {u : Nat} (hu : u < 4) : (e.tracePublish u).view keep = e.view keep := by
  simp (disch := omega) only [Engine.tracePublish, Engine.view_put_trace hctl _ hu]

theorem Engine.traceSample_view {u : Nat} (hu : u < 4) (v : Int) : (e.traceSample u v).view keep = e.view keep := by
  have htrig : (if e.traceCross u v then e.traceTrig u else e).view keep = e.view keep := by
    split_ifs
    · exact Engine.traceTrig_view hctl hu
    · rfl
  rw [← htrig]
  simp only [Engine.traceSample]
  generalize (if e.traceCross u v then e.traceTrig u else e) = x
  split_ifs <;>
    simp (disch := omega) only [Engine.bump, Engine.view_put_trace hctl _ hu, Engine.view_setTrace,
      Engine.tracePublish_view hctl hu]

theorem Engine.traceEvent_view (kind idx code : Nat) (p : Nat → Bool) :
    (e.traceEvent kind idx code p).view keep = e.view keep := by
  rw [Engine.traceEvent]
  refine Engine.each_keeps_mem e (Engine.view keep) _ fun x u hu => ?_
  have hunit : u < 4 := mem_four.mp hu
  dsimp only
  split_ifs
  · rfl
  · exact Engine.traceSample_view hctl hunit _
  · rfl

theorem Engine.traceEnd_view {u : Nat} (hu : u < 4) (st : Nat) : (e.traceEnd u st).view keep = e.view keep := by
  rw [Engine.traceEnd]
  split_ifs
  · simp (disch := omega) only [Engine.tracePublish_view hctl hu, Engine.view_setTrace, Engine.view_put_trace hctl _ hu]
  · rfl

theorem Engine.stick_view {idx sub : Nat} (i : Nat) (on : Bool) (hlo : 0x3000 ≤ idx) (hhi : idx < 0x3500) (hsub : sub < 256) :
    (e.stick idx sub i on).view keep = e.view keep := by
  rw [Engine.stick]
  split_ifs
  · exact Engine.view_put_ctl hctl _ hsub hlo hhi
  · rfl

theorem Engine.setLoopOut_view {l : Nat} (hl : l < 192) (out : Bool) : (e.setLoopOut l out).view keep = e.view keep := by
  rw [Engine.setLoopOut]
  split_ifs
  · rfl
  · simp (disch := omega) only [Engine.view_setLoop, Engine.wrap, Engine.view_put_ctl hctl]

theorem Engine.driveLoop_view {l : Nat} (hl : l < 192) : (e.driveLoop l).view keep = e.view keep := by
  have hdrive : ∀ (x : Engine) (c : Control), Engine.view keep { x with ctl := c } = x.view keep := fun _ _ => rfl
  simp only [Engine.driveLoop]
  split_ifs <;> simp (disch := omega) only [hdrive, Engine.view_put_ctl hctl]

theorem Engine.driveTrace_view {l : Nat} (hl : l < 192) : ((e.driveLoop l).traceLoop l).view keep = e.view keep :=
  (Engine.traceEvent_view hctl _ _ _ _).trans (Engine.driveLoop_view hctl hl)

theorem Engine.evalLoop_view {l : Nat} (hl : l < 192) : (e.evalLoop l).view keep = e.view keep := by
  simp only [Engine.evalLoop]
  split_ifs <;>
    simp (disch := omega) only [Engine.driveTrace_view hctl, Engine.driveLoop_view hctl, Engine.setLoopOut_view hctl,
      Engine.putI, Engine.view_put_ctl hctl, Engine.stick_view hctl, Engine.view_setLoop]

/-- R253: an extra evaluation changes the loops, their outputs and the trace units alone. -/
theorem Engine.reEval_view : e.reEval.view keep = e.view keep := by
  rw [Engine.reEval]
  refine Engine.each_keeps_mem e (Engine.view keep) _ fun x l hl => ?_
  split_ifs
  · rfl
  · exact Engine.evalLoop_view hctl (Engine.enabledLoops_lt hl)

/-- R238: the stop ramp changes the axes and the sweep in progress alone. -/
theorem Engine.stopAxis_view {a : Nat} (ha : a < 8) (fault halt : Bool) : (e.stopAxis a fault halt).view keep = e.view keep := by
  have haxis : ∀ (e : Engine) (x : Axis), (e.setAxis a x).view keep = e.view keep := fun _ _ => rfl
  simp only [Engine.stopAxis]
  split_ifs <;> simp (disch := omega) only [haxis, Engine.view_put_ctl hctl]

theorem Engine.stopAll_view (halt : Bool) : (e.stopAll halt).view keep = e.view keep := by
  have haxes : (e.each (List.range 8) (fun e a => e.stopAxis a false halt)).view keep = e.view keep :=
    Engine.each_keeps_mem e (Engine.view keep) _ fun _ _ ha => Engine.stopAxis_view hctl (List.mem_range.mp ha) _ _
  refine Eq.trans ?_ haxes
  delta Engine.stopAll
  generalize e.each (List.range 8) (fun e a => e.stopAxis a false halt) = x
  dsimp only
  split
  · exact Engine.view_of_slices rfl rfl rfl rfl rfl rfl
  · rfl

/-- R219: a drop-watch run that ends changes its own entries alone. -/
theorem Engine.endWatch_view (st : Nat) : (e.endWatch st).view keep = e.view keep := by
  rw [Engine.endWatch]
  split_ifs
  · exact Engine.view_put_ctl hctl st (by decide) (by decide) (by decide)
  · rfl

end Loops

/-! Self-refresh: entries of 4001h and of the channels -/

/-- R288: entering or leaving self-refresh changes the entries and the training of the DRAM alone. -/
theorem Engine.refreshSr_view {keep : Nat → Bool} (hdram : ∀ i, 0x4000 ≤ i → i < 0x4020 → keep i = false) (e : Engine) :
    e.refreshSr.view keep = e.view keep := by
  have hput : ∀ (x : Engine) {i j : Nat} (v : Nat), j < 256 → 0x4000 ≤ i → i < 0x4020 → (x.put i j v).view keep = x.view keep :=
    fun x i _ v hj hlo hhi => x.view_put v hj (hdram i hlo hhi)
  have hchan : ∀ (x : Engine) (c : Nat) (y : Channel), (x.setChan c y).view keep = x.view keep := fun _ _ _ => rfl
  simp only [Engine.refreshSr]
  split_ifs
  · rfl
  · refine (Engine.each_keeps_mem _ (Engine.view keep) _ fun x c hc => ?_).trans (hput e _ (by decide) (by decide) (by decide))
    have hlt := mem_four.mp hc
    split_ifs
    · exact hput x _ (by decide) (by omega) (by omega)
    · rfl
  · rfl
  · refine (Engine.each_keeps_mem _ (Engine.view keep) _ fun x c hc => ?_).trans (hput e _ (by decide) (by decide) (by decide))
    have hlt := mem_four.mp hc
    split_ifs <;> simp (disch := omega) only [hchan, Engine.wrap, hput]

/-! The hold causes: entries 2200h:02h and :03h, 5000h:0Eh and the axes -/

section Holds

variable {keep : Nat → Bool} (hjob : keep 0x2200 = false) (hpeers : keep 0x5000 = false)
  (haxes : ∀ i, 0x3000 ≤ i → i < 0x3500 → keep i = false) {e : Engine}

include hjob in
theorem Engine.setHold_view (i : Nat) (on : Bool) : (e.setHold i on).view keep = e.view keep := e.view_put _ (by decide) hjob

include hjob haxes in
theorem Engine.toHeld_view : e.toHeld.view keep = e.view keep := by
  refine (Engine.each_keeps_mem _ (Engine.view keep) _ fun x a ha => ?_).trans (e.view_put _ (by decide) hjob)
  have hlt : a < 2 := List.mem_range.mp (show a ∈ List.range 2 from ha)
  dsimp only
  split_ifs
  · exact Engine.view_put_ctl haxes _ (by decide) (by omega) (by omega)
  · rfl

include hjob haxes in
theorem Engine.toBoundary_view : e.toBoundary.view keep = e.view keep := by
  have hclose : ∀ (x : Engine) p, (x.closeWindows p).view keep = x.view keep := fun _ _ => rfl
  refine (hclose _ _).trans ((Engine.each_keeps_mem _ (Engine.view keep) _ fun x a ha => ?_).trans (e.view_put _ (by decide) hjob))
  have hlt : a < 2 := List.mem_range.mp (show a ∈ List.range 2 from ha)
  exact Engine.view_put_ctl haxes _ (by decide) (by omega) (by omega)

include hjob hpeers

theorem Engine.setPeerHold_view (is : List Nat) : (e.setPeerHold is).view keep = e.view keep :=
  (Engine.view_put _ _ (by decide) hpeers).trans (Engine.setHold_view hjob _ _)

theorem Engine.autoHolds_view : e.autoHolds.view keep = e.view keep := by
  simp only [Engine.autoHolds, Engine.setHold_view hjob, Engine.setPeerHold_view hjob hpeers]

include haxes

/-- R51, R52: the hold causes change the job's state, its causes, its peers and its axes alone. -/
theorem Engine.evalHolds_view : e.evalHolds.view keep = e.view keep := by
  simp only [Engine.evalHolds]
  split_ifs <;>
    simp only [Engine.setHold_view hjob, Engine.toHeld_view hjob haxes, Engine.toBoundary_view hjob haxes,
      Engine.autoHolds_view hjob hpeers]

end Holds

end Sys2Proof.Machine

/-! Power (R344, R346, R348): shedding stages entered and released. -/

namespace Sys2Proof.Machine

section Shedding

variable (e : Engine) (t0 : Trigger) (vin iin : Nat)

/-- The engine once a sample's trigger is present and published. -/
def Engine.powerTriggered : Engine := ((e.sampleInput vin iin).setTrigger t0 vin iin).publishTriggers

/-- R344: a trigger becomes present, and nothing else. -/
theorem Engine.setTrigger_eq : e.setTrigger t0 vin iin = { e with pwr := (e.setTrigger t0 vin iin).pwr } := by
  cases t0 with
  | pfail =>
    simp only [Engine.setTrigger]
    split_ifs <;> rfl
  | _ => rfl

theorem Engine.ent_setTrigger (k : Nat) : (e.setTrigger t0 vin iin).ent k = e.ent k := by
  rw [Engine.setTrigger_eq]
  rfl

theorem Engine.ent_sampleInput {k : Nat} (hk : k / 256 ≠ 0x4200) : (e.sampleInput vin iin).ent k = e.ent k := by
  simp only [Engine.sampleInput]
  iterate 4 rw [Engine.ent_put_otherIndex _ _ (by decide) hk]

/-- R343: VIN, IIN, the power and the lowest VIN are the entries of a sample. -/
theorem Engine.get_sampleInput_other {j : Nat} (hj : j < 256) (hother : j = 0 ∨ j = 4 ∨ j = 5 ∨ 7 ≤ j) :
    (e.sampleInput vin iin).get 0x4200 j = e.get 0x4200 j := by
  simp only [Engine.sampleInput]
  iterate 4 rw [Engine.get_put_other _ (by decide) hj (by omega)]

theorem Engine.sampleInput_stage : (e.sampleInput vin iin).stage = e.stage :=
  e.get_sampleInput_other vin iin (by decide) (by decide)

theorem Engine.get_sampleInput : (e.sampleInput vin iin).get 0x4200 1 = vin ∧ (e.sampleInput vin iin).get 0x4200 2 = iin ∧
    (e.sampleInput vin iin).get 0x4200 3 = vin * iin / 1000 := by
  simp only [Engine.sampleInput]
  refine ⟨?_, ?_, ?_⟩
  · iterate 3 rw [Engine.get_put_other _ (by decide) (by decide) (by decide)]
    exact Engine.get_put_same _ _ _ _
  · iterate 2 rw [Engine.get_put_other _ (by decide) (by decide) (by decide)]
    exact Engine.get_put_same _ _ _ _
  · rw [Engine.get_put_other _ (by decide) (by decide) (by decide)]
    exact Engine.get_put_same _ _ _ _

theorem Engine.powerTriggered_pwr : (e.powerTriggered t0 vin iin).pwr = ((e.sampleInput vin iin).setTrigger t0 vin iin).pwr := rfl

theorem Engine.ent_powerTriggered {k : Nat} (hk : k ≠ ekey 0x4200 5) :
    (e.powerTriggered t0 vin iin).ent k = (e.sampleInput vin iin).ent k :=
  (Engine.ent_put_other hk).trans (Engine.ent_setTrigger _ _ _ _ _)

theorem Engine.get_powerTriggered {j : Nat} (hj : j ≠ 5) :
    (e.powerTriggered t0 vin iin).get 0x4200 j = (e.sampleInput vin iin).get 0x4200 j :=
  e.ent_powerTriggered t0 vin iin fun hkey => hj ((ekey_same_index _ _ _).mp hkey)

theorem Engine.powerTriggered_stage : (e.powerTriggered t0 vin iin).stage = e.stage :=
  (e.get_powerTriggered t0 vin iin (by decide)).trans (e.sampleInput_stage vin iin)

variable {e t0 vin iin} {q : Power} (hq : q = ((e.sampleInput vin iin).setTrigger t0 vin iin).pwr)
include hq

/-- R344: a trigger no deeper than the stage in force leaves the stage. -/
theorem Engine.shedEntry_shallow (hshallow : q.asked ≤ e.stage) : e.shedEntry t0 vin iin = e.powerTriggered t0 vin iin := by
  refine if_pos ?_
  change (e.powerTriggered t0 vin iin).pwr.asked ≤ (e.powerTriggered t0 vin iin).stage
  rwa [Engine.powerTriggered_pwr, Engine.powerTriggered_stage, ← hq]

/-- R344: a deeper one brings every stage up to it. -/
theorem Engine.shedEntry_deeper (hdeeper : e.stage < q.asked) :
    e.shedEntry t0 vin iin = (((e.powerTriggered t0 vin iin).put 0x4200 4 q.asked).each
      ((List.range (q.asked - e.stage)).map (· + e.stage + 1)) Engine.enterStage).evalHolds := by
  have hentry : e.shedEntry t0 vin iin =
      if (e.powerTriggered t0 vin iin).pwr.asked ≤ (e.powerTriggered t0 vin iin).stage then e.powerTriggered t0 vin iin
      else (((e.powerTriggered t0 vin iin).put 0x4200 4 (e.powerTriggered t0 vin iin).pwr.asked).each
        ((List.range ((e.powerTriggered t0 vin iin).pwr.asked - (e.powerTriggered t0 vin iin).stage)).map
          (· + (e.powerTriggered t0 vin iin).stage + 1)) Engine.enterStage).evalHolds := rfl
  rw [hentry, Engine.powerTriggered_pwr, Engine.powerTriggered_stage, ← hq, if_neg (Nat.not_le.mpr hdeeper)]

end Shedding

/-! The release of a stage (R346, R348) -/

section Release

variable (e : Engine) {k vin iin : Nat}

/-- The engine with stage `k`'s triggers absent and the stage above it published. -/
def Engine.released (e : Engine) (k vin iin : Nat) : Engine :=
  (Engine.put { e.sampleInput vin iin with pwr := e.pwr.clear k } 0x4200 4 (k - 1)).publishTriggers

theorem Engine.released_stage : (e.released k vin iin).stage = k - 1 :=
  (Engine.get_put_other _ (by decide) (by decide) (by decide)).trans (Engine.get_put_same _ _ _ _)

theorem Engine.released_pwr : (e.released k vin iin).pwr = e.pwr.clear k := rfl

theorem Engine.get_setPower (p : Power) (i j : Nat) : Engine.get { e with pwr := p } i j = e.get i j := rfl

theorem Engine.get_released_fault {j : Nat} (hj : j < 256) : (e.released k vin iin).get 0x4100 j = e.get 0x4100 j := by
  rw [Engine.released, Engine.publishTriggers, Engine.get_put_other _ (by decide) hj (by simp),
    Engine.get_put_other _ (by decide) hj (by simp), Engine.get_setPower]
  exact e.ent_sampleInput vin iin (by rw [ekey_div_index hj]; decide)

theorem Engine.releases_sampleInput (k' v i : Nat) : (e.sampleInput vin iin).releases k' v i = e.releases k' v i := by
  have hent : ∀ idx j, idx ≠ 0x4200 → j < 256 → (e.sampleInput vin iin).get idx j = e.get idx j := fun idx j hidx hj =>
    e.ent_sampleInput vin iin (by rwa [ekey_div_index hj])
  have hfew : (e.sampleInput vin iin).fewSensors = e.fewSensors := by
    simp (disch := decide) only [Engine.fewSensors, hent]
  have hpwr : (e.sampleInput vin iin).pwr = e.pwr := rfl
  have hinp : ∀ n, (e.sampleInput vin iin).inp n = e.inp n := fun _ => rfl
  simp (disch := decide) only [Engine.releases, Engine.getI, hent, hfew, hpwr, hinp]
  rfl

theorem Engine.stageRelease_keeps (h : e.stage ≠ k ∨ e.releases k vin iin = false) :
    e.stageRelease k vin iin = e.sampleInput vin iin :=
  if_pos (h.imp (fun hstage => by rwa [Engine.sampleInput_stage])
    fun hrel => by rw [Engine.releases_sampleInput, hrel]; rfl)

theorem Engine.stageRelease_releases (hstage : e.stage = k) (hrel : e.releases k vin iin = true) :
    e.stageRelease k vin iin = ((e.released k vin iin).unshed k).reEval.evalHolds :=
  if_neg (by rw [Engine.sampleInput_stage, Engine.releases_sampleInput, hrel]; simp [hstage])

/-- R346: what a release gives back leaves the power entries and the faults alone. -/
theorem Engine.unshed_view {keep : Nat → Bool} (hdram : ∀ i, 0x4000 ≤ i → i < 0x4020 → keep i = false)
    (hdie : keep 0x4211 = false) (hproof : keep 0x2471 = false) : (e.unshed k).view keep = e.view keep := by
  have hlink : ∀ (x : Engine) (on : Bool), Engine.view keep { x with host.inL1 := on } = x.view keep := fun _ _ => rfl
  have hclose : ∀ (x : Engine) p, (x.closeWindows p).view keep = x.view keep := fun _ _ => rfl
  have hproofPut : ∀ (x : Engine) v, (x.put 0x2471 2 v).view keep = x.view keep := fun x v => x.view_put v (by decide) hproof
  have hdiePut : ∀ (x : Engine) v, (x.put 0x4211 8 v).view keep = x.view keep := fun x v => x.view_put v (by decide) hdie
  simp only [Engine.unshed]
  split_ifs <;> simp only [hclose, Engine.refreshSr_view hdram, hproofPut, hdiePut, hlink]

end Release

section Stages

variable {s : State} {t0 : Trigger} {vin iin : BitVec 16} {k : Fin 5}

theorem becomes_sheddingStageEntry (hlive : s.e.live = true) :
    Becomes (.sheddingStageEntry t0 vin iin) s (s.e.shedEntry t0 vin.toNat iin.toNat) :=
  becomes_of_whenLive (f := fun e => e.shedEntry t0 vin.toNat iin.toNat) rfl hlive

theorem becomes_sheddingStageRelease (hlive : s.e.live = true) :
    Becomes (.sheddingStageRelease k vin iin) s (s.e.stageRelease (k.val + 1) vin.toNat iin.toNat) :=
  becomes_of_whenLive (f := fun e => e.stageRelease (k.val + 1) vin.toNat iin.toNat) rfl hlive

/-- The entries that say what power does: 4200h, and 4100h of the faults. -/
def keepsPower (i : Nat) : Bool := i == 0x4200 || i == 0x4100

theorem keepsPower_ctl (i : Nat) (hlo : 0x3000 ≤ i) (hhi : i < 0x3500) : keepsPower i = false := by
  simp only [keepsPower, Bool.or_eq_false_iff, beq_eq_false_iff_ne]
  omega

theorem keepsPower_dram (i : Nat) (hlo : 0x4000 ≤ i) (hhi : i < 0x4020) : keepsPower i = false := by
  simp only [keepsPower, Bool.or_eq_false_iff, beq_eq_false_iff_ne]
  omega

theorem Engine.unshed_view_power (e : Engine) (n : Nat) : (e.unshed n).view keepsPower = e.view keepsPower :=
  e.unshed_view keepsPower_dram rfl rfl

/-- R344: a first VIN from 13 V to below 16 V asks for stage 1. -/
theorem Engine.asked_sag {e : Engine} (hsag : e.pwr.sag = 0) (hcurrent : e.pwr.current = false) (hpfail : e.pwr.pfail = 0)
    (hhot : e.pwr.dieHot = false) (hcrit : e.pwr.dieCrit = false) (hconverter : e.pwr.converter = false) {v i : Nat}
    (hlow : 13000 ≤ v) (hhigh : v < 16000) :
    ((e.sampleInput v i).setTrigger .voltage v i).pwr = { e.pwr with sag := 1 } ∧
      Power.asked { e.pwr with sag := 1 } = 1 := by
  have hstage : voltageStage v = 1 := by
    unfold voltageStage
    split_ifs <;> omega
  refine ⟨?_, by simp [Power.asked, hcurrent, hpfail, hhot, hcrit, hconverter]⟩
  change { e.pwr with sag := max e.pwr.sag (voltageStage v) } = _
  rw [hsag, hstage]
  rfl

theorem Engine.enterStage_one (e : Engine) : e.enterStage 1 = ((e.bump 0x4200 7 1).raise 0x0D 1 1).shed 1 :=
  congrArg (Engine.shed · 1) (if_neg (by decide))

/-- R344: from stage 0 to stage 1, stage 1 alone is entered. -/
theorem Engine.each_firstStage (e : Engine) :
    e.each ((List.range (1 - 0)).map (· + 0 + 1)) Engine.enterStage = ((e.bump 0x4200 7 1).raise 0x0D 1 1).shed 1 := by
  have hstages : (List.range (1 - 0)).map (· + 0 + 1) = [1] := rfl
  rw [hstages, Engine.each, List.foldl_cons, List.foldl_nil, Engine.enterStage_one]

/-- Settles O49: an entry by how deep it asks, a release by whether its conditions hold. -/
theorem sheddingStages : Obligations.SheddingStages := by
  intro s vin iin t0 q k hlive hq
  have hentry := becomes_sheddingStageEntry (t0 := t0) (vin := vin) (iin := iin) hlive
  have hrelease := becomes_sheddingStageRelease (vin := vin) (iin := iin) (k := k) hlive
  obtain ⟨hvin, hiin, hpower⟩ := s.e.get_sampleInput vin.toNat iin.toNat
  have hother : ∀ j, j / 256 ≠ 0x4200 → (s.e.powerTriggered t0 vin.toNat iin.toNat).ent j = s.e.ent j := fun j hj =>
    (s.e.ent_powerTriggered _ _ _ fun hkey => hj (by rw [hkey]; rfl)).trans (s.e.ent_sampleInput _ _ hj)
  refine ⟨fun hshallow => ?_, fun hdeeper => ?_, ?_, fun hkept => ?_, fun hstage hrel => ?_⟩
  · rw [Engine.shedEntry_shallow hq hshallow] at hentry
    refine hentry.completes ⟨s.e.powerTriggered_stage _ _ _, ?_, ?_, ?_, hq.symm, hother⟩
    · rw [Engine.get_powerTriggered _ _ _ _ (by decide), hvin]
    · rw [Engine.get_powerTriggered _ _ _ _ (by decide), hiin]
    · rw [Engine.get_powerTriggered _ _ _ _ (by decide), hpower]
  · rw [Engine.shedEntry_deeper hq hdeeper] at hentry
    refine hentry.completes_exists
      (fun e => (e.each ((List.range (q.asked - s.e.stage)).map (· + s.e.stage + 1)) Engine.enterStage).evalHolds)
      ⟨Engine.get_put_same _ _ _ _, ?_, hq.symm, fun j hj => ?_⟩
    · rw [Engine.get_put_other _ (by decide) (by decide) (by decide), Engine.get_powerTriggered _ _ _ _ (by decide), hvin]
    · exact (Engine.ent_put_otherIndex _ _ (by decide) hj).trans (hother j hj)
  · rintro rfl hsag hcurrent hpfail hhot hcrit hconverter hnone hlow hhigh
    obtain ⟨hpwr, hasked⟩ := Engine.asked_sag (i := iin.toNat) hsag hcurrent hpfail hhot hcrit hconverter hlow hhigh
    have hdeeper : s.e.stage < Power.asked { s.e.pwr with sag := 1 } := by rw [hasked, hnone]; decide
    rw [Engine.shedEntry_deeper hpwr.symm hdeeper, hasked, hnone, Engine.each_firstStage] at hentry
    refine hentry.completes_exists (fun e => ((e.raise 0x0D 1 1).shed 1).evalHolds) ⟨?_, ?_, ?_⟩
    · exact (Engine.get_bump_other (by decide) (by decide) (by decide)).trans (Engine.get_put_same _ _ _ _)
    · rw [Engine.get_bump_other (by decide) (by decide) (by decide), Engine.get_put_other _ (by decide) (by decide) (by decide)]
      refine (Engine.get_put_same _ _ _ _).trans ?_
      rw [hpwr]
      simp only [hcurrent, hpfail, hhot, hcrit, hconverter]
      rfl
    · rw [Engine.get_bump_same, Engine.get_put_other _ (by decide) (by decide) (by decide), Engine.get_powerTriggered _ _ _ _ (by decide),
        Engine.get_sampleInput_other _ _ _ (by decide) (by decide)]
  · rw [Engine.stageRelease_keeps _ hkept] at hrelease
    exact hrelease.completes ⟨s.e.sampleInput_stage _ _, hvin, rfl, fun j hj => s.e.ent_sampleInput _ _ hj⟩
  · rw [Engine.stageRelease_releases _ hstage hrel] at hrelease
    have hview := (s.e.released (k.val + 1) vin.toNat iin.toNat).unshed_view_power (k.val + 1)
    exact hrelease.completes_exists (fun e => e.reEval.evalHolds)
      ⟨(Engine.view_get hview rfl (by decide)).trans s.e.released_stage, Engine.view_pwr hview⟩

/-- Settles O60: what a release ends with leaves the faults and the power entries alone. -/
theorem stageReleaseIsSilent : Obligations.StageReleaseIsSilent := by
  intro s vin iin k hlive hstage hrel
  have hrelease := becomes_sheddingStageRelease (vin := vin) (iin := iin) (k := k) hlive
  rw [Engine.stageRelease_releases _ hstage hrel] at hrelease
  have hview : (((s.e.released (k.val + 1) vin.toNat iin.toNat).unshed (k.val + 1)).reEval.evalHolds).view keepsPower =
      (s.e.released (k.val + 1) vin.toNat iin.toNat).view keepsPower :=
    (Engine.evalHolds_view rfl rfl keepsPower_ctl).trans
      ((Engine.reEval_view keepsPower_ctl).trans (Engine.unshed_view_power _ _))
  refine hrelease.completes ⟨?_, ?_, ?_, ?_⟩
  · exact (Engine.view_log hview).trans rfl
  · exact (Engine.view_get hview rfl (by decide)).trans (s.e.get_released_fault (by decide))
  · exact (Engine.view_get hview rfl (by decide)).trans s.e.released_stage
  · refine (Engine.view_get hview rfl (by decide)).trans ?_
    rw [Engine.view_pwr hview]
    exact Engine.get_put_same _ _ _ _

end Stages

end Sys2Proof.Machine

/-! Clocks (R331-R337): a PLL that is lost, that searches and that locks. -/

namespace Sys2Proof.Machine

section Bits

/-- Setting or clearing a bit leaves every other one. -/
theorem bit_setBit_ne {v i j : Nat} (on : Bool) (hne : j ≠ i) : bit (setBit v i on) j = bit v j := by
  cases on with
  | true => exact bit_setBit_other hne
  | false =>
    by_cases hset : bit v i = true
    · have hge : 2 ^ i ≤ v := by
        rw [bit_eq_testBit] at hset
        exact Nat.ge_two_pow_of_testBit hset
      have hclear : setBit v i false = v - 2 ^ i := by simp [setBit, hset]
      have hback : setBit (v - 2 ^ i) i true = v := by
        have hfree : bit (v - 2 ^ i) i = false := by rw [← hclear, bit_setBit_same]
        simp [setBit, hfree, Nat.sub_add_cancel hge]
      rw [hclear]
      exact (bit_setBit_other hne).symm.trans (by rw [hback])
    · simp [setBit, hset]

/-- Bits that are set or cleared one after the other are so at the end. -/
theorem bit_foldl_setBit (on : Bool) (ds : List Nat) (v : Nat) {d : Nat} (hd : d ∈ ds) :
    bit (ds.foldl (fun v i => setBit v i on) v) d = on := by
  refine foldl_reaches (I := fun _ => True) (P := fun i v => bit v i = on) ds v trivial
    (fun v _ i _ => ⟨trivial, bit_setBit_same v i on, fun j hj => ?_⟩) d hd
  obtain rfl | hne := eq_or_ne j i
  · exact bit_setBit_same v j on
  · rwa [bit_setBit_ne on hne]

end Bits

/-! What a PLL's outputs on REF, and back, leave of the clock entries -/

section Plls

variable {e : Engine} {x k j : Nat}

/-- The clock entries: 4280h, and those of the PLLs. -/
def keepsClocks (i : Nat) : Bool := decide (0x4280 ≤ i)

theorem keepsClocks_ctl (i : Nat) (_ : 0x3000 ≤ i) (hhi : i < 0x3500) : keepsClocks i = false := by
  rw [keepsClocks, decide_eq_false_iff_not]
  omega

theorem keepsClocks_dram (i : Nat) (_ : 0x4000 ≤ i) (hhi : i < 0x4020) : keepsClocks i = false := by
  rw [keepsClocks, decide_eq_false_iff_not]
  omega

theorem keepsClocks_pll (k : Nat) : keepsClocks (pllIdx k) = true := by
  rw [keepsClocks, decide_eq_true_eq, pllIdx]
  omega

theorem headIdx_range {h : Nat} (hh : h < 128) : 0x2100 ≤ headIdx h ∧ headIdx h < 0x2180 := by
  unfold headIdx
  omega

theorem Engine.view_setHead {keep : Nat → Bool} (e : Engine) (h : Nat) (y : Head) : (e.setHead h y).view keep = e.view keep := rfl

/-- R185: suspending the receivers touches the heads alone. -/
theorem Engine.suspendReceivers_view {keep : Nat → Bool} (hheads : ∀ i, 0x2100 ≤ i → i < 0x2180 → keep i = false) (e : Engine) :
    e.suspendReceivers.view keep = e.view keep := by
  refine Engine.each_keeps_mem e (Engine.view keep) _ fun y h hh => ?_
  obtain ⟨hlo, hhi⟩ := headIdx_range (List.mem_range.mp hh)
  exact Engine.view_put _ _ (by decide) (hheads _ hlo hhi)

/-- R185: realigning the receivers touches the heads alone. -/
theorem Engine.realignReceivers_view {keep : Nat → Bool} (hheads : ∀ i, 0x2100 ≤ i → i < 0x2180 → keep i = false) (e : Engine) :
    e.realignReceivers.view keep = e.view keep := by
  refine Engine.each_keeps_mem e (Engine.view keep) _ fun y h hh => ?_
  obtain ⟨hlo, hhi⟩ := headIdx_range (List.mem_range.mp hh)
  have hput : ∀ (z : Engine) v, (z.put (headIdx h) 1 v).view keep = z.view keep := fun z v =>
    z.view_put v (by decide) (hheads _ hlo hhi)
  dsimp only
  split_ifs
  · rfl
  · exact hput _ _
  · rw [hput, Engine.view_setHead]

theorem keepsClocks_heads (i : Nat) (_ : 0x2100 ≤ i) (hhi : i < 0x2180) : keepsClocks i = false := by
  rw [keepsClocks, decide_eq_false_iff_not]
  omega

theorem Engine.pll_of_pwr {a b : Engine} (h : a.pwr = b.pwr) (k : Nat) : a.pll k = b.pll k := by
  rw [Engine.pll, h, Engine.pll]

theorem pllIdx_ne_clocks (k : Nat) : pllIdx k ≠ 0x4280 := by
  unfold pllIdx
  omega

theorem Engine.bit_setBypass (on : Bool) {d : Nat} (hd : d ∈ pllDomains x) : bit ((e.setBypass x on).get 0x4280 2) d = on := by
  rw [Engine.setBypass, Engine.get_put_same]
  exact bit_foldl_setBit on _ _ hd

theorem Engine.get_setBypass_pll (on : Bool) (hj : j < 256) : (e.setBypass x on).get (pllIdx k) j = e.get (pllIdx k) j :=
  e.get_put_other (by decide) hj (by simp [pllIdx_ne_clocks])

theorem Engine.get_setBypass_other (on : Bool) (hj : j ≠ 2) : (e.setBypass x on).get 0x4280 j = e.get 0x4280 j :=
  e.get_put_subindex _ hj

/-- The outputs of PLL x on REF, counted, and an armed divider reset abandoned (R334, R338). -/
def Engine.bypassed (e : Engine) (x : Nat) : Engine := ((e.setBypass x true).bump 0x4280 3 1).syncAbandon x

theorem Engine.get_syncAbandon {i : Nat} (hj : j < 256) (hother : i ≠ 0x4280 ∨ j ≠ 7) : (e.syncAbandon x).get i j = e.get i j := by
  rw [Engine.syncAbandon]
  split_ifs
  · exact e.get_put_other (by decide) hj (by omega)
  · rfl

theorem Engine.syncAbandon_pwr : (e.syncAbandon x).pwr = e.pwr := by
  rw [Engine.syncAbandon]
  split_ifs <;> rfl

theorem Engine.get_bypassed_pll (hj : j < 256) : (e.bypassed x).get (pllIdx k) j = e.get (pllIdx k) j := by
  rw [Engine.bypassed, Engine.get_syncAbandon hj (.inl (pllIdx_ne_clocks k)),
    Engine.get_bump_other (by decide) hj (.inl (pllIdx_ne_clocks k).symm), Engine.get_setBypass_pll true hj]

theorem Engine.get_bypassed_clkIn : (e.bypassed x).get 0x4280 5 = e.get 0x4280 5 := by
  rw [Engine.bypassed, Engine.get_syncAbandon (by decide) (by decide), Engine.get_bump_other (by decide) (by decide) (by decide),
    Engine.get_setBypass_other true (by decide)]

theorem Engine.bit_bypassed {d : Nat} (hd : d ∈ pllDomains x) : bit ((e.bypassed x).get 0x4280 2) d = true := by
  rw [Engine.bypassed, Engine.get_syncAbandon (by decide) (by decide), Engine.get_bump_other (by decide) (by decide) (by decide),
    Engine.bit_setBypass true hd]

/-- R179, R334: what follows the switch to REF leaves the clock entries and the PLLs alone. -/
theorem Engine.toRef_view : (e.toRef x).view keepsClocks = (e.bypassed x).view keepsClocks := by
  have hsuspend := (e.bypassed x).suspendReceivers_view keepsClocks_heads
  rw [Engine.toRef, ← Engine.bypassed]
  generalize e.bypassed x = y at hsuspend ⊢
  dsimp only
  split_ifs
  · exact y.refreshSr_view keepsClocks_dram
  · rw [← hsuspend]
    generalize y.suspendReceivers = z
    split
    · split_ifs
      · rfl
      · exact Engine.view_of_slices rfl rfl rfl rfl rfl rfl
    · rfl
  · rfl

theorem Engine.get_toRef_pll (hj : j < 256) : (e.toRef x).get (pllIdx k) j = e.get (pllIdx k) j :=
  (Engine.view_get Engine.toRef_view (keepsClocks_pll k) hj).trans (Engine.get_bypassed_pll hj)

theorem Engine.get_toRef_clkIn : (e.toRef x).get 0x4280 5 = e.get 0x4280 5 :=
  (Engine.view_get Engine.toRef_view rfl (by decide)).trans Engine.get_bypassed_clkIn

theorem Engine.bit_toRef {d : Nat} (hd : d ∈ pllDomains x) : bit ((e.toRef x).get 0x4280 2) d = true := by
  rw [Engine.view_get Engine.toRef_view rfl (by decide)]
  exact Engine.bit_bypassed hd

theorem Engine.pll_toRef : (e.toRef x).pll k = e.pll k :=
  Engine.pll_of_pwr ((Engine.view_pwr Engine.toRef_view).trans Engine.syncAbandon_pwr) k

/-- A PLL in the state of its loss: 3 for lock, 4 for the reference, and counted. -/
def Engine.pllDown (e : Engine) (x cause : Nat) : Engine :=
  ((e.put (pllIdx x) 1 (2 + cause)).bump (pllIdx x) (5 + cause) 1).setPll x { e.pll x with searching := false, declared := false }

theorem Engine.pllLost_eq (cause : Nat) : e.pllLost x cause = ((e.pllDown x cause).toRef x).raise 0x0C 1 (4 * cause + x) := rfl

@[simp] theorem Engine.get_setPll (y : Pll) (i : Nat) : (e.setPll x y).get i j = e.get i j := rfl

@[simp] theorem Engine.ent_setPll (y : Pll) : (e.setPll x y).ent k = e.ent k := rfl

theorem Engine.get_pllDown {cause : Nat} (hcause : 1 ≤ cause) (hsmall : cause ≤ 2) :
    ((e.pllDown x cause).toRef x).get (pllIdx x) 1 = 2 + cause ∧
      ((e.pllDown x cause).toRef x).get (pllIdx x) (5 + cause) =
        satAdd (entBits (pllIdx x) (5 + cause)) (e.get (pllIdx x) (5 + cause)) 1 := by
  rw [Engine.get_toRef_pll (by decide), Engine.get_toRef_pll (by omega), Engine.pllDown, Engine.get_setPll, Engine.get_setPll,
    Engine.get_bump_other (by omega) (by decide) (by omega), Engine.get_put_same, Engine.get_bump_same,
    Engine.get_put_subindex _ _ (by omega)]
  exact ⟨rfl, rfl⟩

theorem Engine.get_pllDown_clkIn (cause : Nat) (hcause : cause ≤ 2) : ((e.pllDown x cause).toRef x).get 0x4280 5 = e.get 0x4280 5 := by
  rw [Engine.get_toRef_clkIn, Engine.pllDown, Engine.get_setPll,
    Engine.get_bump_other (by omega) (by decide) (.inl (pllIdx_ne_clocks x)),
    Engine.get_put_other _ (by decide) (by decide) (by simp [(pllIdx_ne_clocks x).symm])]

/-! A search -/

theorem Engine.bit_pllSearch {d : Nat} (hd : d ∈ pllDomains x) : bit ((e.pllSearch x).get 0x4280 2) d = true := by
  rw [Engine.pllSearch, Engine.get_setPll]
  exact Engine.bit_setBypass true hd

/-- R331: a search changes entries and PLLs alone. -/
theorem Engine.pllSearch_eq :
    e.pllSearch x = { e with d.dict := (e.pllSearch x).d.dict, pwr.plls := (e.pllSearch x).pwr.plls } := by
  rw [Engine.pllSearch]
  generalize hy : (e.put (pllIdx x) 1 1).setBypass x true = y
  obtain ⟨dict, hdict⟩ : ∃ dict, y = { e with d.dict := dict } := ⟨_, hy.symm⟩
  rw [hdict]
  rfl

theorem Engine.get_pllSearch_other {i : Nat} (hj : j < 256) (hpll : i ≠ pllIdx x ∨ j ≠ 1) (hclocks : i ≠ 0x4280 ∨ j ≠ 2) :
    (e.pllSearch x).get i j = e.get i j := by
  rw [Engine.pllSearch, Engine.get_setPll, Engine.setBypass, Engine.get_put_other _ (by decide) hj (by omega),
    Engine.get_put_other _ (by decide) hj (by omega)]

end Plls

section Losses

variable {s : State} {x o : Fin 3}

theorem becomes_pllLossOfLock (hlive : s.e.live = true) : Becomes (.pllLossOfLock x) s (s.e.lossOfLock x.val) :=
  becomes_of_whenLive (f := fun e => e.lossOfLock x.val) rfl hlive

theorem becomes_pllLossOfReference (hlive : s.e.live = true) :
    Becomes (.pllLossOfReference x) s (s.e.lossOfReference x.val) :=
  becomes_of_whenLive (f := fun e => e.lossOfReference x.val) rfl hlive

theorem becomes_pllRelockStart (hlive : s.e.live = true) :
    Becomes (.pllRelockStart x) s (if s.e.get (pllIdx x.val) 1 = 3 then s.e.pllSearch x.val else s.e) :=
  becomes_of_whenLive (f := fun e => if e.get (pllIdx x.val) 1 = 3 then e.pllSearch x.val else e) rfl hlive

theorem becomes_clkInGood (hlive : s.e.live = true) : Becomes (.clkInGood x) s (s.e.clkInBack x.val) :=
  becomes_of_whenLive (f := fun e => e.clkInBack x.val) rfl hlive

theorem becomes_pllLossOfLock_other (hlive : s.e.live = true) (hstate : s.e.get (pllIdx x.val) 1 ≠ 2) :
    Becomes (.pllLossOfLock x) s s.e := by
  have hloss := becomes_pllLossOfLock (x := x) hlive
  rwa [Engine.lossOfLock, if_neg hstate] at hloss

theorem raises_pllLossOfLock (hlive : s.e.live = true) (hstate : s.e.get (pllIdx x.val) 1 = 2) :
    Raises (.pllLossOfLock x) s (fun e => e.get (pllIdx x.val) 1 = 3 ∧
      e.get (pllIdx x.val) 6 = satAdd (entBits (pllIdx x.val) 6) (s.e.get (pllIdx x.val) 6) 1 ∧
      ∀ d, d ∈ pllDomains x.val → bit (e.get 0x4280 2) d = true) 0x0C 1 (4 + x.val) := by
  have hloss := becomes_pllLossOfLock (x := x) hlive
  rw [Engine.lossOfLock, if_pos hstate, Engine.pllLost_eq] at hloss
  obtain ⟨hdown, hcount⟩ := Engine.get_pllDown (e := s.e) (x := x.val) (cause := 1) (by decide) (by decide)
  exact hloss.raises ⟨hdown, hcount, fun d hd => Engine.bit_toRef hd⟩

theorem raises_pllLossOfReference (hlive : s.e.live = true) (hin : (s.e.pll x.val).clkIn = true)
    (hlo : 1 ≤ s.e.get (pllIdx x.val) 1) (hhi : s.e.get (pllIdx x.val) 1 ≤ 3) :
    Raises (.pllLossOfReference x) s (fun e => e.get (pllIdx x.val) 1 = 4 ∧
      e.get (pllIdx x.val) 7 = satAdd (entBits (pllIdx x.val) 7) (s.e.get (pllIdx x.val) 7) 1 ∧
      e.get 0x4280 5 = 2 ∧ ∀ d, d ∈ pllDomains x.val → bit (e.get 0x4280 2) d = true) 0x0C 1 (8 + x.val) := by
  have hloss := becomes_pllLossOfReference (x := x) hlive
  rw [Engine.lossOfReference, if_pos ⟨hin, hlo, hhi⟩, Engine.pllLost_eq] at hloss
  obtain ⟨hdown, hcount⟩ := Engine.get_pllDown (e := s.e.put 0x4280 5 2) (x := x.val) (cause := 2) (by decide) (by decide)
  rw [Engine.get_put_other _ (by decide) (by decide) (by simp [pllIdx_ne_clocks])] at hcount
  refine hloss.raises ⟨hdown, hcount, ?_, fun d hd => Engine.bit_toRef hd⟩
  rw [Engine.get_pllDown_clkIn _ (by decide), Engine.get_put_same]

/-- R334, R335: a PLL that is lost, and one that begins a new lock. -/
theorem clockLosses : Says.ClockLosses := by
  intro s x i hlive hi
  obtain rfl : i = pllIdx x.val := hi
  have hrelock := becomes_pllRelockStart (x := x) hlive
  have hgood := becomes_clkInGood (x := x) hlive
  refine ⟨becomes_pllLossOfLock_other hlive, raises_pllLossOfLock hlive, fun hout => ?_, raises_pllLossOfReference hlive,
    fun hstate => ?_, fun hstate => ?_, fun hnone => ?_, fun hsome hstate => ?_, fun hsome hstate => ?_⟩
  · have hloss := becomes_pllLossOfReference (x := x) hlive
    rwa [Engine.lossOfReference, if_neg (by simp [hout])] at hloss
  · rw [if_neg hstate] at hrelock
    exact hrelock
  · rw [if_pos hstate] at hrelock
    refine hrelock.completes ⟨?_, ?_, fun d hd => Engine.bit_pllSearch hd, fun k hk => ?_,
      congrArg (fun e => { s with e := e }) Engine.pllSearch_eq⟩
    · exact (s.e.get_pllSearch_state x.val x.val).trans (if_pos rfl)
    · exact (s.e.pll_pllSearch x.val x.val).trans (if_pos rfl)
    · exact (s.e.pll_pllSearch x.val k).trans (if_neg hk)
  · rwa [Engine.clkInBack, if_pos hnone] at hgood
  · have hother : (s.e.put 0x4280 5 1).get (pllIdx x.val) 1 ≠ 4 := by
      rwa [Engine.get_put_other _ (by decide) (by decide) (by simp [pllIdx_ne_clocks])]
    rw [Engine.clkInBack, if_neg hsome, if_neg hother] at hgood
    exact writes_of_put (i := 0x4280) (j := 5) hgood
  · have hlost : (s.e.put 0x4280 5 1).get (pllIdx x.val) 1 = 4 := by
      rwa [Engine.get_put_other _ (by decide) (by decide) (by simp [pllIdx_ne_clocks])]
    rw [Engine.clkInBack, if_neg hsome, if_pos hlost] at hgood
    refine hgood.completes ⟨?_, ?_, ?_⟩
    · exact (Engine.get_pllSearch_state _ x.val x.val).trans (if_pos rfl)
    · rw [Engine.get_pllSearch_other (by decide) (.inl (pllIdx_ne_clocks _).symm) (by decide), Engine.get_put_same]
    · rw [Engine.pll_pllSearch, if_pos rfl]

end Losses

end Sys2Proof.Machine

/-! PLLs that lock, and their commands (R331-R333, R335, R337). -/

namespace Sys2Proof.Machine

section Locking

variable {e : Engine} {x : Nat}

@[simp] theorem Engine.pll_put (i j v k : Nat) : (e.put i j v).pll k = e.pll k := rfl

theorem Engine.pll_setPll_same (y : Pll) : (e.setPll x y).pll x = y := (Engine.pll_setPll _ _ _ _).trans (if_pos rfl)

/-- The outputs of PLL x back on it, with what follows before the hold causes (R335). -/
def Engine.relocked (e : Engine) (x : Nat) : Engine :=
  let y := ((e.setPll x { e.pll x with declared := false }).put (pllIdx x) 1 2).setBypass x false
  let z := if x = 0 then y.refreshSr else if x = 1 then y.realignReceivers else y
  if z.pllsLocked ∧ z.pan.flight.isNone then z.closeWindows (fun w => w == .pll) else z

theorem Engine.lockConfirmed_locks (hstate : e.get (pllIdx x) 1 = 1) (hdeclared : (e.pll x).declared = true) :
    e.lockConfirmed x = (e.relocked x).evalHolds.clocksUp := if_pos ⟨hstate, hdeclared⟩

theorem Engine.lockConfirmed_undeclared (hdeclared : (e.pll x).declared = false) : e.lockConfirmed x = e :=
  if_neg fun ⟨_, h⟩ => Bool.false_ne_true (hdeclared.symm.trans h)

theorem Engine.relocked_view : (e.relocked x).view keepsClocks =
    (((e.setPll x { e.pll x with declared := false }).put (pllIdx x) 1 2).setBypass x false).view keepsClocks := by
  have hclose : ∀ (y : Engine) p, (y.closeWindows p).view keepsClocks = y.view keepsClocks := fun _ _ => rfl
  rw [Engine.relocked]
  generalize ((e.setPll x { e.pll x with declared := false }).put (pllIdx x) 1 2).setBypass x false = y
  split_ifs <;> simp only [hclose, Engine.refreshSr_view keepsClocks_dram, Engine.realignReceivers_view keepsClocks_heads]

/-- R335: a PLL whose lock is confirmed is in state 2, its domains back on it. -/
theorem Engine.relocked_locked : (e.relocked x).get (pllIdx x) 1 = 2 ∧ ((e.relocked x).pll x).declared = false ∧
    ∀ d, d ∈ pllDomains x → bit ((e.relocked x).get 0x4280 2) d = false := by
  refine ⟨?_, ?_, fun d hd => ?_⟩
  · rw [Engine.view_get Engine.relocked_view (keepsClocks_pll x) (by decide), Engine.get_setBypass_pll false (by decide),
      Engine.get_put_same]
  · rw [Engine.pll_of_pwr (Engine.view_pwr Engine.relocked_view), Engine.setBypass, Engine.pll_put, Engine.pll_put,
      Engine.pll_setPll_same]
  · rw [Engine.view_get Engine.relocked_view rfl (by decide)]
    exact Engine.bit_setBypass false hd

theorem Engine.lockDeclared_searching (hstate : e.get (pllIdx x) 1 = 1) (hsearch : (e.pll x).searching = true) (band us : Nat) :
    e.lockDeclared x band us =
      ((e.setPll x { e.pll x with searching := false, declared := true }).put (pllIdx x) 5 band).put (pllIdx x) 0x13 us :=
  if_pos ⟨hstate, hsearch⟩

theorem Engine.lockDeclared_idle (hsearch : (e.pll x).searching = false) (band us : Nat) : e.lockDeclared x band us = e :=
  if_neg fun ⟨_, h⟩ => Bool.false_ne_true (hsearch.symm.trans h)

theorem Engine.attemptFailed_searching (hstate : e.get (pllIdx x) 1 = 1) (hsearch : (e.pll x).searching = true) :
    e.attemptFailed x = (e.setPll x { e.pll x with searching := false }).bump (pllIdx x) 8 1 := if_pos ⟨hstate, hsearch⟩

theorem Engine.retryLock_searching (hsearch : (e.pll x).searching = true) : e.retryLock x = e :=
  if_neg fun ⟨_, h, _⟩ => by simp [hsearch] at h

theorem Engine.retryLock_again (hstate : e.get (pllIdx x) 1 = 1) (hsearch : (e.pll x).searching = false)
    (hdeclared : (e.pll x).declared = false) : e.retryLock x = e.setPll x { e.pll x with searching := true } :=
  if_pos ⟨hstate, by simp [hsearch], by simp [hdeclared]⟩

theorem Engine.relock_busy (h : e.jobState ≠ 0 ∨ e.idle ≠ 0) : e.relock x = e.refuse abState := if_pos h

theorem Engine.relock_invalid (hjob : e.jobState = 0) (hidle : e.idle = 0) (hpfd : e.pfdValid x = false) :
    e.relock x = e.refuse abValue := by
  rw [Engine.relock, if_neg (by simp [hjob, hidle]), if_pos (by simp [hpfd])]

/-- The divider and the source of PLL x, as written (R337). -/
def Engine.relockSet (e : Engine) (x : Nat) : Engine :=
  (e.put (pllIdx x) 4 (9600000 / e.twicePfd x)).setPll x { e.pll x with clkIn := e.get (pllIdx x) 2 == 1 }

theorem Engine.relock_begins (hjob : e.jobState = 0) (hidle : e.idle = 0) (hpfd : e.pfdValid x = true) :
    e.relock x = (((e.relockSet x).toRef x).pllSearch x).done := by
  rw [Engine.relock, if_neg (by simp [hjob, hidle]), if_neg (by simp [hpfd])]
  rfl

/-- R337: the search of a relock takes the divider and the source that are set. -/
theorem Engine.relock_search : (((e.relockSet x).toRef x).pllSearch x).get (pllIdx x) 1 = 1 ∧
    (((e.relockSet x).toRef x).pllSearch x).get (pllIdx x) 4 = 9600000 / e.twicePfd x ∧
    (((e.relockSet x).toRef x).pllSearch x).pll x =
      { searching := true, declared := false, clkIn := e.get (pllIdx x) 2 == 1 } := by
  refine ⟨?_, ?_, ?_⟩
  · rw [Engine.get_pllSearch_state, if_pos rfl]
  · rw [Engine.get_pllSearch_other (by decide) (.inr (by decide)) (.inr (by decide)), Engine.get_toRef_pll (by decide),
      Engine.relockSet, Engine.get_setPll, Engine.get_put_same]
  · rw [Engine.pll_pllSearch, if_pos rfl, Engine.pll_toRef, Engine.relockSet, Engine.pll_setPll_same]

theorem Engine.delayWrite_busy (hjob : e.jobState ≠ 0) (o v : Nat) : e.delayWrite x o v = e.refuse abState := if_pos hjob

theorem Engine.delayWrite_range {v : Nat} (hjob : e.jobState = 0) (hv : 63 < v) (o : Nat) :
    e.delayWrite x o v = e.refuse abValue := by
  rw [Engine.delayWrite, if_neg (not_not_intro hjob), if_pos hv]

theorem Engine.delayWrite_writes {v : Nat} (hjob : e.jobState = 0) (hv : v ≤ 63) (o : Nat) :
    e.delayWrite x o v = (e.put (pllIdx x) (0x0D + o) v).done := by
  rw [Engine.delayWrite, if_neg (not_not_intro hjob), if_neg (Nat.not_lt.mpr hv)]

theorem Engine.armSync_busy (hjob : e.jobState ≠ 0) : e.armSync = e.refuse abState := if_neg fun h => hjob h.1

theorem Engine.armSync_arms (hjob : e.jobState = 0)
    (hlocked : ∀ y, y < 3 → bit (e.get 0x4280 8) y = true → e.get (0x4281 + y) 1 = 2) :
    e.armSync = (e.put 0x4280 7 1).done := by
  refine if_pos ⟨hjob, List.all_eq_true.mpr fun y hy => ?_⟩
  have hlt : y < 3 := List.mem_range.mp (show y ∈ List.range 3 from hy)
  cases hsel : bit (e.get 0x4280 8) y with
  | false => rfl
  | true => exact beq_iff_eq.mpr (hlocked y hlt hsel)

end Locking

section LockCommands

variable {s : State} {x o : Fin 3}

theorem becomes_pllLockDeclared (hlive : s.e.live = true) (band : Fin 64) (us : BitVec 16) :
    Becomes (.pllLockDeclared x band us) s (s.e.lockDeclared x.val band.val us.toNat) :=
  becomes_of_whenLive (f := fun e => e.lockDeclared x.val band.val us.toNat) rfl hlive

theorem becomes_pllLockConfirmed (hlive : s.e.live = true) : Becomes (.pllLockConfirmed x) s (s.e.lockConfirmed x.val) :=
  becomes_of_whenLive (f := fun e => e.lockConfirmed x.val) rfl hlive

theorem becomes_pllAttemptFailed (hlive : s.e.live = true) : Becomes (.pllAttemptFailed x) s (s.e.attemptFailed x.val) :=
  becomes_of_whenLive (f := fun e => e.attemptFailed x.val) rfl hlive

theorem becomes_pllRetryTimer (hlive : s.e.live = true) : Becomes (.pllRetryTimer x) s (s.e.retryLock x.val) :=
  becomes_of_whenLive (f := fun e => e.retryLock x.val) rfl hlive

theorem becomes_pllRelock (hs : s.serves 3) : Becomes (.pllRelock x) s (s.e.relock x.val) :=
  becomes_of_request (idx := 0x4281) (f := fun e => e.relock x.val) rfl hs

theorem becomes_pllDelayWrite (hs : s.serves 3) (v : Byte) :
    Becomes (.pllDelayWrite x o v) s (s.e.delayWrite x.val o.val v.toNat) :=
  becomes_of_request (idx := 0x4281) (f := fun e => e.delayWrite x.val o.val v.toNat) rfl hs

theorem becomes_syncArm (hs : s.serves 3) : Becomes .syncArm s s.e.armSync :=
  becomes_of_request (idx := 0x4280) (f := fun e => e.armSync) rfl hs

theorem becomes_syncInEdge (hlive : s.e.live = true) :
    Becomes .syncInEdge s (if s.e.get 0x4280 7 = 1 then s.e.put 0x4280 7 2 else s.e) :=
  becomes_of_whenLive (f := fun e => if e.get 0x4280 7 = 1 then e.put 0x4280 7 2 else e) rfl hlive

theorem pllLockDeclared_completes (hlive : s.e.live = true) (hstate : s.e.get (pllIdx x.val) 1 = 1)
    (hsearch : (s.e.pll x.val).searching = true) (band : Fin 64) (us : BitVec 16) :
    Completes (.pllLockDeclared x band us) s (fun t =>
      t.e.get (pllIdx x.val) 5 = band.val ∧ t.e.get (pllIdx x.val) 0x13 = us.toNat ∧
      t.e.pll x.val = { s.e.pll x.val with searching := false, declared := true } ∧
      (∀ k, k ≠ ekey (pllIdx x.val) 5 → k ≠ ekey (pllIdx x.val) 0x13 → t.e.ent k = s.e.ent k)) := by
  have hdeclared := becomes_pllLockDeclared (x := x) hlive band us
  rw [Engine.lockDeclared_searching hstate hsearch] at hdeclared
  refine hdeclared.completes ⟨?_, Engine.get_put_same _ _ _ _, ?_, fun k hband htime => ?_⟩
  · rw [Engine.get_put_subindex _ _ (by decide), Engine.get_put_same]
  · rw [Engine.pll_put, Engine.pll_put, Engine.pll_setPll_same]
  · rw [Engine.ent_put_other htime, Engine.ent_put_other hband, Engine.ent_setPll]

theorem pllAttemptFailed_completes (hlive : s.e.live = true) (hstate : s.e.get (pllIdx x.val) 1 = 1)
    (hsearch : (s.e.pll x.val).searching = true) :
    Completes (.pllAttemptFailed x) s (fun t =>
      t.e.get (pllIdx x.val) 8 = satAdd (entBits (pllIdx x.val) 8) (s.e.get (pllIdx x.val) 8) 1 ∧
      t.e.pll x.val = { s.e.pll x.val with searching := false } ∧
      (∀ k, k ≠ ekey (pllIdx x.val) 8 → t.e.ent k = s.e.ent k)) := by
  have hfailed := becomes_pllAttemptFailed (x := x) hlive
  rw [Engine.attemptFailed_searching hstate hsearch] at hfailed
  refine hfailed.completes ⟨?_, ?_, fun k hk => ?_⟩
  · rw [Engine.get_bump_same, Engine.get_setPll]
  · rw [Engine.bump, Engine.pll_put, Engine.pll_setPll_same]
  · rw [Engine.ent_bump_other hk, Engine.ent_setPll]

theorem pllRelock_completes (hs : s.serves 3) (hjob : s.e.jobState = 0) (hidle : s.e.idle = 0)
    (hpfd : s.e.pfdValid x.val = true) :
    Completes (.pllRelock x) s (fun t => t.e.get (pllIdx x.val) 1 = 1 ∧
      t.e.get (pllIdx x.val) 4 = 9600000 / s.e.twicePfd x.val ∧
      t.e.pll x.val = { searching := true, declared := false, clkIn := s.e.get (pllIdx x.val) 2 == 1 } ∧ t.e.sdo = 0) := by
  have hrelock := becomes_pllRelock (x := x) hs
  rw [Engine.relock_begins hjob hidle hpfd] at hrelock
  obtain ⟨hstate, hdivider, hpll⟩ := Engine.relock_search (e := s.e) (x := x.val)
  exact hrelock.completes ⟨hstate, hdivider, hpll, rfl⟩

/-- R331-R333, R335, R337: a search that locks or fails, and the commands by the states they act in. -/
theorem clockLocking : Says.ClockLocking := by
  intro s x o i v hs hi
  obtain rfl : i = pllIdx x.val := hi
  have hlive : s.e.live = true := hs.1
  have hconfirmed := becomes_pllLockConfirmed (x := x) hlive
  have hretry := becomes_pllRetryTimer (x := x) hlive
  have hrelock := becomes_pllRelock (x := x) hs
  have hdelay := becomes_pllDelayWrite (x := x) (o := o) hs v
  have harm := becomes_syncArm hs
  have hedge := becomes_syncInEdge hlive
  refine ⟨fun band us hstate hsearch => pllLockDeclared_completes hlive hstate hsearch band us, fun band us hsearch => ?_,
    fun hdeclared => ?_, fun hstate hdeclared => ?_, pllAttemptFailed_completes hlive, fun hsearch => ?_,
    fun hstate hsearch hdeclared => ?_, fun hbusy => ?_, fun hjob hidle hpfd => ?_, pllRelock_completes hs, fun hjob => ?_,
    fun hjob hv => ?_, fun hjob hv => ?_, fun hjob => ?_, fun hjob hlocked => ?_, fun harmed => ?_, fun harmed => ?_⟩
  · have hdeclared := becomes_pllLockDeclared (x := x) hlive band us
    rw [Engine.lockDeclared_idle hsearch] at hdeclared
    exact hdeclared
  · rw [Engine.lockConfirmed_undeclared hdeclared] at hconfirmed
    exact hconfirmed
  · rw [Engine.lockConfirmed_locks hstate hdeclared] at hconfirmed
    exact hconfirmed.completes_exists (fun e => e.evalHolds.clocksUp) Engine.relocked_locked
  · rw [Engine.retryLock_searching hsearch] at hretry
    exact hretry
  · rw [Engine.retryLock_again hstate hsearch hdeclared] at hretry
    exact hretry.completes ⟨Engine.pll_setPll_same _, fun j hj => (Engine.pll_setPll _ _ _ _).trans (if_neg hj), rfl⟩
  · rw [Engine.relock_busy hbusy] at hrelock
    exact hrelock
  · rw [Engine.relock_invalid hjob hidle hpfd] at hrelock
    exact hrelock
  · rw [Engine.delayWrite_busy hjob] at hdelay
    exact hdelay
  · rw [Engine.delayWrite_range hjob hv] at hdelay
    exact hdelay
  · rw [Engine.delayWrite_writes hjob hv] at hdelay
    exact serves_of_put_done (i := pllIdx x.val) (j := 0x0D + o.val) hdelay
  · rw [Engine.armSync_busy hjob] at harm
    exact harm
  · rw [Engine.armSync_arms hjob hlocked] at harm
    exact serves_of_put_done (i := 0x4280) (j := 7) harm
  · rw [if_pos harmed] at hedge
    exact writes_of_put (i := 0x4280) (j := 7) hedge
  · rw [if_neg harmed] at hedge
    exact hedge

/-- Settles O47: the losses of a PLL, and its locking with its commands. -/
theorem clocksAndPlls : Obligations.ClocksAndPlls := ⟨clockLosses, clockLocking⟩

end LockCommands

end Sys2Proof.Machine

/-! Idle states (R350-R354): entered, woken from and left. -/

namespace Sys2Proof.Machine

section Enter

variable (e : Engine) {k : Nat}

/-- The power entries of the idle states and of the clocks. -/
def keepsIdle (i : Nat) : Bool := decide (0x4220 ≤ i)

theorem keepsIdle_low (i : Nat) (hhi : i < 0x4220) : keepsIdle i = false := by
  rw [keepsIdle, decide_eq_false_iff_not]
  omega

theorem keepsIdle_ctl (i : Nat) (_ : 0x3000 ≤ i) (hhi : i < 0x3500) : keepsIdle i = false := keepsIdle_low i (by omega)

theorem keepsIdle_heads (i : Nat) (_ : 0x2100 ≤ i) (hhi : i < 0x2180) : keepsIdle i = false := keepsIdle_low i (by omega)

theorem keepsIdle_dram (i : Nat) (_ : 0x4000 ≤ i) (hhi : i < 0x4020) : keepsIdle i = false := keepsIdle_low i (by omega)

theorem keepsIdle_pll (x : Nat) : keepsIdle (pllIdx x) = true := by
  rw [keepsIdle, decide_eq_true_eq, pllIdx]
  omega

/-- R255: IDLE_WARM follows the outputs by a command of the head, and touches nothing else. -/
theorem Engine.idleWarm_view (keep : Nat → Bool) (h : Nat) : (e.idleWarm h).view keep = e.view keep := by
  rw [Engine.idleWarm]
  split_ifs <;> rfl

theorem Engine.each_idleWarm_view (keep : Nat → Bool) (hs : List Nat) : (e.each hs Engine.idleWarm).view keep = e.view keep :=
  Engine.each_keeps e (Engine.view keep) hs fun x h => x.idleWarm_view keep h

/-- Idle state `k` is entered: the loops are off by it (R253). -/
def Engine.idleBegun (e : Engine) (k : Nat) : Engine := { e.put 0x4220 1 k with pwr.idleAt := e.now }

/-- What Dusk does, and every deeper state first. -/
def Engine.dusk (e : Engine) (k : Nat) : Engine := (e.idleBegun k).reEval.each (List.range 128) Engine.idleWarm

theorem Engine.dusk_view : (e.dusk k).view keepsIdle = (e.idleBegun k).view keepsIdle :=
  ((e.idleBegun k).reEval.each_idleWarm_view keepsIdle _).trans (Engine.reEval_view keepsIdle_ctl)

/-- PLL-A and PLL-B off, the receivers suspended, and the link in L1 where it may be (R351). -/
def Engine.twilight (e : Engine) (k : Nat) : Engine :=
  let x := (((e.dusk k).pllOff 0).pllOff 1).suspendReceivers
  { x with host.inL1 := x.host.inL1 || x.host.aspmL1 }

/-- Twilight, or Night with PLL-C off as well and FIELD on REF. -/
def Engine.darkened (e : Engine) (k : Nat) : Engine :=
  if k = 3 then ((e.twilight k).pllOff 2).setBypass 2 true else e.twilight k

variable {e}

theorem Engine.idleEnter_blocked (h : e.blockers ≠ 0 ∨ e.deepestIdle = 0) : e.idleEnter = e :=
  if_pos (.inr (.inr h))

theorem Engine.idleEnter_enters (hmode : e.mode = .running) (hawake : e.idle = 0) (hfree : e.blockers = 0)
    (hdeep : e.deepestIdle ≠ 0) : e.idleEnter =
      if e.deepestIdle = 1 then e.dusk e.deepestIdle else (e.darkened e.deepestIdle).refreshSr :=
 by
  have hfree' : ¬ (e.mode ≠ .running ∨ e.idle ≠ 0 ∨ e.blockers ≠ 0 ∨ e.deepestIdle = 0) := by
    simp [hmode, hawake, hfree, hdeep]
  rw [Engine.idleEnter]
  generalize e.deepestIdle = k at hfree' ⊢
  simp only [if_neg hfree', Engine.darkened, Engine.twilight, Engine.dusk, Engine.idleBegun, apply_ite Engine.refreshSr]

theorem Engine.get_pllOff {x i j : Nat} (hj : j < 256) (hpll : i ≠ pllIdx x ∨ j ≠ 1) (hsync : i ≠ 0x4280) :
    (e.pllOff x).get i j = e.get i j := by
  rw [Engine.pllOff, Engine.get_setPll, Engine.get_syncAbandon hj (.inl hsync), Engine.get_put_other _ (by decide) hj (by omega)]

theorem Engine.get_pllOff_state {x : Nat} : (e.pllOff x).get (pllIdx x) 1 = 0 := by
  rw [Engine.pllOff, Engine.get_setPll, Engine.get_syncAbandon (by decide) (.inl (pllIdx_ne_clocks x)), Engine.get_put_same]

theorem Engine.pllOff_host (x : Nat) : (e.pllOff x).host = e.host := by
  have hsync : ∀ y : Engine, (y.syncAbandon x).host = y.host := fun y => by
    rw [Engine.syncAbandon]
    split_ifs <;> rfl
  exact hsync (e.put (pllIdx x) 1 0)

theorem Engine.get_inL1 (on : Bool) (i j : Nat) : Engine.get { e with host.inL1 := on } i j = e.get i j := rfl

theorem Engine.get_twilight {i j : Nat} (hi : keepsIdle i = true) (hj : j < 256) :
    (e.twilight k).get i j = (((e.dusk k).pllOff 0).pllOff 1).get i j := by
  rw [Engine.twilight]
  dsimp only
  rw [Engine.get_inL1]
  exact Engine.view_get (Engine.suspendReceivers_view keepsIdle_heads _) hi hj

theorem Engine.dusk_idle : (e.dusk k).get 0x4220 1 = k :=
  (Engine.view_get e.dusk_view rfl (by decide)).trans (Engine.get_put_same _ _ _ _)

/-- R351: Twilight and Night have PLL-A and PLL-B off. -/
theorem Engine.twilight_off : (e.twilight k).get 0x4220 1 = k ∧ (e.twilight k).get (pllIdx 0) 1 = 0 ∧
    (e.twilight k).get (pllIdx 1) 1 = 0 := by
  refine ⟨?_, ?_, ?_⟩
  · rw [Engine.get_twilight rfl (by decide), Engine.get_pllOff (by decide) (by decide) (by decide),
      Engine.get_pllOff (by decide) (by decide) (by decide), Engine.dusk_idle]
  · rw [Engine.get_twilight (keepsIdle_pll 0) (by decide), Engine.get_pllOff (by decide) (by decide) (by decide),
      Engine.get_pllOff_state]
  · rw [Engine.get_twilight (keepsIdle_pll 1) (by decide), Engine.get_pllOff_state]

theorem Engine.twilight_link (haspm : e.host.aspmL1 = true) : (e.twilight k).host.inL1 = true := by
  have hkept : ((((e.dusk k).pllOff 0).pllOff 1).suspendReceivers).host.aspmL1 = true := by
    rw [Engine.view_aspm (Engine.suspendReceivers_view keepsIdle_heads _), Engine.pllOff_host, Engine.pllOff_host,
      Engine.view_aspm e.dusk_view]
    exact haspm
  rw [Engine.twilight]
  dsimp only
  rw [hkept, Bool.or_true]

theorem Engine.get_darkened {i j : Nat} (hj : j < 256) (hpll : i ≠ pllIdx 2) (hclocks : i ≠ 0x4280) :
    (e.darkened k).get i j = (e.twilight k).get i j := by
  rw [Engine.darkened]
  split_ifs
  · rw [Engine.setBypass, Engine.get_put_other _ (by decide) hj (by simp [hclocks]), Engine.get_pllOff hj (.inl hpll) hclocks]
  · rfl

theorem Engine.darkened_link : (e.darkened k).host = (e.twilight k).host := by
  rw [Engine.darkened]
  split_ifs
  · exact (Engine.put_host _ _ _ _).trans (Engine.pllOff_host 2)
  · rfl

/-- R351: Night has PLL-C off as well, and FIELD on REF. -/
theorem Engine.darkened_night : (e.darkened 3).get (pllIdx 2) 1 = 0 ∧ bit ((e.darkened 3).get 0x4280 2) 5 = true := by
  rw [Engine.darkened, if_pos rfl]
  refine ⟨?_, Engine.bit_setBypass true (by decide)⟩
  rw [Engine.get_setBypass_pll true (by decide), Engine.get_pllOff_state]

end Enter

/-! Waking and leaving (R353, R354) -/

section Wake

variable {e : Engine}

/-- A PLL that is off begins to lock. -/
def Engine.pllOn (e : Engine) (x : Nat) : Engine := if e.get (pllIdx x) 1 = 0 then e.pllSearch x else e

theorem Engine.pllOn_keeps {y x : Nat} (hstate : e.get (pllIdx x) 1 = 1) (hsearch : (e.pll x).searching = true) :
    (e.pllOn y).get (pllIdx x) 1 = 1 ∧ ((e.pllOn y).pll x).searching = true := by
  rw [Engine.pllOn]
  split_ifs
  · rw [Engine.get_pllSearch_state, Engine.pll_pllSearch]
    split_ifs
    · exact ⟨rfl, rfl⟩
    · exact ⟨hstate, hsearch⟩
  · exact ⟨hstate, hsearch⟩

theorem Engine.each_pllOn_keeps (xs : List Nat) {x : Nat} (hstate : e.get (pllIdx x) 1 = 1)
    (hsearch : (e.pll x).searching = true) :
    (e.each xs Engine.pllOn).get (pllIdx x) 1 = 1 ∧ ((e.each xs Engine.pllOn).pll x).searching = true :=
  List.foldlRecOn (motive := fun y => y.get (pllIdx x) 1 = 1 ∧ (y.pll x).searching = true) xs Engine.pllOn ⟨hstate, hsearch⟩
    fun _ ⟨hs, hp⟩ _ _ => Engine.pllOn_keeps hs hp

/-- R354: the PLLs that an idle state stopped begin to lock. -/
theorem Engine.each_pllOn (xs : List Nat) {x : Nat} (hx : x ∈ xs) (hoff : e.get (pllIdx x) 1 = 0) :
    (e.each xs Engine.pllOn).get (pllIdx x) 1 = 1 ∧ ((e.each xs Engine.pllOn).pll x).searching = true := by
  induction xs generalizing e with
  | nil => exact absurd hx List.not_mem_nil
  | cons y ys ih =>
    obtain rfl | hne := eq_or_ne x y
    · refine Engine.each_pllOn_keeps (e := e.pllOn x) ys ?_ ?_
      · rw [Engine.pllOn, if_pos hoff, Engine.get_pllSearch_state, if_pos rfl]
      · rw [Engine.pllOn, if_pos hoff, Engine.pll_pllSearch, if_pos rfl]
    · refine ih (e := e.pllOn y) (List.mem_of_ne_of_mem hne hx) ?_
      rw [Engine.pllOn]
      split_ifs
      · rw [Engine.get_pllSearch_state, if_neg hne]
        exact hoff
      · exact hoff

theorem Engine.get_each_pllOn (xs : List Nat) {i j : Nat} (hj : j < 256) (hi : i < 0x4280) :
    (e.each xs Engine.pllOn).get i j = e.get i j := by
  refine Engine.each_keeps e (fun y => y.get i j) xs fun y x => ?_
  rw [Engine.pllOn]
  split_ifs
  · exact Engine.get_pllSearch_other hj (.inl (by unfold pllIdx; omega)) (.inl (by omega))
  · rfl

theorem Engine.wake_dusk {cause : Nat} (hdusk : e.idle = 1) (hwaking : e.pwr.waking = false) :
    e.wake cause = (((e.put 0x4220 7 cause).put 0x4220 1 0).countIdle).reEval := by
  have hdusk' : (e.put 0x4220 7 cause).idle = 1 := (Engine.get_put_other _ (by decide) (by decide) (by decide)).trans hdusk
  rw [Engine.wake, if_neg (by simp [hdusk, hwaking])]
  exact if_pos hdusk'

theorem Engine.wake_deep {cause : Nat} (hdeep : 2 ≤ e.idle) (hwaking : e.pwr.waking = false) :
    e.wake cause = { (e.put 0x4220 7 cause).each [0, 1, 2] Engine.pllOn with pwr.waking := true } := by
  have hdeep' : (e.put 0x4220 7 cause).idle ≠ 1 := by
    rw [Engine.idle, Engine.get_put_other _ (by decide) (by decide) (by decide)]
    exact (by omega : e.idle ≠ 1)
  have hawake : ¬ (e.idle = 0 ∨ e.pwr.waking = true) := by
    rw [hwaking]
    simp only [Bool.false_eq_true, or_false]
    omega
  rw [Engine.wake, if_neg hawake]
  exact if_neg hdeep'

/-- R354: the engine is Awake again, with DRAM out of self-refresh and the loops on. -/
def Engine.awoken (e : Engine) (us : Nat) : Engine :=
  let x := ((e.put 0x4220 1 0).put 0x4220 6 us).countIdle
  Engine.reEval (Engine.refreshSr { x with pwr.waking := false, host.inL1 := x.host.inL1 && decide (4 ≤ x.stage) })

theorem Engine.idleExit_waits (us : Nat) (h : e.pwr.waking = false ∨ e.pllsLocked = false) : e.idleExit us = e :=
  if_pos (h.imp (by simp [·]) (by simp [·]))

theorem Engine.idleExit_exits (us : Nat) (hwaking : e.pwr.waking = true) (hlocked : e.pllsLocked = true) :
    e.idleExit us = ((e.awoken us).each
      ((List.range 128).filter (fun h => decide ((e.awoken us).svc h ≤ 1))) Engine.readIdent).evalHolds := by
  rw [Engine.idleExit, if_neg (by simp [hwaking, hlocked])]
  rfl

theorem Engine.awoken_view (us : Nat) : (e.awoken us).view keepsIdle =
    Engine.view keepsIdle { ((e.put 0x4220 1 0).put 0x4220 6 us).countIdle with pwr.waking := false } := by
  rw [Engine.awoken]
  generalize ((e.put 0x4220 1 0).put 0x4220 6 us).countIdle = x
  exact (Engine.reEval_view keepsIdle_ctl).trans (Engine.refreshSr_view keepsIdle_dram _)

end Wake

/-! Idle states as commanded -/

section IdleCommands

variable {s : State} {cause : Fin 8} {us : BitVec 32} {h : Fin 128}

theorem becomes_idleStateEntry (hlive : s.e.live = true) : Becomes .idleStateEntry s s.e.idleEnter :=
  becomes_of_whenLive (f := fun e => e.idleEnter) rfl hlive

theorem becomes_wakeEvent (hlive : s.e.live = true) :
    Becomes (.wakeEvent cause) s (if cause.val = 7 ∧ s.e.idle ≠ 1 then s.e else s.e.wake (cause.val + 1)) :=
  becomes_of_whenLive (f := fun e => if cause.val = 7 ∧ e.idle ≠ 1 then e else e.wake (cause.val + 1)) rfl hlive

theorem becomes_idleExitComplete (hlive : s.e.live = true) : Becomes (.idleExitComplete us) s (s.e.idleExit us.toNat) :=
  becomes_of_whenLive (f := fun e => e.idleExit us.toNat) rfl hlive

theorem becomes_headRealignTimeout (hlive : s.e.live = true) : Becomes (.headRealignTimeout h) s
    (if (s.e.head h.val).suspended = 3 ∧ s.e.get (headIdx h.val) 1 = 1 then s.e.receiverLost h.val else s.e) :=
  becomes_of_whenLive (f := fun e =>
    if (e.head h.val).suspended = 3 ∧ e.get (headIdx h.val) 1 = 1 then e.receiverLost h.val else e) rfl hlive

/-- R351: Twilight and Night are entered through Dusk. -/
theorem deepEntry_completes (hlive : s.e.live = true) (hmode : s.e.mode = .running) (hawake : s.e.idle = 0)
    (hfree : s.e.blockers = 0) (hdeep : 2 ≤ s.e.deepestIdle) : Completes .idleStateEntry s (fun t => ∃ e : Engine,
      t.e = e.refreshSr ∧ e.idle = s.e.deepestIdle ∧ e.get 0x4281 1 = 0 ∧ e.get 0x4282 1 = 0 ∧
      (s.e.deepestIdle = 3 → e.get 0x4283 1 = 0 ∧ bit (e.get 0x4280 2) 5 = true) ∧
      (s.e.host.aspmL1 = true → e.host.inL1 = true)) := by
  have hentry := becomes_idleStateEntry hlive
  rw [Engine.idleEnter_enters hmode hawake hfree (by omega), if_neg (by omega)] at hentry
  obtain ⟨hidle, hpllA, hpllB⟩ := Engine.twilight_off (e := s.e) (k := s.e.deepestIdle)
  refine hentry.completes_exists Engine.refreshSr ⟨?_, ?_, ?_, fun hnight => ?_, fun haspm => ?_⟩
  · exact (Engine.get_darkened (by decide) (by decide) (by decide)).trans hidle
  · exact (Engine.get_darkened (by decide) (by decide) (by decide)).trans hpllA
  · exact (Engine.get_darkened (by decide) (by decide) (by decide)).trans hpllB
  · rw [hnight]
    exact Engine.darkened_night
  · rw [Engine.darkened_link]
    exact Engine.twilight_link haspm

theorem duskWake_completes (hlive : s.e.live = true) (hdusk : s.e.idle = 1) (hwaking : s.e.pwr.waking = false) :
    Completes (.wakeEvent cause) s (fun t => ∃ e : Engine, t.e = e.reEval ∧ e.idle = 0 ∧ e.get 0x4220 7 = cause.val + 1 ∧
      e.get 0x4220 8 = (s.e.get 0x4220 8 + (s.e.now - s.e.pwr.idleAt) / 50000) % 2 ^ 64) := by
  have hwake := becomes_wakeEvent (cause := cause) hlive
  rw [if_neg (by simp [hdusk]), Engine.wake_dusk hdusk hwaking] at hwake
  refine hwake.completes_exists Engine.reEval ⟨?_, ?_, ?_⟩
  · exact (Engine.get_put_subindex _ _ (by decide)).trans (Engine.get_put_same _ _ _ _)
  · exact (Engine.get_put_subindex _ _ (by decide)).trans
      ((Engine.get_put_subindex _ _ (by decide)).trans (Engine.get_put_same _ _ _ _))
  · refine (Engine.get_put_same _ _ _ _).trans ?_
    rw [Engine.get_put_subindex _ _ (by decide), Engine.get_put_subindex _ _ (by decide)]
    rfl

theorem deepWake_completes (hlive : s.e.live = true) (hdeep : 2 ≤ s.e.idle) (hwaking : s.e.pwr.waking = false)
    (hcause : cause.val ≠ 7) : Completes (.wakeEvent cause) s (fun t =>
      t.e.pwr.waking = true ∧ t.e.idle = s.e.idle ∧ t.e.get 0x4220 7 = cause.val + 1 ∧
      (∀ x, x < 3 → s.e.get (0x4281 + x) 1 = 0 → t.e.get (0x4281 + x) 1 = 1 ∧ (t.e.pll x).searching = true)) := by
  have hwake := becomes_wakeEvent (cause := cause) hlive
  rw [if_neg (by simp [hcause]), Engine.wake_deep hdeep hwaking] at hwake
  have hget : ∀ j, j < 256 → ((s.e.put 0x4220 7 (cause.val + 1)).each [0, 1, 2] Engine.pllOn).get 0x4220 j =
      (s.e.put 0x4220 7 (cause.val + 1)).get 0x4220 j := fun j hj => Engine.get_each_pllOn _ hj (by decide)
  have hlock : ∀ x, x < 3 → s.e.get (pllIdx x) 1 = 0 →
      ((s.e.put 0x4220 7 (cause.val + 1)).each [0, 1, 2] Engine.pllOn).get (pllIdx x) 1 = 1 ∧
      (((s.e.put 0x4220 7 (cause.val + 1)).each [0, 1, 2] Engine.pllOn).pll x).searching = true := fun x hx hoff => by
    refine Engine.each_pllOn (e := s.e.put 0x4220 7 (cause.val + 1)) [0, 1, 2] (List.mem_range.mpr hx) ?_
    exact (Engine.get_put_other _ (by decide) (by decide) (by unfold pllIdx; omega)).trans hoff
  generalize (s.e.put 0x4220 7 (cause.val + 1)).each [0, 1, 2] Engine.pllOn = y at hwake hget hlock
  exact hwake.completes ⟨rfl, (hget 1 (by decide)).trans (Engine.get_put_subindex _ _ (by decide)),
    (hget 7 (by decide)).trans (Engine.get_put_same _ _ _ _), hlock⟩

theorem idleExit_completes (hlive : s.e.live = true) (hwaking : s.e.pwr.waking = true) (hlocked : s.e.pllsLocked = true) :
    Completes (.idleExitComplete us) s (fun t => ∃ e : Engine,
      t.e = (e.each ((List.range 128).filter (fun h => decide (e.svc h ≤ 1))) Engine.readIdent).evalHolds ∧ e.idle = 0 ∧
      e.get 0x4220 6 = us.toNat ∧ e.pwr.waking = false) := by
  have hexit := becomes_idleExitComplete (us := us) hlive
  rw [Engine.idleExit_exits _ hwaking hlocked] at hexit
  have hview := Engine.awoken_view (e := s.e) us.toNat
  refine hexit.completes_exists
    (fun e => (e.each ((List.range 128).filter (fun h => decide (e.svc h ≤ 1))) Engine.readIdent).evalHolds) ⟨?_, ?_, ?_⟩
  · refine (Engine.view_get hview rfl (by decide)).trans ?_
    exact (Engine.get_put_subindex _ _ (by decide)).trans
      ((Engine.get_put_subindex _ _ (by decide)).trans (Engine.get_put_same _ _ _ _))
  · refine (Engine.view_get hview rfl (by decide)).trans ?_
    exact (Engine.get_put_subindex _ _ (by decide)).trans (Engine.get_put_same _ _ _ _)
  · rw [Engine.view_pwr hview]

/-- Settles O50: an entry by what blocks it and how deep it goes, a wake by the state it finds, an exit by the PLLs. -/
theorem idleStates : Obligations.IdleStates := by
  intro s cause us hlive
  have hentry := becomes_idleStateEntry hlive
  have hwake := fun cause => becomes_wakeEvent (cause := cause) hlive
  refine ⟨fun hblocked => ?_, fun hmode hawake hfree hdusk => ?_, deepEntry_completes hlive, fun hawake => ?_, fun hdeep => ?_,
    duskWake_completes hlive, deepWake_completes hlive, fun hwaits => ?_, idleExit_completes hlive, fun h hup => ?_,
    fun h hup hdown hsvc => ?_⟩
  · rw [Engine.idleEnter_blocked hblocked] at hentry
    exact hentry
  · rw [Engine.idleEnter_enters hmode hawake hfree (by omega), if_pos hdusk, hdusk] at hentry
    exact hentry.completes_exists (fun e => e.reEval.each (List.range 128) Engine.idleWarm)
      ⟨Engine.get_put_same _ _ _ _, rfl, fun k hk => Engine.ent_put_other (i := 0x4220) (j := 1) hk⟩
  · have hasleep := hwake cause
    rw [Engine.wake_awake _ _ hawake, ite_self] at hasleep
    exact hasleep
  · have hreceiver := hwake 7
    rw [if_pos ⟨rfl, by omega⟩] at hreceiver
    exact hreceiver
  · have hexit := becomes_idleExitComplete (us := us) hlive
    rw [Engine.idleExit_waits _ hwaits] at hexit
    exact hexit
  · have hrealign := becomes_headRealignTimeout (h := h) hlive
    rw [if_neg fun hboth => hup hboth.1] at hrealign
    exact hrealign
  · have hrealign := becomes_headRealignTimeout (h := h) hlive
    rw [if_pos ⟨hup, hdown⟩, Engine.receiverLost_eclipsed _ h.isLt hsvc] at hrealign
    exact hrealign.completes_exists Engine.reEval ⟨Engine.get_linkDown_state _, Engine.suspended_linkDown _⟩

end IdleCommands

end Sys2Proof.Machine

/-! Resets from power, the rails and the REF monitor (R328, R342, R349). -/

namespace Sys2Proof.Machine

section Restart

variable (s : State) (c : ResetCause)

/-- Latched HV trips show in the entries of their channels alone. -/
theorem Engine.showCounters_frame (e : Engine) (n : NonVol) :
    (e.showCounters n).mode = e.mode ∧ (e.showCounters n).now = e.now ∧
      ∀ i j, 0x4000 ≤ i → (e.showCounters n).get i j =
        (((e.put 0x4320 1 n.dawns).put 0x4280 9 n.refLosses).put 0x4202 0x0A n.railResets).get i j := by
  have hslice : ∀ {α : Type} (g : Engine → α), (∀ (x : Engine) i j v, g (x.put i j v) = g x) → g (e.showCounters n) = g e :=
    fun g hput => by
      refine (Engine.each_keeps _ g _ fun x c => ?_).trans ((hput _ _ _ _).trans ((hput _ _ _ _).trans (hput _ _ _ _)))
      split_ifs
      · exact hput _ _ _ _
      · rfl
  refine ⟨hslice (·.mode) fun _ _ _ _ => rfl, hslice (·.now) fun _ _ _ _ => rfl, fun i j hi => ?_⟩
  refine Engine.each_keeps_mem _ (fun x => x.get i j) _ fun x c hc => ?_
  have hlt := mem_four.mp hc
  split_ifs
  · refine x.get_put_ne ?_
    unfold ekey
    omega
  · rfl

theorem restart_mode : (restart s c).e.mode = .dawn := by
  obtain ⟨hmode, _, _⟩ := (s.e.fresh c .dawn).showCounters_frame { s.nv with dawns := satAdd 32 s.nv.dawns 1 }
  rw [restart, Engine.put_mode, Engine.put_mode, hmode]
  rfl

theorem restart_now : (restart s c).e.now = if c.power then 0 else s.e.now := by
  obtain ⟨_, hnow, _⟩ := (s.e.fresh c .dawn).showCounters_frame { s.nv with dawns := satAdd 32 s.nv.dawns 1 }
  rw [restart, Engine.put_now, Engine.put_now, hnow]
  rfl

theorem restart_dawns : (restart s c).nv.dawns = satAdd 32 s.nv.dawns 1 := rfl

theorem restart_step : (restart s c).e.get 0x2001 1 = 1 := Engine.get_put_same _ _ _ _

theorem restart_cause : (restart s c).e.get 0x4320 3 = c.code :=
  (Engine.get_put_other _ (by decide) (by decide) (by decide)).trans (Engine.get_put_same _ _ _ _)

/-- The entries that a restart shows of the counters. -/
theorem get_restart_counter {i j : Nat} (hi : 0x4000 ≤ i) (hj : j < 256) (hcause : i ≠ 0x4320) :
    (restart s c).e.get i j =
      ((((s.e.fresh c .dawn).put 0x4320 1 (satAdd 32 s.nv.dawns 1)).put 0x4280 9 s.nv.refLosses).put 0x4202 0x0A
        s.nv.railResets).get i j := by
  obtain ⟨_, _, hcounter⟩ := (s.e.fresh c .dawn).showCounters_frame { s.nv with dawns := satAdd 32 s.nv.dawns 1 }
  rw [← hcounter i j hi]
  exact (Engine.get_put_other _ (by decide) hj (by omega)).trans (Engine.get_put_other _ (by decide) hj (by omega))

theorem restart_refLosses : (restart s c).e.get 0x4280 9 = s.nv.refLosses := by
  rw [get_restart_counter s c (by decide) (by decide) (by decide), Engine.get_put_other _ (by decide) (by decide) (by decide),
    Engine.get_put_same]

theorem restart_railResets : (restart s c).e.get 0x4202 0x0A = s.nv.railResets := by
  rw [get_restart_counter s c (by decide) (by decide) (by decide), Engine.get_put_same]

end Restart

section Resets

variable {s : State} {n : Nat}

theorem refWindow_running (hmode : s.e.mode = .running) : refWindow n s =
    if refInRange n then { s with e := { s.e.put 0x4280 1 (n % 2 ^ 32) with pwr.refBad := 0 } }
    else if s.e.pwr.refBad = 0 then { s with e := { s.e.put 0x4280 1 (n % 2 ^ 32) with pwr.refBad := 1 } }
    else holdReset { s with nv := { s.nv with refLosses := satAdd 16 s.nv.refLosses 1 }, e := s.e.put 0x4280 1 (n % 2 ^ 32) }
      false true := by
  simp only [refWindow, hmode]
  rfl

theorem refWindow_released (hmode : s.e.mode = .powerOnReset) (hhold : s.e.pwr.refHold = true) (hvin : s.e.pwr.vinLow = false)
    (hrange : refInRange n = true) : refWindow n s = restart s .refLoss := by
  simp [refWindow, hmode, hhold, hvin, hrange]

theorem refWindow_shutdown (hmode : s.e.mode = .shutdown) : refWindow n s = s := by
  simp only [refWindow, hmode]

theorem powerReset_recovers (hmode : s.e.mode = .powerOnReset) (hvin : s.e.pwr.vinLow = true) (hhold : s.e.pwr.refHold = false) :
    powerReset true s = restart s .powerOn := by
  simp [powerReset, hmode, hvin, hhold]

theorem powerReset_up (hmode : s.e.mode ≠ .powerOnReset) : powerReset true s = s := by
  simp [powerReset, hmode]

/-- The state with one more rail reset on record. -/
def State.railCounted (s : State) : State := { s with nv := { s.nv with railResets := satAdd 16 s.nv.railResets 1 } }

theorem railReset_resets {r : Nat} (hlive : s.e.live = true) (hrail : r ≠ 8) (mv : Nat) :
    railReset r mv s = restart s.railCounted .powerOn := by
  simp [railReset, hlive, hrail, State.railCounted]

theorem railReset_aux5 (hlive : s.e.live = true) (mv : Nat) : railReset 8 mv s = { s with e := s.e.put 0x4202 9 mv } := by
  simp [railReset, hlive]

/-- R328: windows of a running engine. -/
theorem refMonitor_running (hmode : s.e.mode = .running) :
    (45000 ≤ n → n ≤ 52500 → Completes (.refMonitorWindow n) s (fun t =>
      t.e.get 0x4280 1 = n ∧ t.e.pwr.refBad = 0 ∧ (∀ k, k ≠ 0x428001 → t.e.ent k = s.e.ent k) ∧ t.e.mode = .running)) ∧
    (refInRange n = false → s.e.pwr.refBad = 0 → Completes (.refMonitorWindow n) s (fun t =>
      t.e.pwr.refBad = 1 ∧ t.e.mode = .running ∧ t.nv = s.nv)) ∧
    (refInRange n = false → s.e.pwr.refBad ≠ 0 → Completes (.refMonitorWindow n) s (fun t =>
      t.e.mode = .powerOnReset ∧ t.e.pwr.refHold = true ∧ t.e.pwr.vinLow = false ∧ t.e.get 0x2200 2 = 0 ∧
      t.nv.refLosses = satAdd 16 s.nv.refLosses 1 ∧ t.pending = s.pending)) := by
  refine ⟨fun hlo hhi => ⟨refWindow n s, rfl, ?_⟩, fun hrange hfirst => ⟨refWindow n s, rfl, ?_⟩,
    fun hrange hsecond => ⟨refWindow n s, rfl, ?_⟩⟩
  · have hmod : n % 2 ^ 32 = n := Nat.mod_eq_of_lt (by omega)
    have hrange : refInRange n = true := decide_eq_true ⟨hlo, hhi⟩
    rw [refWindow_running hmode, if_pos hrange, hmod]
    exact ⟨Engine.get_put_same _ _ _ _, rfl, fun k hk => Engine.ent_put_other (i := 0x4280) (j := 1) hk, hmode⟩
  · rw [refWindow_running hmode, if_neg (by simp [hrange]), if_pos hfirst]
    exact ⟨rfl, hmode, rfl⟩
  · rw [refWindow_running hmode, if_neg (by simp [hrange]), if_neg hsecond]
    exact ⟨rfl, rfl, rfl, rfl, rfl, rfl⟩

/-- Settles O48: each reset by what holds it, and Dawn by its cause. -/
theorem powerResets : Obligations.PowerResets := by
  intro s n
  refine ⟨fun hmode => (refMonitor_running hmode).1, fun hmode => (refMonitor_running hmode).2.1,
    fun hmode => (refMonitor_running hmode).2.2, fun hmode hhold hvin hrange => ⟨refWindow n s, rfl, ?_⟩,
    fun hmode => congrArg Host.Outcome.next (refWindow_shutdown hmode), ⟨_, rfl, rfl, rfl, rfl, rfl, rfl, rfl, rfl, rfl, rfl⟩,
    fun hmode => congrArg Host.Outcome.next (powerReset_up hmode), fun hmode hvin hhold => ⟨powerReset true s, rfl, ?_⟩,
    fun r mv hlive hrail => ⟨railReset r.val mv.toNat s, rfl, ?_⟩, fun mv hlive => ?_, fun p hlive => ?_, fun hs => ?_⟩
  · rw [refWindow_released hmode hhold hvin hrange]
    exact ⟨restart_mode _ _, restart_cause _ _, restart_step _ _, restart_dawns _ _, restart_refLosses _ _⟩
  · rw [powerReset_recovers hmode hvin hhold]
    exact ⟨restart_mode _ _, restart_cause _ _, restart_step _ _, restart_dawns _ _, restart_now _ _⟩
  · rw [railReset_resets hlive hrail]
    exact ⟨restart_mode _ _, restart_cause _ _, rfl, restart_railResets _ _, rfl⟩
  · exact writes_of_put (i := 0x4202) (j := 9) (congrArg Host.Outcome.next (railReset_aux5 hlive mv.toNat))
  · exact writes_of_put (i := 0x4202) (j := 0x0B)
      (becomes_of_whenLive (f := fun e => e.put 0x4202 0x0B (ofBool p)) rfl hlive)
  · exact serves_of_put_done (i := 0x4200) (j := 6)
      (becomes_of_request (idx := 0x4200) (f := fun e => (e.put 0x4200 6 (e.get 0x4200 1)).done) rfl hs)

end Resets

end Sys2Proof.Machine

/-! The dictionary mailbox (R402-R405): requests taken, abandoned and answered. -/

namespace Sys2Proof.Machine

section Waking

variable (e : Engine)

/-- R353: a wake event leaves the mailbox alone. -/
theorem Engine.wake_mailbox (cause : Nat) : (e.wake cause).host.mb = e.host.mb := by
  by_cases hawake : e.idle = 0
  · rw [Engine.wake_awake _ _ hawake]
  cases hwaking : e.pwr.waking with
  | true => rw [Engine.wake, if_pos (.inr hwaking)]
  | false =>
    by_cases hdusk : e.idle = 1
    · rw [Engine.wake_dusk hdusk hwaking]
      exact Engine.view_mailbox (Engine.reEval_view (keep := fun _ => false) fun _ _ _ => rfl)
    · rw [Engine.wake_deep (by omega) hwaking]
      refine Engine.each_keeps (e.put 0x4220 7 cause) (·.host.mb) _ fun x i => ?_
      rw [Engine.pllOn]
      split_ifs <;> rfl

end Waking

section Answers

variable (e : Engine)

theorem bytePairs_eq_zip (bs : List Byte) (a : Nat) : bytePairs a bs = (List.range' a bs.length).zip bs := by
  induction bs generalizing a with
  | nil => rfl
  | cons b bs ih => rw [bytePairs, ih, List.length_cons, List.range'_succ, List.zip_cons_cons]

/-- The mailbox with the answer to its request (R403). -/
def Mailbox.answered (m : Mailbox) (code : Nat) (seg : List Byte) (rest : Bool) (total : Nat) : Mailbox :=
  { m with result := code, respLength := seg.length, respMore := rest, total := total, seq := wrapAdd 32 m.seq 1, busy := false,
           done := true, taken := none, takenData := [],
           data := cellSetAll (fun _ => 0) ((List.range seg.length).zip seg) m.data }

/-- R404: the data registers hold the segment. -/
theorem Mailbox.answered_data (m : Mailbox) (code : Nat) (seg : List Byte) (rest : Bool) (total : Nat) {i : Nat}
    (hi : i < seg.length) : cellGet (fun _ => 0) (m.answered code seg rest total).data i = seg.getD i 0 := by
  rw [Mailbox.answered, List.range_eq_range', ← bytePairs_eq_zip, cellGet_setBytes,
    if_pos ⟨Nat.zero_le i, by rwa [Nat.zero_add]⟩, Nat.sub_zero]

/-- R403: an answer without the interrupt is counted, and changes the mailbox alone. -/
theorem Engine.mbAnswer_silent (hirq : e.host.mb.irqEn = false) (code : Nat) (seg : List Byte) (rest : Bool) (total : Nat) :
    e.mbAnswer code seg rest total = Engine.wrap { e with host.mb := e.host.mb.answered code seg rest total } 0x2003 8 1 :=
  if_neg (by simp [hirq])

theorem Engine.mbAnswer_mailbox (hirq : e.host.mb.irqEn = false) (code : Nat) (seg : List Byte) (rest : Bool) (total : Nat) :
    (e.mbAnswer code seg rest total).host.mb = e.host.mb.answered code seg rest total := by
  rw [Engine.mbAnswer_silent _ hirq, Engine.wrap, Engine.put_host]

theorem Mailbox.narrow_irqEn (m : Mailbox) (k : Nat × Nat) (write : Bool) : (m.narrow k write).irqEn = m.irqEn := by
  simp only [Mailbox.narrow]
  split_ifs <;> rfl

theorem Mailbox.narrow_seq (m : Mailbox) (k : Nat × Nat) (write : Bool) : (m.narrow k write).seq = m.seq := by
  simp only [Mailbox.narrow]
  split_ifs <;> rfl

/-- A read of any entry but the staging window's leaves the host's side alone. -/
theorem Engine.serveRead_host {idx : Nat} (sub : Nat) (hidx : idx ≠ 0x2600) : (e.serveRead idx sub).host = e.host := by
  rw [Engine.serveRead]
  split_ifs with _ hwindow
  · rfl
  · exact absurd hwindow.1 hidx
  · rfl
  · split <;> rfl

/-- The engine with the snapshot that is open. -/
def Engine.withSnapshot (e : Engine) (k : Option (Nat × Nat)) (bs : List Byte) : Engine :=
  { e with host.mb.snapOpen := k, host.mb.snap := bs }

/-- R404: the first segment of a read is the entry's value, or its abort code. -/
theorem Engine.mbRead_first {idx sub len : Nat} {more : Bool} {r : Engine}
    (hr : r = Engine.serveRead { e with host.mb := e.host.mb.narrow (idx, sub) false } idx sub) :
    e.mbRead ⟨1, idx, sub, 0, len, more⟩ =
      if r.sdo ≠ 0 then Engine.mbCode (r.withSnapshot none []) r.sdo
      else Engine.mbSegment (r.withSnapshot (some (idx, sub)) r.sdoData) 0 := by
  rw [hr]
  rfl

end Answers

section MailboxCommands

variable {s : State} {op idx sub off len : Nat} {more : Bool}

theorem mailboxServe_open (hlive : s.e.live = true) (hidle : s.e.idle = 0)
    (htaken : s.e.host.mb.taken = some (op, idx, sub, off, len, more)) (hready : s.e.flag 0x2001 2 = true) :
    mailboxServe s = if op = 1 then { s with e := s.e.mbRead ⟨op, idx, sub, off, len, more⟩ }
      else if op = 2 then mbWrite ⟨op, idx, sub, off, len, more⟩ s else { s with e := s.e.mbCode abOther } := by
  have hopen : s.e.mbOpen idx = true := by rw [Engine.mbOpen, hready, Bool.true_or]
  simp only [mailboxServe, htaken, hopen]
  rw [if_neg (by simp [hlive, hidle])]
  exact if_neg (by simp)

/-- R403: an operation other than a read or a write is refused. -/
theorem otherOperation_completes (hlive : s.e.live = true) (hidle : s.e.idle = 0)
    (htaken : s.e.host.mb.taken = some (op, idx, sub, off, len, more)) (hready : s.e.flag 0x2001 2 = true)
    (hirq : s.e.host.mb.irqEn = false) (hread : op ≠ 1) (hwrite : op ≠ 2) :
    Completes .mailboxResponse s (fun t =>
      t.e.host.mb.result = 0x08000000 ∧ t.e.host.mb.busy = false ∧ t.e.host.mb.done = true ∧ t.e.host.mb.taken = none ∧
      t.e.host.mb.seq = (s.e.host.mb.seq + 1) % 2 ^ 32 ∧
      t = { s with e := { s.e with host.mb := t.e.host.mb, d.dict := t.e.d.dict } }) := by
  refine ⟨mailboxServe s, rfl, ?_⟩
  rw [mailboxServe_open hlive hidle htaken hready, if_neg hread, if_neg hwrite, Engine.mbCode, Engine.mbAnswer_silent _ hirq]
  exact ⟨rfl, rfl, rfl, rfl, rfl, rfl⟩

/-- R404: a read is answered by its first segment. -/
theorem firstRead_completes {r : Engine} (hlive : s.e.live = true) (hidle : s.e.idle = 0)
    (htaken : s.e.host.mb.taken = some (1, idx, sub, 0, len, more)) (hready : s.e.flag 0x2001 2 = true)
    (hirq : s.e.host.mb.irqEn = false) (hidx : idx ≠ 0x2600)
    (hr : r = Engine.serveRead { s.e with host.mb := s.e.host.mb.narrow (idx, sub) false } idx sub) :
    Completes .mailboxResponse s (fun t =>
      t.e.host.mb.result = r.sdo ∧ t.e.host.mb.busy = false ∧ t.e.host.mb.done = true ∧ t.e.host.mb.taken = none ∧
      t.e.host.mb.seq = (s.e.host.mb.seq + 1) % 2 ^ 32 ∧
      (r.sdo = 0 → t.e.host.mb.total = r.sdoData.length ∧ t.e.host.mb.respLength = min 4096 r.sdoData.length ∧
        ∀ i, i < min 4096 r.sdoData.length → cellGet (fun _ => 0) t.e.host.mb.data i = r.sdoData.getD i 0)) := by
  have hhost : r.host.mb = s.e.host.mb.narrow (idx, sub) false := by
    rw [hr, Engine.serveRead_host _ _ hidx]
  have hsilent : ∀ k bs, (r.withSnapshot k bs).host.mb.irqEn = false := fun _ _ => by
    refine Eq.trans (b := r.host.mb.irqEn) rfl ?_
    rw [hhost, Mailbox.narrow_irqEn, hirq]
  have hseq : r.host.mb.seq = s.e.host.mb.seq := by rw [hhost, Mailbox.narrow_seq]
  refine ⟨mailboxServe s, rfl, ?_⟩
  rw [mailboxServe_open hlive hidle htaken hready, if_pos rfl, Engine.mbRead_first _ hr]
  rw [← hseq]
  clear hr hhost
  by_cases hanswer : r.sdo = 0
  · rw [if_neg (not_not_intro hanswer), Engine.mbSegment]
    dsimp only
    rw [Engine.mbAnswer_mailbox _ (hsilent _ _)]
    have hlength : ((r.sdoData.drop 0).take 4096).length = min 4096 r.sdoData.length := by
      rw [List.length_take, List.drop_zero]
    refine ⟨hanswer.symm, rfl, rfl, rfl, rfl, fun _ => ⟨rfl, hlength, fun i hi => ?_⟩⟩
    refine (Mailbox.answered_data _ _ _ _ _ (by rwa [← hlength] at hi)).trans ?_
    have hlt : i < 4096 := lt_of_lt_of_le hi (min_le_left _ _)
    have hsnap : (r.withSnapshot (some (idx, sub)) r.sdoData).host.mb.snap = r.sdoData := rfl
    simp [List.getD_eq_getElem?_getD, hsnap, hlt]
  · rw [if_pos hanswer, Engine.mbCode]
    dsimp only
    rw [Engine.mbAnswer_mailbox _ (hsilent _ _)]
    exact ⟨rfl, rfl, rfl, rfl, rfl, fun h => absurd h hanswer⟩

theorem becomes_mailboxGo (hlive : s.e.live = true) :
    Becomes .mailboxGo s { s.e.wake 1 with host.mb := s.e.host.mb.go } :=
  becomes_of_whenLive (f := fun e => { e.wake 1 with host.mb := e.host.mb.go }) rfl hlive

theorem becomes_mailboxCancel (hlive : s.e.live = true) :
    Becomes .mailboxCancel s { s.e.wake 1 with host.mb := s.e.host.mb.abandon } :=
  becomes_of_whenLive (f := fun e => { e.wake 1 with host.mb := e.host.mb.abandon }) rfl hlive

theorem becomes_segmentTimeout (hlive : s.e.live = true) :
    Becomes .segmentTimeout s { s.e with host.mb := s.e.host.mb.abandon } :=
  becomes_of_whenLive (f := fun e => { e with host.mb := e.host.mb.abandon }) rfl hlive

/-- Settles O12: GO by BUSY, what abandons a transfer, and an answer by its operation. -/
theorem mailboxCommands : Obligations.MailboxCommands := by
  intro s e hlive he
  have hgo := becomes_mailboxGo hlive
  have hcancel := becomes_mailboxCancel hlive
  rw [← Engine.wake_mailbox s.e 1, ← he] at hgo hcancel
  refine ⟨fun hfree => ?_, fun hbusy => ?_, hcancel, becomes_segmentTimeout hlive,
    fun op idx sub off len more htaken hread hwrite hready hidle hirq =>
      otherOperation_completes hlive hidle htaken hready hirq hread hwrite,
    fun idx sub len more r htaken hr hidx hready hidle hirq => firstRead_completes hlive hidle htaken hready hirq hidx hr⟩
  · rw [Mailbox.go, if_neg (by simp [hfree])] at hgo
    exact hgo.completes ⟨rfl, rfl, rfl, rfl⟩
  · rw [Mailbox.go, if_pos hbusy] at hgo
    exact hgo

end MailboxCommands

end Sys2Proof.Machine

/-! The fuse sequencer (R362-R367), the life-cycle and the debug port (R371-R373). -/

namespace Sys2Proof.Machine

/-! What is blown, where no bit fails -/

section Blow

theorem bit_foldl_setBit_true (ds : List Nat) (v i : Nat) :
    bit (ds.foldl (fun v i => setBit v i true) v) i = (bit v i || decide (i ∈ ds)) := by
  induction ds generalizing v with
  | nil => simp
  | cons d ds ih =>
    rw [List.foldl_cons, ih]
    obtain rfl | hne := eq_or_ne i d
    · simp [bit_setBit_true]
    · simp [bit_setBit_other hne, hne]

theorem blow_all (word new : Nat) (order : List Nat) :
    blow word new order [] = ((order.filter (bit new)).foldl (fun v i => setBit v i true) word, true) := by
  have hall : (order.filter (bit new)).takeWhile (fun i => !([] : List Nat).contains i) = order.filter (bit new) :=
    List.takeWhile_eq_self_iff.mpr fun _ _ => rfl
  simp only [blow, hall, beq_self_eq_true]

/-- R365: the new bits of the order are blown, and no other. -/
theorem bit_blow (word new : Nat) (order : List Nat) (i : Nat) :
    bit (blow word new order []).1 i = (bit word i || (decide (i ∈ order) && bit new i)) := by
  rw [blow_all, bit_foldl_setBit_true]
  simp [List.mem_filter]

theorem bit_xor (a b i : Nat) : bit (a ^^^ b) i = (bit a i ^^ bit b i) := by
  simp [bit_eq_testBit]

theorem bit_mod (a i : Nat) (hi : i < 32) : bit (a % 2 ^ 32) i = bit a i := by
  rw [bit_eq_testBit, bit_eq_testBit, Nat.testBit_mod_two_pow, decide_eq_true hi, Bool.true_and]

/-- A word within another has its bits. -/
theorem bit_of_subset {a b : Nat} (h : a &&& b = a) (i : Nat) (hi : bit a i = true) : bit b i = true := by
  have hand := congrArg (Nat.testBit · i) h
  simp only [Nat.testBit_and] at hand
  rw [bit_eq_testBit] at hi ⊢
  simpa [hi] using hand

theorem sealedWord_mod (data : Nat) : sealedWord data % 2 ^ 32 = data % 2 ^ 32 := by
  simp only [sealedWord]
  omega

theorem bit_sealedWord_data (data i : Nat) (hi : i < 32) : bit (sealedWord data) i = bit data i := by
  rw [← bit_mod _ i hi, sealedWord_mod, bit_mod _ i hi]

theorem subset_sealedWord {data : Nat} (hdata : data < 2 ^ 32) : data &&& sealedWord data = data := by
  refine Nat.eq_of_testBit_eq fun i => ?_
  rw [Nat.testBit_and]
  by_cases hi : i < 32
  · have hseal := bit_sealedWord_data data i hi
    rw [bit_eq_testBit, bit_eq_testBit] at hseal
    rw [hseal, Bool.and_self]
  · have hzero : data.testBit i = false := Nat.testBit_lt_two_pow (lt_of_lt_of_le hdata (Nat.pow_le_pow_right (by decide) (by omega)))
    rw [hzero, Bool.false_and]

end Blow

/-! Programming and sealing a word -/

section Words

variable (n : NonVol) (w : Nat)

theorem NonVol.fuse_set (v j : Nat) :
    NonVol.fuse { n with fuses := cellSet (fun _ => 0) n.fuses w v } j = if j = w then v else n.fuse j :=
  cellGet_cellSet _ _ _ _ _

variable {n w}

/-- The flash with word `w` programmed to `data`. -/
def NonVol.programmed (n : NonVol) (w data : Nat) : NonVol :=
  { n with fuses := cellSet (fun _ => 0) n.fuses w (blow (n.fuse w) (data ^^^ (n.fuse w % 2 ^ 32)) (List.range 32) []).1 }

/-- The order in which a seal blows: the check bits, then the seal bit. -/
def sealOrder : List Nat := (List.range 7).map (· + 33) ++ [32]

theorem mem_sealOrder {i : Nat} : i ∈ sealOrder ↔ 32 ≤ i ∧ i < 40 := by
  simp only [sealOrder, List.mem_append, List.mem_map, List.mem_range, List.mem_singleton]
  constructor
  · rintro (⟨j, hj, rfl⟩ | rfl) <;> omega
  · intro h
    by_cases hi : i = 32
    · exact .inr hi
    · exact .inl ⟨i - 33, by omega, by omega⟩

/-- The flash with word `w` sealed. -/
def NonVol.sealedAt (n : NonVol) (w : Nat) : NonVol :=
  { n with fuses := cellSet (fun _ => 0) n.fuses w (blow (n.fuse w) (sealedWord (n.fuse w) ^^^ n.fuse w) sealOrder []).1 }

theorem programWord_sealed (hsealed : bit (n.fuse w) 32 = true) (data : Nat) (fails : List Nat) :
    programWord n w data fails = (n, 2) := if_pos hsealed

theorem programWord_clears {data : Nat} (hopen : bit (n.fuse w) 32 = false)
    (hclear : (n.fuse w % 2 ^ 32 &&& data) ≠ n.fuse w % 2 ^ 32) (fails : List Nat) : programWord n w data fails = (n, 3) := by
  simp only [programWord]
  rw [if_neg (by simp [hopen]), if_pos hclear]

theorem programWord_blows {data : Nat} (hopen : bit (n.fuse w) 32 = false)
    (hkeeps : (n.fuse w % 2 ^ 32 &&& data) = n.fuse w % 2 ^ 32) : programWord n w data [] = (n.programmed w data, 1) := by
  simp only [programWord]
  rw [if_neg (by simp [hopen]), if_neg (not_not_intro hkeeps)]
  simp only [blow_all, NonVol.programmed, if_true]

theorem sealWord_sealed (hsealed : bit (n.fuse w) 32 = true) (fails : List Nat) : sealWord n w fails = (n, 2) := if_pos hsealed

theorem sealWord_blows (hopen : bit (n.fuse w) 32 = false)
    (hkeeps : (n.fuse w &&& sealedWord (n.fuse w)) = n.fuse w) : sealWord n w [] = (n.sealedAt w, 1) := by
  simp only [sealWord]
  rw [if_neg (by simp [hopen]), if_neg (not_not_intro hkeeps)]
  simp only [blow_all, NonVol.sealedAt, sealOrder, if_true]

theorem NonVol.fuse_programmed_other (data : Nat) {j : Nat} (hj : j ≠ w) : (n.programmed w data).fuse j = n.fuse j :=
  (n.fuse_set w _ j).trans (if_neg hj)

theorem NonVol.fuse_sealedAt_other {j : Nat} (hj : j ≠ w) : (n.sealedAt w).fuse j = n.fuse j :=
  (n.fuse_set w _ j).trans (if_neg hj)

theorem NonVol.bit_programmed (data i : Nat) : bit ((n.programmed w data).fuse w) i =
    (bit (n.fuse w) i || (decide (i < 32) && bit (data ^^^ (n.fuse w % 2 ^ 32)) i)) := by
  rw [NonVol.programmed, NonVol.fuse_set, if_pos rfl, bit_blow]
  simp only [List.mem_range]

/-- R365: a program blows the data. -/
theorem NonVol.programmed_data {data : Nat} (hkeeps : (n.fuse w % 2 ^ 32 &&& data) = n.fuse w % 2 ^ 32) {i : Nat} (hi : i < 32) :
    bit ((n.programmed w data).fuse w) i = bit data i := by
  have hsubset := bit_of_subset hkeeps i
  rw [bit_mod _ i hi] at hsubset
  rw [NonVol.bit_programmed, bit_xor, bit_mod _ i hi, decide_eq_true hi, Bool.true_and]
  cases hcur : bit (n.fuse w) i with
  | false => simp
  | true => simp [hsubset hcur]

/-- R362: a seal makes the word its sealed form. -/
theorem NonVol.sealedAt_word (hkeeps : (n.fuse w &&& sealedWord (n.fuse w)) = n.fuse w) {i : Nat} (hi : i < 40) :
    bit ((n.sealedAt w).fuse w) i = bit (sealedWord (n.fuse w)) i := by
  have hsubset := bit_of_subset hkeeps i
  rw [NonVol.sealedAt, NonVol.fuse_set, if_pos rfl, bit_blow, bit_xor]
  by_cases hdata : i < 32
  · have hout : i ∉ sealOrder := fun hmem => by
      have hrange := mem_sealOrder.mp hmem
      omega
    rw [decide_eq_false hout, Bool.false_and, Bool.or_false, bit_sealedWord_data _ i hdata]
  · rw [decide_eq_true (mem_sealOrder.mpr ⟨by omega, hi⟩), Bool.true_and]
    cases hcur : bit (n.fuse w) i with
    | false => simp
    | true => simp [hsubset hcur]

/-- A word that nothing was blown of holds the data. -/
theorem NonVol.fuse_programmed_empty (hempty : n.fuse w = 0) {data : Nat} (hdata : data < 2 ^ 32) :
    (n.programmed w data).fuse w = data := by
  refine Nat.eq_of_testBit_eq fun i => ?_
  rw [← bit_eq_testBit, ← bit_eq_testBit]
  by_cases hi : i < 32
  · exact NonVol.programmed_data (by simp [hempty]) hi
  · have hzero : bit data i = false := by
      rw [bit_eq_testBit]
      exact Nat.testBit_lt_two_pow (lt_of_lt_of_le hdata (Nat.pow_le_pow_right (by decide) (by omega)))
    rw [NonVol.bit_programmed, hempty, decide_eq_false hi, hzero]
    simp [bit]

/-- Word `w` holds `data`, sealed, and every other word what it held. -/
def NonVol.SealedWith (m n : NonVol) (w data : Nat) : Prop :=
  (∀ i, i < 40 → bit (m.fuse w) i = bit (sealedWord data) i) ∧ ∀ j, j ≠ w → m.fuse j = n.fuse j

/-- R372: a word that nothing was blown of is programmed and sealed. -/
theorem writeSealed_empty (hempty : n.fuse w = 0) {data : Nat} (hdata : data < 2 ^ 32) :
    ∃ m : NonVol, writeSealed n w data [] = (m, 1) ∧ m.SealedWith n w data := by
  have hword := NonVol.fuse_programmed_empty hempty hdata
  have hopen : bit ((n.programmed w data).fuse w) 32 = false := by
    rw [hword, bit_eq_testBit]
    exact Nat.testBit_lt_two_pow hdata
  have hkeeps : (n.programmed w data).fuse w &&& sealedWord ((n.programmed w data).fuse w) = (n.programmed w data).fuse w := by
    rw [hword]
    exact subset_sealedWord hdata
  refine ⟨(n.programmed w data).sealedAt w, ?_, fun i hi => ?_, fun j hj => ?_⟩
  · rw [writeSealed, programWord_blows (by rw [hempty]; rfl) (by simp [hempty])]
    exact sealWord_blows hopen hkeeps
  · rw [NonVol.sealedAt_word hkeeps hi, hword]
  · rw [NonVol.fuse_sealedAt_other hj, NonVol.fuse_programmed_other _ hj]

/-- The words of region `r`. -/
def regionList (r : Nat) : List Nat := (List.range ((regionWords r).2 + 1 - (regionWords r).1)).map (· + (regionWords r).1)

theorem mem_regionList {r j : Nat} : j ∈ regionList r ↔ (regionWords r).1 ≤ j ∧ j ≤ (regionWords r).2 := by
  simp only [regionList, List.mem_map, List.mem_range]
  constructor
  · rintro ⟨i, hi, rfl⟩
    omega
  · intro h
    exact ⟨j - (regionWords r).1, by omega, by omega⟩

theorem lockRegion_eq (r : Nat) (fails : List Nat) : lockRegion n r fails =
    if (regionList r).all (fun w => bit (n.fuse w) 32 && !(fuseDecode (n.fuse w)).bad && (fuseDecode (n.fuse w)).sealed) then
      writeSealed n (503 + r) (lockPattern r) fails else (n, 7) := rfl

theorem lockRegion_open {r : Nat} (hopen : ∃ j, (regionWords r).1 ≤ j ∧ j ≤ (regionWords r).2 ∧ bit (n.fuse j) 32 = false)
    (fails : List Nat) : lockRegion n r fails = (n, 7) := by
  obtain ⟨j, hlo, hhi, hbit⟩ := hopen
  rw [lockRegion_eq]
  refine if_neg fun hall => ?_
  have hword := List.all_eq_true.mp hall j (mem_regionList.mpr ⟨hlo, hhi⟩)
  simp [hbit] at hword

theorem lockRegion_locks {r : Nat} (hall : ∀ j, (regionWords r).1 ≤ j → j ≤ (regionWords r).2 →
      bit (n.fuse j) 32 = true ∧ (fuseDecode (n.fuse j)).bad = false ∧ (fuseDecode (n.fuse j)).sealed = true)
    (fails : List Nat) : lockRegion n r fails = writeSealed n (503 + r) (lockPattern r) fails := by
  rw [lockRegion_eq]
  refine if_pos (List.all_eq_true.mpr fun j hj => ?_)
  obtain ⟨hlo, hhi⟩ := mem_regionList.mp hj
  obtain ⟨hbit, hgood, hsealed⟩ := hall j hlo hhi
  simp [hbit, hgood, hsealed]

end Words

/-! The sequencer's commands (R365-R367) -/

section Sequences

variable {s : State} {sup : Bool} {r : Nat} {f : NonVol → NonVol × Nat}

theorem sequencerRefuses_range (n : NonVol) (e : Engine) (r : Nat) (sup : Bool) :
    sequencerRefuses n e r sup = 0 ∨ sequencerRefuses n e r sup = 5 ∨ sequencerRefuses n e r sup = 6 ∨
      sequencerRefuses n e r sup = 9 ∨ sequencerRefuses n e r sup = 10 := by
  unfold sequencerRefuses
  split_ifs <;> simp

theorem fuseAbort_refuses {no : Nat} (h : no = 5 ∨ no = 6 ∨ no = 9 ∨ no = 10) : fuseAbort no = abState := by
  rcases h with rfl | rfl | rfl | rfl <;> rfl

theorem fuseCommand_served (hs : s.serves 3) : fuseCommand r sup f s =
    fuseAnswer s (if sequencerRefuses s.nv s.e r sup = 0 then f s.nv else (s.nv, sequencerRefuses s.nv s.e r sup)) := by
  obtain ⟨hlive, hserving⟩ := hs
  rw [fuseCommand, if_neg (by simp [hlive]), if_neg (by simp [hserving])]

theorem fuseAnswer_refused {no code : Nat} (hcode : fuseAbort no = code) (hne : code ≠ 0) :
    fuseAnswer s (s.nv, no) = { s with e := (s.e.put 0x4302 5 no).refuse code } := by
  subst hcode
  simp only [fuseAnswer]
  rw [if_neg hne]

theorem fuseAnswer_done (m : NonVol) : fuseAnswer s (m, 1) = { s with nv := m, e := (s.e.put 0x4302 5 1).done } := rfl

variable {c : Instr}

/-- A command whose answer is a result that refuses it. -/
theorem fuseRefused (hs : s.serves 3) (hexec : exec c s = .next (fuseCommand r sup f s)) {no code : Nat}
    (hresult : (if sequencerRefuses s.nv s.e r sup = 0 then f s.nv else (s.nv, sequencerRefuses s.nv s.e r sup)) = (s.nv, no))
    (hcode : fuseAbort no = code) (hne : code ≠ 0) : Answers c s code [(0x430205, no)] := by
  rw [fuseCommand_served hs, hresult, fuseAnswer_refused hcode hne] at hexec
  exact answers_of_put_refuse (i := 0x4302) (j := 5) hexec

theorem fuseSequencer_refused (hs : s.serves 3) (hexec : exec c s = .next (fuseCommand r sup f s))
    (hno : sequencerRefuses s.nv s.e r sup ≠ 0) : Answers c s 0x08000022 [(0x430205, sequencerRefuses s.nv s.e r sup)] :=
  fuseRefused hs hexec (if_neg hno) (fuseAbort_refuses ((sequencerRefuses_range _ _ _ _).resolve_left hno)) (by decide)

theorem fuseWord_refused (hs : s.serves 3) (hexec : exec c s = .next (fuseCommand r sup f s))
    (hfree : sequencerRefuses s.nv s.e r sup = 0) {no : Nat} (hno : f s.nv = (s.nv, no))
    (hcode : fuseAbort no = 0x06090030) : Answers c s 0x06090030 [(0x430205, no)] :=
  fuseRefused hs hexec ((if_pos hfree).trans hno) hcode (by decide)

/-- A command that blows its bits: the words, the result and the answer. -/
theorem fuseDone (hs : s.serves 3) (hexec : exec c s = .next (fuseCommand r sup f s))
    (hfree : sequencerRefuses s.nv s.e r sup = 0) {m : NonVol} (hblown : f s.nv = (m, 1)) {P : State → Prop}
    (hP : P { s with nv := m, e := (s.e.put 0x4302 5 1).done }) : Completes c s P := by
  rw [fuseCommand_served hs, if_pos hfree, hblown, fuseAnswer_done] at hexec
  exact ⟨_, hexec, hP⟩

theorem exec_fuseProgram (fails : List Nat) : exec (.fuseProgram sup fails) s = .next (fuseCommand (regionOf (s.e.get 0x4302 1)) sup
    (fun n => programWord n (s.e.get 0x4302 1) (s.e.get 0x4302 2) fails) s) := rfl

theorem exec_fuseSeal (fails : List Nat) : exec (.fuseSeal sup fails) s = .next (fuseCommand (regionOf (s.e.get 0x4302 1)) sup
    (fun n => sealWord n (s.e.get 0x4302 1) fails) s) := rfl

theorem exec_fuseLock (fails : List Nat) : exec (.fuseLock sup fails) s =
    .next (fuseCommand (s.e.get 0x4302 4) sup (fun n => lockRegion n (s.e.get 0x4302 4) fails) s) := rfl

theorem lockPattern_lt {r : Nat} (hr : r ≤ 8) : lockPattern r < 2 ^ 32 := by
  unfold lockPattern
  omega

/-- Settles O52: the sequencer's refusals, then a program, a seal and a lock by the word they find. -/
theorem fuseCommands : Obligations.FuseCommands := by
  intro s sup w r d hs hw hd hr
  subst hw hd hr
  have hget : ∀ m : NonVol, (State.mk s.pending m (s.e.put 0x4302 5 1).done).e.get 0x4302 5 = 1 := fun _ =>
    Engine.get_put_same _ _ _ _
  refine ⟨fun hno fails =>
      ⟨fuseSequencer_refused hs (exec_fuseProgram fails) hno, fuseSequencer_refused hs (exec_fuseSeal fails) hno⟩,
    fun hfree fails => ⟨fun hsealed => ⟨?_, ?_⟩, fun hopen hclear => ?_⟩,
    fun hfree hopen => ⟨fun hkeeps => ?_, fun hkeeps => ?_⟩, fun hfree => ⟨fun hopen fails => ?_, fun hall hempty hsmall => ?_⟩⟩
  · exact fuseWord_refused hs (exec_fuseProgram fails) hfree (programWord_sealed hsealed _ _) rfl
  · exact fuseWord_refused hs (exec_fuseSeal fails) hfree (sealWord_sealed hsealed _) rfl
  · exact fuseWord_refused hs (exec_fuseProgram fails) hfree (programWord_clears hopen hclear _) rfl
  · exact fuseDone hs (exec_fuseProgram []) hfree (programWord_blows hopen hkeeps)
      ⟨fun i hi => NonVol.programmed_data hkeeps hi, fun j hj => NonVol.fuse_programmed_other _ hj, hget _, rfl,
        fun k hk => Engine.ent_put_other (i := 0x4302) (j := 5) hk⟩
  · exact fuseDone hs (exec_fuseSeal []) hfree (sealWord_blows hopen hkeeps)
      ⟨fun i hi => NonVol.sealedAt_word hkeeps hi, fun j hj => NonVol.fuse_sealedAt_other hj, hget _, rfl⟩
  · exact fuseWord_refused hs (exec_fuseLock fails) hfree (lockRegion_open hopen fails) rfl
  · obtain ⟨m, hblown, hword, hothers⟩ := writeSealed_empty hempty (lockPattern_lt hsmall)
    exact fuseDone hs (exec_fuseLock []) hfree ((lockRegion_locks hall []).trans hblown) ⟨hword, hothers, hget _, rfl⟩

end Sequences

end Sys2Proof.Machine

/-! The life-cycle (R372), key revocation (R373) and the debug port (R371). -/

namespace Sys2Proof.Machine

section Nonce

variable (e : Engine)

/-- R372: the nonce that an evaluation leaves is another. -/
theorem Engine.newNonce_changes : e.newNonce.get 0x4310 4 ≠ e.get 0x4310 4 := by
  have hnonce : e.newNonce.get 0x4310 4 = (e.get 0x4310 4 + 1 + e.freeVal.toNat % (2 ^ 32 - 1)) % 2 ^ 32 :=
    Engine.get_put_same _ _ _ _
  have hstep : e.freeVal.toNat % (2 ^ 32 - 1) < 2 ^ 32 - 1 := Nat.mod_lt _ (by decide)
  rw [hnonce]
  generalize e.freeVal.toNat % (2 ^ 32 - 1) = f at hstep ⊢
  omega

theorem Engine.ent_newNonce {k : Nat} (hk : k ≠ 0x431004) : e.newNonce.ent k = e.ent k := Engine.ent_put_other (i := 0x4310) (j := 4) hk

end Nonce

section Transition

variable {s : State} {target r : Nat} {sup seen : Bool}

theorem transition_unknown (hs : s.serves 3) (hrange : target = 0 ∨ 4 < target) :
    transition target sup s = { s with e := s.e.refuse abValue } := by
  obtain ⟨hlive, hserving⟩ := hs
  rw [transition, if_neg (by simp [hlive]), if_neg (by simp [hserving]), if_pos hrange]

/-- The engine once the object of a transition has been evaluated, where it is. -/
def Engine.evaluated (e : Engine) (seen : Bool) : Engine := if seen then e.newNonce else e

theorem transition_known (hs : s.serves 3) (hlo : 1 ≤ target) (hhi : target ≤ 4)
    (hresult : s.e.transitionResult target sup = (r, seen)) : transition target sup s =
      if r ≠ 1 then { s with e := (s.e.evaluated seen).transitionRefused r }
      else if (writeSealed s.nv (target - 1) (cyclePattern target) []).2 = 1 then
        restart { s with nv := (writeSealed s.nv (target - 1) (cyclePattern target) []).1,
                         e := ((s.e.evaluated seen).put 0x4310 5 1).done } .lifecycle
      else { s with nv := (writeSealed s.nv (target - 1) (cyclePattern target) []).1,
                    e := (s.e.evaluated seen).refuse abAction } := by
  obtain ⟨hlive, hserving⟩ := hs
  rw [transition, if_neg (by simp [hlive]), if_neg (by simp [hserving]), if_neg (by omega), hresult]
  rfl

theorem cyclePattern_lt (hhi : target ≤ 4) : cyclePattern target < 2 ^ 32 := by
  unfold cyclePattern
  omega

/-- A restart for the life-cycle: the words stay, and Dawn begins with cause 4. -/
theorem restart_lifecycle {m : NonVol} {w data : Nat} (hsealed : m.SealedWith s.nv w data) (e : Engine) :
    (∀ i, i < 40 → bit ((restart { s with nv := m, e := e } .lifecycle).nv.fuse w) i = bit (sealedWord data) i) ∧
    (∀ j, j ≠ w → (restart { s with nv := m, e := e } .lifecycle).nv.fuse j = s.nv.fuse j) ∧
    (restart { s with nv := m, e := e } .lifecycle).e.mode = .dawn ∧
    (restart { s with nv := m, e := e } .lifecycle).e.get 0x4320 3 = 4 ∧
    (restart { s with nv := m, e := e } .lifecycle).e.get 0x2001 1 = 1 ∧
    (restart { s with nv := m, e := e } .lifecycle).pending = s.pending :=
  ⟨hsealed.1, hsealed.2, restart_mode _ _, restart_cause _ _, restart_step _ _, rfl⟩

theorem transition_refused (hs : s.serves 3) (hlo : 1 ≤ target) (hhi : target ≤ 4)
    (hresult : s.e.transitionResult target sup = (r, false)) (hr : r ≠ 1) : transition target sup s =
      { s with e := (s.e.put 0x4310 5 r).refuse (if r = 4 ∨ r = 5 then abValue else abState) } := by
  rw [transition_known hs hlo hhi hresult, if_pos hr]
  rfl

theorem transition_accepted (hs : s.serves 3) (hlo : 1 ≤ target) (hhi : target ≤ 4)
    (hresult : (s.e.transitionResult target sup).1 = 1) (hempty : s.nv.fuse (target - 1) = 0) :
    ∃ m : NonVol, m.SealedWith s.nv (target - 1) (cyclePattern target) ∧
      ∃ e : Engine, transition target sup s = restart { s with nv := m, e := e } .lifecycle := by
  obtain ⟨m, hwritten, hsealed⟩ := writeSealed_empty hempty (cyclePattern_lt hhi)
  obtain ⟨r, seen, hpair⟩ : ∃ r seen, s.e.transitionResult target sup = (r, seen) := ⟨_, _, rfl⟩
  obtain rfl : r = 1 := by rwa [hpair] at hresult
  refine ⟨m, hsealed, ((s.e.evaluated seen).put 0x4310 5 1).done, ?_⟩
  rw [transition_known hs hlo hhi hpair, if_neg (not_not_intro rfl), hwritten, if_pos rfl]

end Transition

section Revoke

variable {s : State} {sup : Bool} {a : Nat}

theorem revoke_refused (hs : s.serves 3) (h : s.e.jobState ≠ 0 ∨ s.e.fuseSupply sup = false) :
    revoke sup s = { s with e := s.e.refuse abState } := by
  obtain ⟨hlive, _⟩ := hs
  have hno : !s.e.serving 3 ∨ s.e.jobState ≠ 0 ∨ !s.e.fuseSupply sup ∨ !(s.e.get 0x4300 1 = 1 ∨ s.e.get 0x4300 1 = 2) :=
    .inr (h.imp_right fun hsup => .inl (by simp [hsup]))
  simp only [revoke]
  rw [if_neg (by simp [hlive]), if_pos hno]

/-- R373: in PRODUCE the object is evaluated, and its slot's word sealed where it is good. -/
theorem revoke_evaluated (hs : s.serves 3) (hjob : s.e.jobState = 0) (hsup : s.e.fuseSupply sup = true)
    (hstate : s.e.get 0x4300 1 = 2) (ha : a = le ((s.e.dom 0x4310 3 |>.drop 4).take 1)) : revoke sup s =
      if !((a == 2 || a == 3) && s.e.authorised a) then { s with e := s.e.newNonce.refuse abValue }
      else { s with nv := (writeSealed s.nv (4 + a - 2) (revokePattern (a - 2)) []).1,
                    e := if (writeSealed s.nv (4 + a - 2) (revokePattern (a - 2)) []).2 = 1 then s.e.newNonce.done
                      else s.e.newNonce.refuse (fuseAbort (writeSealed s.nv (4 + a - 2) (revokePattern (a - 2)) []).2) } := by
  obtain ⟨hlive, hserving⟩ := hs
  subst ha
  simp only [revoke]
  rw [if_neg (by simp [hlive]), if_neg (by simp [hserving, hjob, hsup, hstate])]

theorem keyRevoke_otherAction (hs : s.serves 3) (hjob : s.e.jobState = 0) (hsup : s.e.fuseSupply sup = true)
    (hstate : s.e.get 0x4300 1 = 2) (ha : a = le ((s.e.dom 0x4310 3 |>.drop 4).take 1))
    (h2 : a ≠ 2) (h3 : a ≠ 3) : Completes (.keyRevoke sup) s (fun t => t.e.sdo = 0x06090030 ∧
      t.e.get 0x4310 4 ≠ s.e.get 0x4310 4 ∧ t.nv = s.nv ∧ (∀ j, j ≠ 0x431004 → t.e.ent j = s.e.ent j)) := by
  refine ⟨revoke sup s, rfl, ?_⟩
  rw [revoke_evaluated hs hjob hsup hstate ha, if_pos (by simp [h2, h3])]
  exact ⟨rfl, s.e.newNonce_changes, rfl, fun j hj => s.e.ent_newNonce hj⟩

theorem keyRevoke_revokes (hs : s.serves 3) (hjob : s.e.jobState = 0) (hsup : s.e.fuseSupply sup = true)
    (hstate : s.e.get 0x4300 1 = 2) (ha : a = le ((s.e.dom 0x4310 3 |>.drop 4).take 1))
    (hslot : a = 2 ∨ a = 3) (hgood : s.e.authorised a = true) (hempty : s.nv.fuse (2 + a) = 0) :
    Completes (.keyRevoke sup) s (fun t =>
      (∀ i, i < 40 → bit (t.nv.fuse (2 + a)) i = bit (sealedWord (revokePattern (a - 2))) i) ∧
      (∀ j, j ≠ 2 + a → t.nv.fuse j = s.nv.fuse j) ∧ t.e.sdo = 0 ∧ t.e.get 0x4310 4 ≠ s.e.get 0x4310 4) := by
  have hok : ((a == 2 || a == 3) && s.e.authorised a) = true := by
    rw [hgood, Bool.and_true]
    simpa using hslot
  have hword : 4 + a - 2 = 2 + a := by omega
  have hpattern : revokePattern (a - 2) < 2 ^ 32 := by
    unfold revokePattern
    omega
  obtain ⟨m, hwritten, hsealed, hothers⟩ := writeSealed_empty hempty hpattern
  refine ⟨revoke sup s, rfl, ?_⟩
  rw [revoke_evaluated hs hjob hsup hstate ha, if_neg (by simp [hok]), hword, hwritten, if_pos rfl]
  exact ⟨hsealed, hothers, rfl, s.e.newNonce_changes⟩

end Revoke

section DebugPort

variable {s : State}

theorem debugPort_early (x : DebugAccess) (h : s.e.dawnStep < 2) : debugPort x s = s := if_pos (.inr h)

theorem debugPort_open (hlive : s.e.live = true) (hstep : 2 ≤ s.e.dawnStep) : ¬ ((!s.e.live) = true ∨ s.e.dawnStep < 2) := by
  rintro (hdead | hearly)
  · simp [hlive] at hdead
  · omega

theorem debugPort_identity (hlive : s.e.live = true) (hstep : 2 ≤ s.e.dawnStep) : debugPort .identity s =
    { s with e := s.e.send (.debug (toLe 8 (s.e.get 0x2000 2) ++ toLe 2 (s.e.get 0x2000 3) ++ toLe 1 (s.e.get 0x4300 1))) } :=
  if_neg (debugPort_open hlive hstep)

theorem debugPort_core (hlive : s.e.live = true) (hstep : 2 ≤ s.e.dawnStep) (p : Fin 4) : debugPort (.core p) s =
    if s.e.get 0x4300 1 = 1 ∨ s.e.get 0x4300 1 = 3 then { s with e := s.e.send (.debug (toLe 1 p.val)) } else s :=
  if_neg (debugPort_open hlive hstep)

/-- R371: in PRODUCE the sequencer is closed to the debug port. -/
theorem debugPort_produce (hlive : s.e.live = true) (hstep : 2 ≤ s.e.dawnStep) (hstate : s.e.get 0x4300 1 = 2) :
    (∀ p, debugPort (.core p) s = s) ∧ (∀ w dat, debugPort (.fuseProgram w dat) s = s) ∧ ∀ w, debugPort (.fuseSeal w) s = s := by
  have hopen := debugPort_open hlive hstep
  refine ⟨fun p => ?_, fun w dat => ?_, fun w => ?_⟩
  · rw [debugPort_core hlive hstep, if_neg (by simp [hstate])]
  · rw [debugPort, if_neg hopen]
    exact if_neg (by simp [hstate])
  · rw [debugPort, if_neg hopen]
    exact if_neg (by simp [hstate])

theorem debugPort_toDevelop (hlive : s.e.live = true) (hstep : 2 ≤ s.e.dawnStep) (hmode : s.e.mode = .debugWait)
    (hsup : s.e.fuseSupply true = true) (hempty : s.nv.fuse 0 = 0) :
    ∃ m : NonVol, m.SealedWith s.nv 0 0x4C430001 ∧
      debugPort .toDevelop s = restart { s with nv := m, e := s.e } .lifecycle := by
  obtain ⟨m, hwritten, hsealed⟩ := writeSealed_empty hempty (cyclePattern_lt (target := 1) (by decide))
  refine ⟨m, hsealed, ?_⟩
  rw [debugPort, if_neg (debugPort_open hlive hstep)]
  simp only [hmode, hsup, and_self, if_true, hwritten]

/-- Settles O53: a transition by its result, a revocation by its object, the debug port by life-cycle state. -/
theorem lifeCycle : Obligations.LifeCycle := by
  intro s k sup a hs ha
  have hlive : s.e.live = true := hs.1
  refine ⟨fun hrange => congrArg Host.Outcome.next (transition_unknown hs hrange), fun r hlo hhi hresult hr => ?_,
    fun hlo hhi hresult hempty => ?_, fun hno => congrArg Host.Outcome.next (revoke_refused hs hno),
    fun hjob hsup hstate _ => ⟨keyRevoke_otherAction hs hjob hsup hstate ha, keyRevoke_revokes hs hjob hsup hstate ha⟩,
    fun x hearly => congrArg Host.Outcome.next (debugPort_early x hearly),
    fun hstep => ⟨congrArg Host.Outcome.next (debugPort_identity hlive hstep), fun p hcores => ?_, fun hstate p w dat => ?_,
      fun hmode hsup hempty => ?_⟩⟩
  · exact answers_of_put_refuse (i := 0x4310) (j := 5) (congrArg Host.Outcome.next (transition_refused hs hlo hhi hresult hr))
  · obtain ⟨m, hsealed, e, hrestart⟩ := transition_accepted hs hlo hhi hresult hempty
    exact ⟨_, congrArg Host.Outcome.next hrestart, restart_lifecycle hsealed e⟩
  · exact congrArg Host.Outcome.next ((debugPort_core hlive hstep p).trans (if_pos hcores))
  · obtain ⟨hcore, hprogram, hseal⟩ := debugPort_produce hlive hstep hstate
    exact ⟨congrArg Host.Outcome.next (hcore p), congrArg Host.Outcome.next (hprogram w dat), congrArg Host.Outcome.next (hseal w)⟩
  · obtain ⟨m, hsealed, hrestart⟩ := debugPort_toDevelop hlive hstep hmode hsup hempty
    obtain ⟨hword, _, hdawn, hcause, _⟩ := restart_lifecycle hsealed s.e
    exact ⟨_, congrArg Host.Outcome.next hrestart, hword, hdawn, hcause⟩

end DebugPort

end Sys2Proof.Machine

/-! Peers of the field network (R387-R390): configuration, step by step. -/

namespace Sys2Proof.Machine

section Configuring

variable (e : Engine) {i j : Nat}

@[simp] theorem Engine.get_setPeer (k : Nat) (p : Peer) (a b : Nat) : (e.setPeer k p).get a b = e.get a b := rfl
@[simp] theorem Engine.ent_setPeer (k : Nat) (p : Peer) (a : Nat) : (e.setPeer k p).ent a = e.ent a := rfl
@[simp] theorem Engine.peer_put (a b v k : Nat) : (e.put a b v).peer k = e.peer k := rfl
@[simp] theorem Engine.peer_bump (a b v k : Nat) : (e.bump a b v).peer k = e.peer k := rfl
@[simp] theorem Engine.peer_send (o : Output) (k : Nat) : (e.send o).peer k = e.peer k := rfl

theorem Engine.peer_setPeer_same (k : Nat) (p : Peer) : (e.setPeer k p).peer k = p := by
  rw [Engine.peer_setPeer, if_pos rfl]

theorem Engine.peer_setPeer_other {k l : Nat} (p : Peer) (h : l ≠ k) : (e.setPeer k p).peer l = e.peer l := by
  rw [Engine.peer_setPeer, if_neg h]

/-- R388: a step sends its request and nothing else. -/
theorem Engine.sendStep_out : ∃ out, e.sendStep i = { e with out := out } := by
  simp only [Engine.sendStep]
  split_ifs
  · exact ⟨e.out, rfl⟩
  · exact ⟨_, rfl⟩
  · exact ⟨_, rfl⟩
  · exact ⟨_, rfl⟩

theorem Engine.ent_sendStep (k : Nat) : (e.sendStep i).ent k = e.ent k := by
  obtain ⟨_, hout⟩ := e.sendStep_out (i := i)
  rw [hout]
  rfl

theorem Engine.get_sendStep (a b : Nat) : (e.sendStep i).get a b = e.get a b := e.ent_sendStep _

theorem Engine.peer_sendStep (k : Nat) : (e.sendStep i).peer k = e.peer k := by
  obtain ⟨_, hout⟩ := e.sendStep_out (i := i)
  rw [hout]
  rfl

/-- R388: the first four steps read the identity. -/
theorem Engine.sendStep_identity (hlo : 1 ≤ (e.peer i).cfgStep) (hhi : (e.peer i).cfgStep ≤ 4) :
    e.sendStep i = e.usdo i 1 0x1018 (e.peer i).cfgStep [] := by
  rw [Engine.sendStep, if_neg (by omega), if_pos hhi]

/-- Peer i in state 1, at its first step. -/
def Engine.configuring (e : Engine) (i : Nat) : Engine :=
  ((e.put (peerIdx i) 2 1).put (peerIdx i) 0x15 1).setPeer i
    { e.peer i with cfgStep := 1, retried := false, scriptOff := 0, idRead := [] }

theorem Engine.startConfig_eq : e.startConfig i = (e.configuring i).sendStep i := rfl

theorem Engine.peer_startConfig : (e.startConfig i).peer i =
    { e.peer i with cfgStep := 1, retried := false, scriptOff := 0, idRead := [] } := by
  rw [Engine.startConfig_eq, Engine.peer_sendStep, Engine.configuring, Engine.peer_setPeer_same]

theorem Engine.get_startConfig : (e.startConfig i).get (peerIdx i) 2 = 1 ∧ (e.startConfig i).get (peerIdx i) 0x15 = 1 := by
  rw [Engine.startConfig_eq, Engine.get_sendStep, Engine.get_sendStep, Engine.configuring, Engine.get_setPeer, Engine.get_setPeer,
    Engine.get_put_subindex _ _ (by decide), Engine.get_put_same, Engine.get_put_same]
  exact ⟨rfl, rfl⟩

theorem Engine.ent_startConfig {k : Nat} (hstate : k ≠ ekey (peerIdx i) 2) (hstale : k ≠ ekey (peerIdx i) 0x15) :
    (e.startConfig i).ent k = e.ent k := by
  rw [Engine.startConfig_eq, Engine.ent_sendStep, Engine.configuring, Engine.ent_setPeer, Engine.ent_put_other hstale,
    Engine.ent_put_other hstate]

theorem Engine.get_startConfig_other {b : Nat} (hb : b ≠ 2) (hb' : b ≠ 0x15) :
    (e.startConfig i).get (peerIdx i) b = e.get (peerIdx i) b :=
  e.ent_startConfig (fun h => hb ((ekey_same_index _ _ _).mp h)) fun h => hb' ((ekey_same_index _ _ _).mp h)

/-- Peer i in state 5 with an abort code (R388). -/
def Engine.configAborted (e : Engine) (i code : Nat) : Engine :=
  (((e.setPeer i { e.peer i with cfgStep := 0 }).put (peerIdx i) 2 5).bump (peerIdx i) 0x13 1).put (peerIdx i) 0x14 code

theorem Engine.configFailed_eq (code : Nat) : e.configFailed i code = ((e.configAborted i code).raise 0x0F 2 i).discovered := rfl

theorem Engine.get_configAborted (code : Nat) : (e.configAborted i code).get (peerIdx i) 2 = 5 ∧
    (e.configAborted i code).get (peerIdx i) 0x14 = code ∧
    (e.configAborted i code).get (peerIdx i) 0x13 = satAdd (entBits (peerIdx i) 0x13) (e.get (peerIdx i) 0x13) 1 ∧
    ((e.configAborted i code).peer i).cfgStep = 0 := by
  refine ⟨?_, Engine.get_put_same _ _ _ _, ?_, ?_⟩
  · rw [Engine.configAborted, Engine.get_put_subindex _ _ (by decide), Engine.get_bump_other (by decide) (by decide) (.inr (by decide)),
      Engine.get_put_same]
  · rw [Engine.configAborted, Engine.get_put_subindex _ _ (by decide), Engine.get_bump_same, Engine.get_put_subindex _ _ (by decide),
      Engine.get_setPeer]
  · rw [Engine.configAborted, Engine.peer_put, Engine.peer_bump, Engine.peer_put, Engine.peer_setPeer_same]

/-- Peer i in Standby, its consumer timer armed and NMT start sent (R389). -/
def Engine.standby (e : Engine) (i : Nat) : Engine :=
  ((e.setPeer i { e.peer i with cfgStep := 0, armed := true }).put (peerIdx i) 2 2).nmt
    ((e.setPeer i { e.peer i with cfgStep := 0, armed := true }).peerPort i) 1 i

/-- R389: in a job a configured peer waits in Standby. -/
theorem Engine.configDone_inJob (hjob : e.jobState = 1) : e.configDone i = (e.standby i).discovered := by
  have hstay : (e.standby i).jobState = 1 := by
    refine (Engine.get_put_ne _ ?_).trans hjob
    unfold ekey peerIdx
    omega
  have hout : ¬ ((e.standby i).jobState = 0 ∨ (e.standby i).jobState = 3) := by simp [hstay]
  exact congrArg Engine.discovered (if_neg hout)

theorem Engine.standby_peer : (e.standby i).get (peerIdx i) 2 = 2 ∧
    (e.standby i).peer i = { e.peer i with cfgStep := 0, armed := true } :=
  ⟨Engine.get_put_same _ _ _ _, e.peer_setPeer_same _ _⟩

end Configuring

/-! Answers and timeouts of the client (R388) -/

section Client

variable {e : Engine} {i : Nat}

theorem Engine.usdoAnswer_idle (h : e.get (peerIdx i) 2 ≠ 1 ∨ (e.peer i).cfgStep = 0) (d : List Byte) (a : Nat) :
    e.usdoAnswer i d a = e := if_pos (h.imp_right .inl)

theorem Engine.usdoLate_idle (h : e.get (peerIdx i) 2 ≠ 1 ∨ (e.peer i).cfgStep = 0) : e.usdoLate i = e :=
  if_pos (h.imp_right .inl)

section Running

variable (hstate : e.get (peerIdx i) 2 = 1) (hstep : 1 ≤ (e.peer i).cfgStep) (hserving : e.serving 2 = true)
include hstate hstep hserving

theorem Engine.configRuns : ¬ (e.get (peerIdx i) 2 ≠ 1 ∨ (e.peer i).cfgStep = 0 ∨ (!e.serving 2) = true) := by
  rw [hserving]
  simp only [hstate, ne_eq, not_true_eq_false, false_or, Bool.not_true, Bool.false_eq_true, or_false]
  omega

theorem Engine.usdoAnswer_abort {a : Nat} (ha : a ≠ 0) (d : List Byte) : e.usdoAnswer i d a = e.configFailed i a := by
  simp only [Engine.usdoAnswer]
  rw [if_neg (Engine.configRuns hstate hstep hserving), if_pos ha]

/-- R388: an answer within the identity asks for its next part. -/
theorem Engine.usdoAnswer_identity (hread : (e.peer i).cfgStep < 4) (d : List Byte) : e.usdoAnswer i d 0 =
    (e.setPeer i { e.peer i with cfgStep := (e.peer i).cfgStep + 1, retried := false, idRead := (e.peer i).idRead ++ [le (d.take 4)] }).usdo
      i 1 0x1018 ((e.peer i).cfgStep + 1) [] := by
  have hmore : (e.peer i).cfgStep ≠ 6 := by omega
  simp only [Engine.usdoAnswer]
  rw [if_neg (Engine.configRuns hstate hstep hserving), if_neg (not_not_intro rfl), if_pos (by omega), if_pos hread]
  simp only [Engine.nextStep]
  rw [if_neg hmore, if_pos hread]
  refine (Engine.sendStep_identity _ ?_ ?_).trans ?_ <;> rw [Engine.peer_setPeer_same]
  · exact Nat.le_add_left _ _
  · exact hread

/-- R388: an identity that the profile does not expect stops the configuration. -/
theorem Engine.usdoAnswer_mismatch (hlast : (e.peer i).cfgStep = 4) (d : List Byte)
    (hother : e.expects i ((e.peer i).idRead ++ [le (d.take 4)]) = false) : e.usdoAnswer i d 0 =
      (((e.setPeer i { e.peer i with idRead := (e.peer i).idRead ++ [le (d.take 4)] }).setDom (peerIdx i) 0x0E
        (((e.peer i).idRead ++ [le (d.take 4)]).flatMap (toLe 4))).setPeer i
        { e.peer i with idRead := (e.peer i).idRead ++ [le (d.take 4)], cfgStep := 0 }).put (peerIdx i) 2 6 := by
  simp only [Engine.usdoAnswer]
  rw [if_neg (Engine.configRuns hstate hstep hserving), if_neg (not_not_intro rfl), if_pos (by omega), if_neg (by omega)]
  exact if_neg fun hexpected => Bool.false_ne_true (hother.symm.trans hexpected)

theorem Engine.usdoAnswer_last (hlast : (e.peer i).cfgStep = 6) (d : List Byte) : e.usdoAnswer i d 0 = e.configDone i := by
  simp only [Engine.usdoAnswer]
  rw [if_neg (Engine.configRuns hstate hstep hserving), if_neg (not_not_intro rfl), if_neg (by omega), if_neg (by omega)]
  exact if_pos hlast

theorem Engine.usdoLate_retries (hfirst : (e.peer i).retried = false) (hread : (e.peer i).cfgStep ≤ 4) :
    e.usdoLate i = (e.setPeer i { e.peer i with retried := true }).usdo i 1 0x1018 (e.peer i).cfgStep [] := by
  simp only [Engine.usdoLate]
  rw [if_neg (Engine.configRuns hstate hstep hserving), if_neg (by simp [hfirst])]
  refine (Engine.sendStep_identity _ ?_ ?_).trans ?_ <;> rw [Engine.peer_setPeer_same]
  · exact hstep
  · exact hread

theorem Engine.usdoLate_fails (hsecond : (e.peer i).retried = true) : e.usdoLate i = e.configFailed i abTime := by
  simp only [Engine.usdoLate]
  rw [if_neg (Engine.configRuns hstate hstep hserving), if_pos hsecond]

end Running

end Client

/-! The commands of a peer (R389) -/

section PeerActions

variable {e : Engine} {i : Nat}

theorem Engine.reconfigure_refused (h : e.peerOn i = false ∨ e.get (peerIdx i) 2 ≠ 5) : e.reconfigure i = e.refuse abState := by
  refine if_neg fun ⟨_, hon, hfailed⟩ => ?_
  rcases h with h | h
  · exact Bool.false_ne_true (h.symm.trans hon)
  · exact h hfailed

theorem Engine.reconfigure_starts (hjob : e.jobState = 0) (hon : e.peerOn i = true) (hfailed : e.get (peerIdx i) 2 = 5) :
    e.reconfigure i = (e.startConfig i).done := if_pos ⟨.inl hjob, hon, hfailed⟩

theorem Engine.notMismatched (h : e.peerOn i = false ∨ e.get (peerIdx i) 2 ≠ 6) :
    ¬ (e.peerOn i = true ∧ e.get (peerIdx i) 2 = 6) := by
  rintro ⟨hon, hmismatch⟩
  rcases h with h | h
  · exact Bool.false_ne_true (h.symm.trans hon)
  · exact h hmismatch

theorem Engine.acceptIdentity_refused (h : e.peerOn i = false ∨ e.get (peerIdx i) 2 ≠ 6) : e.acceptIdentity i = e.refuse abState :=
  if_neg (Engine.notMismatched h)

theorem Engine.forget_refused (h : e.peerOn i = false ∨ e.get (peerIdx i) 2 ≠ 6) : e.forget i = e.refuse abState :=
  if_neg (Engine.notMismatched h)

theorem Engine.forget_forgets (hon : e.peerOn i = true) (hmismatch : e.get (peerIdx i) 2 = 6) :
    e.forget i = (e.put (peerIdx i) 2 0).done := if_pos ⟨hon, hmismatch⟩

/-- The profile's identity as read (R389). -/
def Engine.identityTaken (e : Engine) (i : Nat) (id : List Nat) : Engine :=
  e.each [0, 1, 2, 3] (fun e k => e.put (peerIdx i) (3 + k) (id.getD k 0))

theorem Engine.acceptIdentity_accepts (hon : e.peerOn i = true) (hmismatch : e.get (peerIdx i) 2 = 6) :
    e.acceptIdentity i = ((e.identityTaken i (e.peer i).idRead).startConfig i).done := if_pos ⟨hon, hmismatch⟩

theorem Engine.get_identityTaken (id : List Nat) {k : Nat} (hk : k < 4) :
    (e.identityTaken i id).get (peerIdx i) (3 + k) = id.getD k 0 := by
  refine foldl_reaches (I := fun _ => True) (P := fun k y => y.get (peerIdx i) (3 + k) = id.getD k 0)
    (f := fun e k => e.put (peerIdx i) (3 + k) (id.getD k 0)) [0, 1, 2, 3] e trivial
    (fun y _ l _ => ⟨trivial, Engine.get_put_same _ _ _ _, fun q hq => ?_⟩) k (List.mem_range.mpr hk)
  obtain rfl | hne := eq_or_ne q l
  · exact Engine.get_put_same _ _ _ _
  · exact (Engine.get_put_subindex _ _ (by omega)).trans hq

end PeerActions

section PeerCommands

variable {s : State} {n : Fin 128}

theorem becomes_usdoClientResponse (hlive : s.e.live = true) (d : List Byte) (a : BitVec 32) :
    Becomes (.usdoClientResponse n d a) s (s.e.usdoAnswer n.val d a.toNat) :=
  becomes_of_whenLive (f := fun e => e.usdoAnswer n.val d a.toNat) rfl hlive

theorem becomes_usdoAnswer_good (hlive : s.e.live = true) (d : List Byte) :
    Becomes (.usdoClientResponse n d 0) s (s.e.usdoAnswer n.val d 0) := becomes_usdoClientResponse hlive d 0

theorem becomes_usdoClientTimeout (hlive : s.e.live = true) : Becomes (.usdoClientTimeout n) s (s.e.usdoLate n.val) :=
  becomes_of_whenLive (f := fun e => e.usdoLate n.val) rfl hlive

theorem becomes_peerReconfigure (hs : s.serves 2) : Becomes (.peerReconfigure n) s (s.e.reconfigure n.val) :=
  becomes_of_request (idx := 0x5000) (f := fun e => e.reconfigure n.val) rfl hs

theorem becomes_peerAcceptIdentity (hs : s.serves 2) : Becomes (.peerAcceptIdentity n) s (s.e.acceptIdentity n.val) :=
  becomes_of_request (idx := 0x5000) (f := fun e => e.acceptIdentity n.val) rfl hs

theorem becomes_peerForget (hs : s.serves 2) : Becomes (.peerForget n) s (s.e.forget n.val) :=
  becomes_of_request (idx := 0x5000) (f := fun e => e.forget n.val) rfl hs

/-- R388: what a configuration that runs makes of an answer and of a timeout. -/
theorem configuration_runs (hs : s.serves 2) (hstate : s.e.get (peerIdx n.val) 2 = 1) (hstep : 1 ≤ (s.e.peer n.val).cfgStep) :
    (∀ d (a : BitVec 32), a.toNat ≠ 0 → Completes (.usdoClientResponse n d a) s (fun t => ∃ e : Engine,
      t.e = (e.raise 0x0F 2 n.val).discovered ∧ e.get (peerIdx n.val) 2 = 5 ∧ e.get (peerIdx n.val) 0x14 = a.toNat ∧
      e.get (peerIdx n.val) 0x13 = satAdd (entBits (peerIdx n.val) 0x13) (s.e.get (peerIdx n.val) 0x13) 1 ∧
      (e.peer n.val).cfgStep = 0)) ∧
    ((s.e.peer n.val).cfgStep < 4 → ∀ d : List Byte, Completes (.usdoClientResponse n d 0) s (fun t =>
      t.e.peer n.val = { s.e.peer n.val with cfgStep := (s.e.peer n.val).cfgStep + 1, retried := false,
                                             idRead := (s.e.peer n.val).idRead ++ [le (d.take 4)] } ∧
      t.e.out = .can (s.e.peerPort n.val) (0x600 + n.val)
        (toLe 1 1 ++ toLe 2 0x1018 ++ toLe 1 ((s.e.peer n.val).cfgStep + 1) ++ []) :: s.e.out ∧
      (∀ j, j ≠ n.val → t.e.peer j = s.e.peer j) ∧
      t = { s with e := { s.e with net.peers := t.e.net.peers, out := t.e.out } })) ∧
    ((s.e.peer n.val).cfgStep = 4 → ∀ d : List Byte, s.e.expects n.val ((s.e.peer n.val).idRead ++ [le (d.take 4)]) = false →
      Completes (.usdoClientResponse n d 0) s (fun t => t.e.get (peerIdx n.val) 2 = 6 ∧ (t.e.peer n.val).cfgStep = 0 ∧
        t.e.dom (peerIdx n.val) 0x0E = ((s.e.peer n.val).idRead ++ [le (d.take 4)]).flatMap (toLe 4) ∧
        (∀ k, k ≠ ekey (peerIdx n.val) 2 → t.e.ent k = s.e.ent k))) ∧
    ((s.e.peer n.val).cfgStep = 6 → s.e.jobState = 1 → ∀ d, Completes (.usdoClientResponse n d 0) s (fun t => ∃ e : Engine,
      t.e = e.discovered ∧ e.get (peerIdx n.val) 2 = 2 ∧ e.peer n.val = { s.e.peer n.val with cfgStep := 0, armed := true } ∧
      e.out = .can (s.e.peerPort n.val) 0 (toLe 1 1 ++ toLe 1 n.val) :: s.e.out)) ∧
    ((s.e.peer n.val).retried = false → (s.e.peer n.val).cfgStep ≤ 4 → Completes (.usdoClientTimeout n) s (fun t =>
      t.e.peer n.val = { s.e.peer n.val with retried := true } ∧
      t.e.out = .can (s.e.peerPort n.val) (0x600 + n.val)
        (toLe 1 1 ++ toLe 2 0x1018 ++ toLe 1 (s.e.peer n.val).cfgStep ++ []) :: s.e.out)) ∧
    ((s.e.peer n.val).retried = true → Completes (.usdoClientTimeout n) s (fun t => ∃ e : Engine,
      t.e = (e.raise 0x0F 2 n.val).discovered ∧ e.get (peerIdx n.val) 2 = 5 ∧ e.get (peerIdx n.val) 0x14 = 0x05040000)) := by
  obtain ⟨hlive, hserving⟩ := hs
  have hlate := becomes_usdoClientTimeout (n := n) hlive
  refine ⟨fun d a ha => ?_, fun hread d => ?_, fun hlast d hother => ?_, fun hlast hjob d => ?_, fun hfirst hread => ?_,
    fun hsecond => ?_⟩
  · have hanswer := becomes_usdoClientResponse (n := n) hlive d a
    rw [Engine.usdoAnswer_abort hstate hstep hserving ha, Engine.configFailed_eq] at hanswer
    exact hanswer.completes_exists (fun e => (e.raise 0x0F 2 n.val).discovered) (s.e.get_configAborted _)
  · have hanswer := becomes_usdoAnswer_good (n := n) hlive d
    rw [Engine.usdoAnswer_identity hstate hstep hserving hread] at hanswer
    exact hanswer.completes ⟨s.e.peer_setPeer_same _ _, rfl, fun j hj => s.e.peer_setPeer_other _ hj, rfl⟩
  · have hanswer := becomes_usdoAnswer_good (n := n) hlive d
    rw [Engine.usdoAnswer_mismatch hstate hstep hserving hlast d hother] at hanswer
    refine hanswer.completes ⟨Engine.get_put_same _ _ _ _, ?_, ?_, fun k hk => Engine.ent_put_other hk⟩
    · rw [Engine.peer_put, Engine.peer_setPeer_same]
    · exact Engine.dom_setDom_same _ _ _ _
  · have hanswer := becomes_usdoAnswer_good (n := n) hlive d
    rw [Engine.usdoAnswer_last hstate hstep hserving hlast, Engine.configDone_inJob _ hjob] at hanswer
    obtain ⟨hstandby, hpeer⟩ := s.e.standby_peer (i := n.val)
    exact hanswer.completes_exists Engine.discovered ⟨hstandby, hpeer, rfl⟩
  · rw [Engine.usdoLate_retries hstate hstep hserving hfirst hread] at hlate
    exact hlate.completes ⟨s.e.peer_setPeer_same _ _, rfl⟩
  · rw [Engine.usdoLate_fails hstate hstep hserving hsecond, Engine.configFailed_eq] at hlate
    obtain ⟨hfailed, hcode, _, _⟩ := s.e.get_configAborted (i := n.val) abTime
    exact hlate.completes_exists (fun e => (e.raise 0x0F 2 n.val).discovered) ⟨hfailed, hcode⟩

/-- R388, R389: a configuration by its step, and the commands of a peer by its state. -/
theorem peerConfiguration : Says.PeerConfiguration := by
  intro s n i x hs hi hx
  obtain rfl : i = peerIdx n.val := hi
  subst hx
  have hlive : s.e.live = true := hs.1
  have hreconfigure := becomes_peerReconfigure (n := n) hs
  have haccept := becomes_peerAcceptIdentity (n := n) hs
  have hforget := becomes_peerForget (n := n) hs
  refine ⟨fun d a hidle => ⟨?_, ?_⟩, configuration_runs hs, fun hno => ?_, fun hjob hon hfailed => ?_, fun hno => ⟨?_, ?_⟩,
    fun hon hmismatch => ⟨?_, ?_⟩⟩
  · have hanswer := becomes_usdoClientResponse (n := n) hlive d a
    rw [Engine.usdoAnswer_idle hidle] at hanswer
    exact hanswer
  · have hlate := becomes_usdoClientTimeout (n := n) hlive
    rw [Engine.usdoLate_idle hidle] at hlate
    exact hlate
  · rw [Engine.reconfigure_refused hno] at hreconfigure
    exact hreconfigure
  · rw [Engine.reconfigure_starts hjob hon hfailed] at hreconfigure
    obtain ⟨hstarts, _⟩ := s.e.get_startConfig (i := n.val)
    have hpeer := s.e.peer_startConfig (i := n.val)
    refine hreconfigure.completes ⟨hstarts, ?_, ?_, rfl, fun k hstate hstale => s.e.ent_startConfig hstate hstale⟩
    · exact congrArg Peer.cfgStep hpeer
    · exact congrArg Peer.idRead hpeer
  · rw [Engine.acceptIdentity_refused hno] at haccept
    exact haccept
  · rw [Engine.forget_refused hno] at hforget
    exact hforget
  · rw [Engine.forget_forgets hon hmismatch] at hforget
    exact serves_of_put_done (i := peerIdx n.val) (j := 2) hforget
  · rw [Engine.acceptIdentity_accepts hon hmismatch] at haccept
    obtain ⟨hstarts, _⟩ := (s.e.identityTaken n.val (s.e.peer n.val).idRead).get_startConfig (i := n.val)
    have hpeer := (s.e.identityTaken n.val (s.e.peer n.val).idRead).peer_startConfig (i := n.val)
    refine haccept.completes ⟨fun k hk => ?_, hstarts, congrArg Peer.cfgStep hpeer, rfl⟩
    exact (Engine.get_startConfig_other _ (by omega) (by omega)).trans (Engine.get_identityTaken _ hk)

end PeerCommands

end Sys2Proof.Machine

/-! Nodes found by Fastscan (R387), and the presence of peers (R382, R383, R389, R390, R393). -/

namespace Sys2Proof.Machine

section Scan

variable {e : Engine} {p q i a : Nat}

theorem Engine.scanStep_waits (h : cellGet (fun _ => false) e.net.scan p = false ∨ e.serving 2 = false) (found : Option Nat) :
    e.scanStep p found = e := if_pos (h.imp (fun h => by simp [h]) fun h => by simp [h])

section Scanning

variable (hscan : cellGet (fun _ => false) e.net.scan p = true) (hserving : e.serving 2 = true)
include hscan hserving

theorem Engine.scanRuns : ¬ ((!cellGet (fun _ => false) e.net.scan p) = true ∨ (!e.serving 2) = true) := by
  simp [hscan, hserving]

theorem Engine.scanStep_ends : e.scanStep p none = { e with net.scan := cellSet (fun _ => false) e.net.scan p false } :=
  if_neg (Engine.scanRuns hscan hserving)

theorem Engine.scanStep_finds : e.scanStep p (some a) = (e.nodeFound p a).startScan p :=
  if_neg (Engine.scanRuns hscan hserving)

end Scanning

/-- R387: a node that the one enabled profile expects gets its node-ID and is configured. -/
theorem Engine.nodeFound_expected (hprofiles : e.profiles = [i]) (hport : e.net.portB = 0) (habsent : e.get (peerIdx i) 2 = 0)
    (hexpected : e.expects i [a % 2 ^ 32, a / 2 ^ 32 % 2 ^ 32, a / 2 ^ 64 % 2 ^ 32, a / 2 ^ 96] = true) :
    e.nodeFound p a = (e.send (.can p 0x7E5 (toLe 1 0x11 ++ toLe 1 i))).startConfig i := by
  simp only [Engine.nodeFound, hprofiles]
  rw [List.find?_cons_of_pos]
  rw [hport, habsent, hexpected]
  rfl

/-- R387: a node that no profile expects goes to the list, where it has room. -/
theorem Engine.nodeFound_unknown (hprofiles : e.profiles = []) (hroom : (e.dom 0x5000 0x0B).length < 512) :
    e.nodeFound p a = (e.setDom 0x5000 0x0B (e.dom 0x5000 0x0B ++ toLe 16 a)).raise 0x0F 2 0 := by
  simp only [Engine.nodeFound, hprofiles, List.find?_nil]
  rw [if_pos hroom]

/-- The frame that asks for non-configured nodes (R387). -/
def identifyFrame (p : Nat) : Output := .can p 0x7E5 (toLe 1 0x4C ++ List.replicate 7 0)

/-- What the identify timer does on a port. -/
def Engine.identifyOn (reply : Bool) (e : Engine) (p : Nat) : Engine :=
  if reply = true ∧ (!cellGet (fun _ => false) e.net.scan p) = true then (e.send (identifyFrame p)).startScan p
  else e.send (identifyFrame p)

theorem Engine.identifyDue_waits (h : e.get 0x2001 1 < 8 ∨ e.serving 2 = false) (r : Bool) : e.identifyDue r = e :=
  if_pos (h.imp_right fun h => by simp [h])

theorem Engine.identifyDue_asks (hstep : 8 ≤ e.get 0x2001 1) (hserving : e.serving 2 = true) (r : Bool) :
    e.identifyDue r = e.each e.managed (Engine.identifyOn r) := by
  have hlate : ¬ (e.dawnStep < 8 ∨ (!e.serving 2) = true) := by
    rw [hserving]
    simpa [Engine.dawnStep] using hstep
  exact if_neg hlate

theorem Engine.out_identifyOn (r : Bool) (p : Nat) :
    identifyFrame p ∈ (e.identifyOn r p).out ∧ ∀ o, o ∈ e.out → o ∈ (e.identifyOn r p).out := by
  rw [Engine.identifyOn]
  split_ifs
  · exact ⟨List.mem_cons_of_mem _ List.mem_cons_self, fun o ho => List.mem_cons_of_mem _ (List.mem_cons_of_mem _ ho)⟩
  · exact ⟨List.mem_cons_self, fun o ho => List.mem_cons_of_mem _ ho⟩

theorem Engine.scan_startScan : (e.startScan p).net.scan = cellSet (fun _ => false) e.net.scan p true := rfl

/-- R387: a reply has the port scanned; a scan that runs goes on. -/
theorem Engine.scan_identifyOn (p : Nat) : cellGet (fun _ => false) (e.identifyOn true p).net.scan p = true ∧
    ∀ q, cellGet (fun _ => false) e.net.scan q = true → cellGet (fun _ => false) (e.identifyOn true p).net.scan q = true := by
  rw [Engine.identifyOn]
  split_ifs with hquiet
  · rw [Engine.scan_startScan]
    refine ⟨cellGet_cellSet_same _ _ _ _, fun q hq => ?_⟩
    rw [cellGet_cellSet]
    split_ifs
    · rfl
    · exact hq
  · have hruns : cellGet (fun _ => false) e.net.scan p = true := by simpa using hquiet
    exact ⟨hruns, fun _ hq => hq⟩

theorem Engine.identifyDue_reaches (r : Bool) (hq : q ∈ e.managed) :
    identifyFrame q ∈ (e.each e.managed (Engine.identifyOn r)).out ∧
      (r = true → cellGet (fun _ => false) (e.each e.managed (Engine.identifyOn r)).net.scan q = true) := by
  refine foldl_reaches (I := fun _ => True) (f := Engine.identifyOn r)
    (P := fun q y => identifyFrame q ∈ y.out ∧ (r = true → cellGet (fun _ => false) y.net.scan q = true)) e.managed e trivial
    (fun y _ p _ => ?_) q hq
  obtain ⟨hasked, hkept⟩ := y.out_identifyOn r p
  refine ⟨trivial, ⟨hasked, ?_⟩, fun q hold => ⟨hkept _ hold.1, ?_⟩⟩
  · rintro rfl
    exact (y.scan_identifyOn p).1
  · rintro rfl
    exact (y.scan_identifyOn p).2 q (hold.2 rfl)

theorem Engine.identifyOn_silent (ps : List Nat) :
    e.each ps (Engine.identifyOn false) = { e with out := (e.each ps (Engine.identifyOn false)).out } := by
  refine List.foldlRecOn (motive := fun y => y = { e with out := y.out }) ps (Engine.identifyOn false)
    (show e = { e with out := e.out } from rfl) fun y hy p _ => ?_
  rw [hy, Engine.identifyOn, if_neg (by simp)]
  rfl

end Scan

section ScanCommands

variable {s : State} {b : Bool}

theorem becomes_lssFastscanStep (hlive : s.e.live = true) (found : Option (BitVec 128)) :
    Becomes (.lssFastscanStep b found) s (s.e.scanStep (ofBool b) (found.map BitVec.toNat)) :=
  becomes_of_whenLive (f := fun e => e.scanStep (ofBool b) (found.map BitVec.toNat)) rfl hlive

theorem becomes_lssIdentifyTimer (hlive : s.e.live = true) (r : Bool) : Becomes (.lssIdentifyTimer r) s (s.e.identifyDue r) :=
  becomes_of_whenLive (f := fun e => e.identifyDue r) rfl hlive

/-- R387: a scan by what it finds, and the identify timer by the reply. -/
theorem networkScan : Says.NetworkScan := by
  intro s p b hlive hp
  subst hp
  refine ⟨fun found hwaits => ?_, fun hscan hserving => ⟨?_, fun a i hprofiles hport habsent hexpected => ?_,
    fun a hprofiles hroom => ?_⟩, fun r hwaits => ?_, fun hstep hserving => ⟨?_, ?_⟩⟩
  · have hfound := becomes_lssFastscanStep (b := b) hlive found
    rw [Engine.scanStep_waits hwaits] at hfound
    exact hfound
  · have hnone := becomes_lssFastscanStep (b := b) hlive none
    rw [Option.map_none, Engine.scanStep_ends hscan hserving] at hnone
    exact hnone.completes ⟨cellGet_cellSet_same (fun _ => false) s.e.net.scan _ false,
      fun j hj => cellGet_cellSet_ne (fun _ => false) s.e.net.scan _ _ false hj, rfl⟩
  · have hfound := becomes_lssFastscanStep (b := b) hlive (some a)
    rw [Option.map_some, Engine.scanStep_finds hscan hserving,
      Engine.nodeFound_expected hprofiles hport habsent hexpected] at hfound
    exact hfound.completes_exists (fun e => (e.startConfig i).startScan (ofBool b)) rfl
  · have hfound := becomes_lssFastscanStep (b := b) hlive (some a)
    rw [Option.map_some, Engine.scanStep_finds hscan hserving, Engine.nodeFound_unknown hprofiles hroom] at hfound
    exact hfound.completes_exists (fun e => (e.raise 0x0F 2 0).startScan (ofBool b)) rfl
  · have hdue := becomes_lssIdentifyTimer hlive r
    rw [Engine.identifyDue_waits hwaits] at hdue
    exact hdue
  · have hdue := becomes_lssIdentifyTimer hlive false
    rw [Engine.identifyDue_asks hstep hserving] at hdue
    refine hdue.completes ⟨fun q hq => (Engine.identifyDue_reaches false hq).1, ?_⟩
    exact congrArg (fun e => { s with e := e }) (Engine.identifyOn_silent _)
  · have hdue := becomes_lssIdentifyTimer hlive true
    rw [Engine.identifyDue_asks hstep hserving] at hdue
    refine hdue.completes fun q hq => ?_
    obtain ⟨hasked, hscans⟩ := Engine.identifyDue_reaches true hq
    exact ⟨hasked, hscans rfl⟩

/-- Settles O55: peers found by a scan, and their configuration. -/
theorem peersFoundAndConfigured : Obligations.PeersFoundAndConfigured := ⟨networkScan, peerConfiguration⟩

end ScanCommands

end Sys2Proof.Machine

/-! The presence of peers (R382, R383, R389, R390, R393). -/

namespace Sys2Proof.Machine

section Presence

variable {e : Engine} {i : Nat}

/-- Peer i in state 4, its values stale and its departure counted (R390). -/
def Engine.departed (e : Engine) (i : Nat) : Engine :=
  (((e.setPeer i { e.peer i with armed := false, cfgStep := 0, lossDue := false }).put (peerIdx i) 2 4).put (peerIdx i) 0x15 1).bump
    (peerIdx i) 0x11 1

theorem Engine.peerLost_eq : e.peerLost i = (e.departed i).raise 0x0F 1 i := rfl

theorem Engine.departed_lost : (e.departed i).get (peerIdx i) 2 = 4 ∧ (e.departed i).get (peerIdx i) 0x15 = 1 ∧
    (e.departed i).get (peerIdx i) 0x11 = satAdd (entBits (peerIdx i) 0x11) (e.get (peerIdx i) 0x11) 1 ∧
    ((e.departed i).peer i).armed = false := by
  refine ⟨?_, ?_, ?_, ?_⟩
  · rw [Engine.departed, Engine.get_bump_other (by decide) (by decide) (.inr (by decide)), Engine.get_put_subindex _ _ (by decide),
      Engine.get_put_same]
  · rw [Engine.departed, Engine.get_bump_other (by decide) (by decide) (.inr (by decide)), Engine.get_put_same]
  · rw [Engine.departed, Engine.get_bump_same, Engine.get_put_subindex _ _ (by decide), Engine.get_put_subindex _ _ (by decide),
      Engine.get_setPeer]
  · rw [Engine.departed, Engine.peer_bump, Engine.peer_put, Engine.peer_put, Engine.peer_setPeer_same]

theorem Engine.heartbeat_off (hoff : e.peerOn i = false) (m : Nat) : e.heartbeat i m = e := if_pos (by simp [hoff])

theorem Engine.bootup_off (hoff : e.peerOn i = false) : e.bootup i = e := if_pos (.inl (by simp [hoff]))

theorem Engine.timerExpired_off (hoff : e.peerOn i = false) : e.timerExpired i = e := if_pos (.inl (by simp [hoff]))

theorem Engine.timerExpired_unarmed (hfree : (e.peer i).armed = false) : e.timerExpired i = e :=
  if_pos (.inr (.inl (by simp [hfree])))

theorem Engine.peerEmcy_off (hoff : e.peerOn i = false) (c d : Nat) : e.peerEmcy i c d = e := if_neg (by simp [hoff])

theorem Engine.peerEmcy_taken (hon : e.peerOn i = true) (c d : Nat) :
    e.peerEmcy i c d = (e.put (peerIdx i) 0x12 d).raise 0x0F 3 (i * 2 ^ 32 + c) := if_pos hon

/-- The engine that has heard a heartbeat of peer i, its timer armed. -/
def Engine.heard (e : Engine) (i m : Nat) : Engine := e.setPeer i { e.peer i with nmt := m, armed := true }

/-- R389: a heartbeat of a peer no further than Lost arms the timer; one of a peer in Absent or Lost configures it. -/
theorem Engine.heartbeat_heard (hon : e.peerOn i = true) (hstate : e.get (peerIdx i) 2 ≤ 4) (hserving : e.serving 2 = true)
    (hunused : e.get (peerIdx i) 2 ≠ 3) (m : Nat) : e.heartbeat i m =
      if e.get (peerIdx i) 2 = 0 ∨ e.get (peerIdx i) 2 = 4 then (e.heard i m).startConfig i else e.heard i m := by
  have harmed : ((e.peer i).armed || decide (e.get (peerIdx i) 2 ≤ 4)) = true := by rw [decide_eq_true hstate, Bool.or_true]
  have hserves : (e.heard i m).serving 2 = true := hserving
  simp only [Engine.heartbeat, harmed]
  rw [if_neg (by simp [hon])]
  by_cases hgone : e.get (peerIdx i) 2 = 0 ∨ e.get (peerIdx i) 2 = 4
  · rw [if_pos hgone]
    exact if_pos ⟨hgone, hserves⟩
  · rw [if_neg hgone, if_neg hunused]
    exact if_neg fun h => hgone h.1

theorem Engine.bootup_configures (hon : e.peerOn i = true) (hserving : e.serving 2 = true)
    (hstate : e.get (peerIdx i) 2 = 0 ∨ e.get (peerIdx i) 2 = 1 ∨ e.get (peerIdx i) 2 = 4 ∨ e.get (peerIdx i) 2 = 5) :
    e.bootup i = e.startConfig i := by
  simp only [Engine.bootup, hon, hserving]
  rw [if_neg (by simp; omega), if_neg (by simp), if_neg (by omega)]

theorem Engine.bootup_lost (hon : e.peerOn i = true) (hserving : e.serving 2 = true)
    (hstate : e.get (peerIdx i) 2 = 2 ∨ e.get (peerIdx i) 2 = 3) : e.bootup i = (e.peerLost i).startConfig i := by
  simp only [Engine.bootup, hon, hserving]
  rw [if_neg (by simp; omega), if_neg (by simp), if_pos hstate]

theorem Engine.timerExpired_loses (hon : e.peerOn i = true) (harmed : (e.peer i).armed = true) (hserving : e.serving 2 = true)
    (hlo : 1 ≤ e.get (peerIdx i) 2) (hhi : e.get (peerIdx i) 2 ≤ 3) : e.timerExpired i = e.peerLost i := by
  simp only [Engine.timerExpired, hon, harmed, hserving]
  rw [if_neg (by simp; omega)]
  exact if_pos trivial

end Presence

section PresenceCommands

variable {s : State} {n : Fin 128}

theorem becomes_heartbeatReceived (hlive : s.e.live = true) (m : Byte) :
    Becomes (.heartbeatReceived n m) s (s.e.heartbeat n.val m.toNat) :=
  becomes_of_whenLive (f := fun e => e.heartbeat n.val m.toNat) rfl hlive

theorem becomes_bootupReceived (hlive : s.e.live = true) : Becomes (.bootupReceived n) s (s.e.bootup n.val) :=
  becomes_of_whenLive (f := fun e => e.bootup n.val) rfl hlive

theorem becomes_heartbeatLoss (hlive : s.e.live = true) : Becomes (.heartbeatLoss n) s (s.e.timerExpired n.val) :=
  becomes_of_whenLive (f := fun e => e.timerExpired n.val) rfl hlive

theorem becomes_emcyReceived (hlive : s.e.live = true) (c : BitVec 16) (d : BitVec 64) :
    Becomes (.emcyReceived n c d) s (s.e.peerEmcy n.val c.toNat d.toNat) :=
  becomes_of_whenLive (f := fun e => e.peerEmcy n.val c.toNat d.toNat) rfl hlive

theorem becomes_heartbeatProduce (hlive : s.e.live = true) : Becomes .heartbeatProduce s
    (if s.e.get 0x2001 1 < 7 then s.e
     else s.e.each s.e.netPorts (fun e p => e.send (.can p (0x700 + e.net.nodeId) [5]))) :=
  becomes_of_whenLive (f := fun e =>
    if e.dawnStep < 7 then e else e.each e.netPorts (fun e p => e.send (.can p (0x700 + e.net.nodeId) [5]))) rfl hlive

theorem becomes_nmtCommandReceived (hlive : s.e.live = true) (c d : Byte) : Becomes (.nmtCommandReceived c d) s
    ((if d.toNat = 0 ∨ d.toNat = s.e.net.nodeId then s.e.wake 4 else s.e).bump 0x5000 8 1) :=
  becomes_of_whenLive (f := fun e => (if d.toNat = 0 ∨ d.toNat = e.net.nodeId then e.wake 4 else e).bump 0x5000 8 1) rfl hlive

theorem Engine.netPorts_single {e : Engine} (h : e.net.portB ≠ 2) : e.netPorts = [0] := if_neg h

theorem Engine.netPorts_redundant {e : Engine} (h : e.net.portB = 2) : e.netPorts = [0, 1] := if_pos h

/-- What an enabled peer's frames and its consumer timer do. -/
theorem presence_enabled (hs : s.serves 2) (hon : s.e.peerOn n.val = true) :
    (∀ m : Byte, s.e.get (peerIdx n.val) 2 = 1 ∨ s.e.get (peerIdx n.val) 2 = 2 → Completes (.heartbeatReceived n m) s (fun t =>
      t.e.peer n.val = { s.e.peer n.val with nmt := m.toNat, armed := true } ∧ (∀ j, j ≠ n.val → t.e.peer j = s.e.peer j) ∧
      t = { s with e := { s.e with net.peers := t.e.net.peers } })) ∧
    (∀ m : Byte, s.e.get (peerIdx n.val) 2 = 0 ∨ s.e.get (peerIdx n.val) 2 = 4 → Completes (.heartbeatReceived n m) s (fun t =>
      t.e.get (peerIdx n.val) 2 = 1 ∧ (t.e.peer n.val).nmt = m.toNat ∧ (t.e.peer n.val).armed = true ∧
      (t.e.peer n.val).cfgStep = 1)) ∧
    (s.e.get (peerIdx n.val) 2 = 0 ∨ s.e.get (peerIdx n.val) 2 = 1 ∨ s.e.get (peerIdx n.val) 2 = 4 ∨
        s.e.get (peerIdx n.val) 2 = 5 → Completes (.bootupReceived n) s (fun t =>
      t.e.get (peerIdx n.val) 2 = 1 ∧ t.e.get (peerIdx n.val) 0x15 = 1 ∧ (t.e.peer n.val).cfgStep = 1 ∧
      (∀ k, k ≠ ekey (peerIdx n.val) 2 → k ≠ ekey (peerIdx n.val) 0x15 → t.e.ent k = s.e.ent k))) ∧
    (s.e.get (peerIdx n.val) 2 = 2 ∨ s.e.get (peerIdx n.val) 2 = 3 → Completes (.bootupReceived n) s (fun t => ∃ e : Engine,
      t.e = (e.raise 0x0F 1 n.val).startConfig n.val ∧ e.get (peerIdx n.val) 2 = 4 ∧ e.get (peerIdx n.val) 0x15 = 1 ∧
      e.get (peerIdx n.val) 0x11 = satAdd (entBits (peerIdx n.val) 0x11) (s.e.get (peerIdx n.val) 0x11) 1)) ∧
    ((s.e.peer n.val).armed = false → Becomes (.heartbeatLoss n) s s.e) ∧
    ((s.e.peer n.val).armed = true → 1 ≤ s.e.get (peerIdx n.val) 2 → s.e.get (peerIdx n.val) 2 ≤ 3 →
      Raises (.heartbeatLoss n) s (fun e => e.get (peerIdx n.val) 2 = 4 ∧ e.get (peerIdx n.val) 0x15 = 1 ∧
        e.get (peerIdx n.val) 0x11 = satAdd (entBits (peerIdx n.val) 0x11) (s.e.get (peerIdx n.val) 0x11) 1 ∧
        (e.peer n.val).armed = false) 0x0F 1 n.val) ∧
    (∀ (c : BitVec 16) (d : BitVec 64), Raises (.emcyReceived n c d) s (fun e => e.get (peerIdx n.val) 0x12 = d.toNat ∧
      (∀ k, k ≠ ekey (peerIdx n.val) 0x12 → e.ent k = s.e.ent k)) 0x0F 3 (n.val * 2 ^ 32 + c.toNat)) := by
  obtain ⟨hlive, hserving⟩ := hs
  have hboot := becomes_bootupReceived (n := n) hlive
  have hloss := becomes_heartbeatLoss (n := n) hlive
  refine ⟨fun m hstate => ?_, fun m hstate => ?_, fun hstate => ?_, fun hstate => ?_, fun hfree => ?_, fun harmed hlo hhi => ?_,
    fun c d => ?_⟩
  · have hbeat := becomes_heartbeatReceived (n := n) hlive m
    rw [Engine.heartbeat_heard hon (by omega) hserving (by omega), if_neg (by omega)] at hbeat
    exact hbeat.completes ⟨s.e.peer_setPeer_same _ _, fun j hj => s.e.peer_setPeer_other _ hj, rfl⟩
  · have hbeat := becomes_heartbeatReceived (n := n) hlive m
    rw [Engine.heartbeat_heard hon (by omega) hserving (by omega), if_pos hstate] at hbeat
    have hpeer := (s.e.heard n.val m.toNat).peer_startConfig (i := n.val)
    rw [Engine.heard, Engine.peer_setPeer_same, ← Engine.heard] at hpeer
    obtain ⟨hstarts, _⟩ := (s.e.heard n.val m.toNat).get_startConfig (i := n.val)
    exact hbeat.completes ⟨hstarts, congrArg Peer.nmt hpeer, congrArg Peer.armed hpeer, congrArg Peer.cfgStep hpeer⟩
  · rw [Engine.bootup_configures hon hserving hstate] at hboot
    obtain ⟨hstarts, hstale⟩ := s.e.get_startConfig (i := n.val)
    exact hboot.completes ⟨hstarts, hstale, congrArg Peer.cfgStep (s.e.peer_startConfig (i := n.val)),
      fun k hk hk' => s.e.ent_startConfig hk hk'⟩
  · rw [Engine.bootup_lost hon hserving hstate, Engine.peerLost_eq] at hboot
    obtain ⟨hlost, hstale, hcount, _⟩ := Engine.departed_lost (e := s.e) (i := n.val)
    exact hboot.completes_exists (fun e => (e.raise 0x0F 1 n.val).startConfig n.val) ⟨hlost, hstale, hcount⟩
  · rw [Engine.timerExpired_unarmed hfree] at hloss
    exact hloss
  · rw [Engine.timerExpired_loses hon harmed hserving hlo hhi, Engine.peerLost_eq] at hloss
    exact hloss.raises Engine.departed_lost
  · have hemcy := becomes_emcyReceived (n := n) hlive c d
    rw [Engine.peerEmcy_taken hon] at hemcy
    exact hemcy.raises ⟨Engine.get_put_same _ _ _ _, fun k hk => Engine.ent_put_other hk⟩

/-- Settles O56: frames of a peer by whether it is enabled and by its state, and the engine's own heartbeat. -/
theorem peerPresence : Obligations.PeerPresence := by
  intro s n i x hs hidle hi hx
  obtain rfl : i = peerIdx n.val := hi
  subst hx
  have hlive : s.e.live = true := hs.1
  have hproduce := becomes_heartbeatProduce hlive
  refine ⟨fun hoff => ⟨fun m => ?_, ?_, ?_, fun c d => ?_⟩, presence_enabled hs, fun hearly => ?_, fun hdawn hsingle => ?_,
    fun hdawn hboth => ?_, fun c d => ?_⟩
  · have hbeat := becomes_heartbeatReceived (n := n) hlive m
    rw [Engine.heartbeat_off hoff] at hbeat
    exact hbeat
  · have hboot := becomes_bootupReceived (n := n) hlive
    rw [Engine.bootup_off hoff] at hboot
    exact hboot
  · have hloss := becomes_heartbeatLoss (n := n) hlive
    rw [Engine.timerExpired_off hoff] at hloss
    exact hloss
  · have hemcy := becomes_emcyReceived (n := n) hlive c d
    rw [Engine.peerEmcy_off hoff] at hemcy
    exact hemcy
  · rw [if_pos hearly] at hproduce
    exact hproduce
  · rw [if_neg (Nat.not_lt.mpr hdawn), Engine.netPorts_single hsingle] at hproduce
    exact hproduce
  · rw [if_neg (Nat.not_lt.mpr hdawn), Engine.netPorts_redundant hboth] at hproduce
    exact hproduce
  · have hnmt := becomes_nmtCommandReceived hlive c d
    rw [Engine.wake_awake _ _ hidle, ite_self] at hnmt
    exact writes_of_put (i := 0x5000) (j := 8) hnmt

end PresenceCommands

end Sys2Proof.Machine

/-! Process data and ports of the field network (R381, R412). -/

namespace Sys2Proof.Machine

section Received

variable {e : Engine} {n : Nat} {data : List Byte}

theorem le_lt (bs : List Byte) : le bs < 256 ^ bs.length := by
  induction bs with
  | nil => decide
  | cons b bs ih =>
    have hb : b.toNat < 256 := b.isLt
    rw [le, List.length_cons, pow_succ]
    omega

theorem Engine.rpdo_invalid (hoff : e.pdoValid (0x1400 + n) = false) : e.rpdo n data = e := if_pos (.inl (by simp [hoff]))

theorem Engine.rpdo_waits (hon : e.pdoValid (0x1400 + n) = true) (hserving : e.serving 2 = true)
    (hsync : e.get (0x1400 + n) 2 ≤ 240) :
    e.rpdo n data = { e with net.rpdoSync := cellInsert n data (cellErase n e.net.rpdoSync) } := by
  rw [Engine.rpdo, if_neg (by simp [hon, hserving]), if_pos hsync]

theorem Engine.rpdo_taken (hon : e.pdoValid (0x1400 + n) = true) (hserving : e.serving 2 = true)
    (hasync : 240 < e.get (0x1400 + n) 2) : e.rpdo n data = e.takeRpdo n data := by
  rw [Engine.rpdo, if_neg (by simp [hon, hserving]), if_neg (Nat.not_le.mpr hasync)]

/-- A peer's value that has arrived now (R412). -/
def Engine.arrivedValue (e : Engine) (i sub v : Nat) : Engine :=
  ((e.put (peerIdx i) sub (v % 2 ^ 32)).put (peerIdx i) 0x15 0).setPeer i
    { e.peer i with arrived := cellInsert (sub - 0x1F) e.now (cellErase (sub - 0x1F) (e.peer i).arrived) }

theorem Engine.peerValue_inUse {i sub : Nat} (hi : 1 ≤ i) (hi' : i < 128) (hsub : 0x20 ≤ sub) (hsub' : sub < 0x30)
    (hused : e.get (peerIdx i) 2 = 3) (v : Nat) : e.peerValue (peerIdx i) sub v = e.arrivedValue i sub v := by
  have hidx : peerIdx i - 0x5000 = i := by
    unfold peerIdx
    omega
  have htaken : 0x5001 ≤ peerIdx i ∧ peerIdx i < 0x5080 ∧ 0x20 ≤ sub ∧ sub < 0x30 ∧ e.get (peerIdx i) 2 = 3 :=
    ⟨by unfold peerIdx; omega, by unfold peerIdx; omega, hsub, hsub', hused⟩
  simp only [Engine.peerValue, hidx]
  exact if_pos htaken

/-- R412: an RPDO of one value of a peer in use gives it at once. -/
theorem Engine.takeRpdo_value {i sub : Nat} (hmapped : e.mapped (0x1600 + n) = [(peerIdx i, sub, 4)]) (hi : 1 ≤ i) (hi' : i < 128)
    (hsub : 0x20 ≤ sub) (hsub' : sub < 0x30) (hused : e.get (peerIdx i) 2 = 3) (hlen : data.length = 4) :
    e.takeRpdo n data = (e.arrivedValue i sub (le data)).evalHolds := by
  have hfits : ¬ data.length < ([(peerIdx i, sub, 4)].map (fun x => x.2.2)).foldl (· + ·) 0 := by
    rw [hlen]
    simp
  simp only [Engine.takeRpdo, hmapped]
  rw [if_neg hfits]
  simp only [Engine.spread]
  rw [Engine.peerValue_inUse hi hi' hsub hsub' hused, List.take_of_length_le (le_of_eq hlen)]

theorem Engine.arrivedValue_arrives {i sub : Nat} (hsub : 0x20 ≤ sub) (hlen : data.length = 4) :
    (e.arrivedValue i sub (le data)).get (peerIdx i) sub = le data ∧
      (e.arrivedValue i sub (le data)).get (peerIdx i) 0x15 = 0 ∧
      cellFind (sub - 0x1F) ((e.arrivedValue i sub (le data)).peer i).arrived = some e.now ∧
      (∀ k, k ≠ ekey (peerIdx i) sub → k ≠ ekey (peerIdx i) 0x15 → (e.arrivedValue i sub (le data)).ent k = e.ent k) := by
  have hsmall : le data % 2 ^ 32 = le data := by
    have hlt := le_lt data
    rw [hlen] at hlt
    exact Nat.mod_eq_of_lt (lt_of_lt_of_eq hlt (by decide))
  refine ⟨?_, ?_, ?_, fun k hvalue hstale => ?_⟩
  · rw [Engine.arrivedValue, Engine.get_setPeer, Engine.get_put_subindex _ _ (by omega), Engine.get_put_same, hsmall]
  · rw [Engine.arrivedValue, Engine.get_setPeer, Engine.get_put_same]
  · rw [Engine.arrivedValue, Engine.peer_setPeer_same]
    exact cellFind_insert_erase _ _ _
  · rw [Engine.arrivedValue, Engine.ent_setPeer, Engine.ent_put_other hstale, Engine.ent_put_other hvalue]

end Received

/-! SYNC and the TPDOs (R412) -/

section Sent

variable {e : Engine} {c : Nat}

theorem Engine.sync_stopped (hproducer : bit (e.get 0x1005 0) 30 = true) (hoff : e.get 0x1006 0 = 0) : e.sync c = e :=
  if_pos ⟨hproducer, hoff⟩

theorem Engine.tpdoSync_off {n : Nat} (hoff : e.tpdoOn n = false) : e.tpdoSync n = e := if_pos (.inl (by simp [hoff]))

theorem Engine.each_tpdoSync_off (hoff : ∀ m, m < 16 → e.tpdoOn m = false) : e.each (List.range 16) Engine.tpdoSync = e :=
  e.each_unchanged _ fun m hm => Engine.tpdoSync_off (hoff m (List.mem_range.mp hm))

/-- The counter is taken; where no synchronous PDO waits or is due, a SYNC does nothing else. -/
theorem Engine.sync_quiet {x : Engine} (hoff : ∀ m, m < 16 → x.tpdoOn m = false) (hnone : x.net.rpdoSync = []) :
    Engine.each (x.net.rpdoSync.foldl (fun e p => e.takeRpdo p.1 p.2) { x with net.syncCount := c, net.rpdoSync := [] })
      (List.range 16) Engine.tpdoSync = { x with net.syncCount := c } := by
  have hempty : ({ x with net.syncCount := c, net.rpdoSync := [] } : Engine) = { x with net.syncCount := c } := by rw [← hnone]
  rw [hnone, List.foldl_nil, hempty]
  exact Engine.each_tpdoSync_off hoff

theorem Engine.sync_consumed (hconsumer : bit (e.get 0x1005 0) 30 = false) (hawake : e.idle = 0)
    (hoff : ∀ m, m < 16 → e.tpdoOn m = false) (hnone : e.net.rpdoSync = []) : e.sync c = { e with net.syncCount := c } := by
  simp only [Engine.sync, hconsumer, Engine.wake_awake e 4 hawake]
  rw [if_neg (by simp)]
  exact Engine.sync_quiet hoff hnone

/-- The next counter of SYNC. -/
def Engine.syncNext (e : Engine) : Nat := if e.net.syncCount < e.get 0x1019 0 then e.net.syncCount + 1 else 1

theorem Engine.sync_produced (hproducer : bit (e.get 0x1005 0) 30 = true) (hon : e.get 0x1006 0 ≠ 0) (htop : e.get 0x1019 0 ≠ 0)
    (hport : e.net.portB = 0) (hoff : ∀ m, m < 16 → e.tpdoOn m = false) (hnone : e.net.rpdoSync = []) :
    e.sync c = { e.send (.can 0 (e.get 0x1005 0 % 2048) (toLe 1 e.syncNext)) with net.syncCount := e.syncNext } := by
  have hports : e.netPorts = [0] := Engine.netPorts_single (by simp [hport])
  simp only [Engine.sync, hproducer, hports]
  rw [if_neg (by simp [hon])]
  simp only [if_neg htop, if_true]
  exact Engine.sync_quiet (x := e.send (.can 0 (e.get 0x1005 0 % 2048) (toLe 1 e.syncNext))) hoff hnone

theorem Engine.eventCheck_off (hoff : ∀ m, m < 16 → e.tpdoOn m = false) (timers : Nat) : e.eventCheck timers = e :=
  e.each_unchanged _ fun m hm => if_neg fun h => Bool.false_ne_true ((hoff m (List.mem_range.mp hm)).symm.trans h.1)

theorem Engine.tpdoOn_sendTpdo (n m : Nat) : (e.sendTpdo n).tpdoOn m = e.tpdoOn m := rfl

/-- What an event check does with one TPDO. -/
def Engine.eventOf (timers : Nat) (e : Engine) (n : Nat) : Engine :=
  if e.tpdoOn n ∧ 254 ≤ e.get (0x1800 + n) 2 ∧
      ((bit timers n && e.get (0x1800 + n) 5 != 0) ∨ ((e.tpdo n).last ≠ e.tpdoBytes n ∧ e.tpdoFree n)) then e.sendTpdo n else e

theorem Engine.eventOf_off {n : Nat} (hoff : e.tpdoOn n = false) (timers : Nat) : Engine.eventOf timers e n = e :=
  if_neg fun h => Bool.false_ne_true (hoff.symm.trans h.1)

/-- R412: of the TPDOs of a list, the only one on is sent once. -/
theorem Engine.each_eventOf {timers n : Nat} (ms : List Nat) (hn : n ∈ ms) (hnodup : ms.Nodup)
    (hothers : ∀ m, m ∈ ms → m ≠ n → e.tpdoOn m = false) (hsent : Engine.eventOf timers e n = e.sendTpdo n) :
    e.each ms (Engine.eventOf timers) = e.sendTpdo n := by
  induction ms with
  | nil => exact absurd hn List.not_mem_nil
  | cons m ms ih =>
    obtain ⟨hm, hrest⟩ := List.nodup_cons.mp hnodup
    have hcons : e.each (m :: ms) (Engine.eventOf timers) = (Engine.eventOf timers e m).each ms (Engine.eventOf timers) := rfl
    rw [hcons]
    obtain rfl | hne := eq_or_ne n m
    · rw [hsent]
      refine Engine.each_unchanged _ _ fun k hk => Engine.eventOf_off ?_ timers
      rw [Engine.tpdoOn_sendTpdo]
      exact hothers k (List.mem_cons_of_mem _ hk) fun heq => hm (heq ▸ hk)
    · rw [Engine.eventOf_off (hothers m List.mem_cons_self hne.symm) timers]
      exact ih (List.mem_of_ne_of_mem hne hn) hrest fun k hk => hothers k (List.mem_cons_of_mem _ hk)

/-- R412: an event timer that has expired sends its TPDO. -/
theorem Engine.eventCheck_sends {timers n : Nat} (hn : n < 16) (hon : e.tpdoOn n = true)
    (hothers : ∀ m, m < 16 → m ≠ n → e.tpdoOn m = false) (hevent : 254 ≤ e.get (0x1800 + n) 2) (hdue : bit timers n = true)
    (htimer : e.get (0x1800 + n) 5 ≠ 0) : e.eventCheck timers = e.sendTpdo n :=
  Engine.each_eventOf (List.range 16) (List.mem_range.mpr hn) List.nodup_range (fun m hm => hothers m (List.mem_range.mp hm))
    (if_pos ⟨hon, hevent, .inl (by simp [hdue, htimer])⟩)

theorem Engine.tpdo_sendTpdo (n : Nat) :
    (e.sendTpdo n).tpdo n = { last := e.tpdoBytes n, sentAt := some e.now, syncs := 0 } :=
  cellGet_cellSet_same _ _ _ _

end Sent

/-! The ports (R381) -/

section Ports

variable {e : Engine}

/-- R381: the change-over names the other port, and is counted. -/
theorem Engine.changePort_eq : e.changePort =
    (e.put 0x5000 0x0D (1 - e.get 0x5000 0x0D)).put 0x5000 7 (satAdd (entBits 0x5000 7) (e.get 0x5000 7) 1) := by
  rw [Engine.changePort, Engine.bump, Engine.get_put_subindex _ _ (by decide)]

theorem Engine.busOff_noB (hport : e.net.portB = 0) : e.busOff 1 = e := if_pos ⟨rfl, hport⟩

theorem Engine.busOff_a (hport : e.net.portB ≠ 2) :
    e.busOff 0 = e.put 0x5000 6 (e.get 0x5000 6 / 65536 * 65536 + satAdd 16 (e.get 0x5000 6 % 65536) 1) := by
  simp only [Engine.busOff]
  rw [if_neg (by simp)]
  exact if_neg fun h => hport h.1

theorem Engine.busOff_active (hport : e.net.portB = 2) (hactive : e.get 0x5000 0x0D = 1) :
    e.busOff 1 = (e.put 0x5000 6 (e.get 0x5000 6 % 65536 + satAdd 16 (e.get 0x5000 6 / 65536) 1 * 65536)).changePort := by
  have hkept : ∀ v, (e.put 0x5000 6 v).get 0x5000 0x0D = 1 := fun v =>
    (Engine.get_put_subindex _ v (by decide)).trans hactive
  simp only [Engine.busOff]
  rw [if_neg (by simp [hport])]
  exact if_pos ⟨hport, hkept _⟩

end Ports

section NetworkCommands

variable {s : State} {n : Fin 16} {data : List Byte}

theorem becomes_rpdoReceived (hlive : s.e.live = true) : Becomes (.rpdoReceived n data) s (s.e.rpdo n.val data) :=
  becomes_of_whenLive (f := fun e => e.rpdo n.val data) rfl hlive

theorem becomes_syncPeriod (hs : s.serves 2) (c : Byte) : Becomes (.syncPeriod c) s (s.e.sync c.toNat) := by
  obtain ⟨hlive, hserving⟩ := hs
  have hsync := becomes_of_whenLive (c := .syncPeriod c) (f := fun e => if e.serving 2 then e.sync c.toNat else e) rfl hlive
  rw [if_pos hserving] at hsync
  exact hsync

theorem becomes_tpdoEventCheck (hs : s.serves 2) (tm : BitVec 16) : Becomes (.tpdoEventCheck tm) s (s.e.eventCheck tm.toNat) := by
  obtain ⟨hlive, hserving⟩ := hs
  have hcheck := becomes_of_whenLive (c := .tpdoEventCheck tm) (f := fun e => if e.serving 2 then e.eventCheck tm.toNat else e)
    rfl hlive
  rw [if_pos hserving] at hcheck
  exact hcheck

theorem becomes_canBusOff (hlive : s.e.live = true) (port : Bool) : Becomes (.canBusOff port) s (s.e.busOff (ofBool port)) :=
  becomes_of_whenLive (f := fun e => e.busOff (ofBool port)) rfl hlive

theorem becomes_activePortSilence (hlive : s.e.live = true) :
    Becomes .activePortSilence s (if s.e.net.portB = 2 then s.e.changePort else s.e) :=
  becomes_of_whenLive (f := fun e => if e.net.portB = 2 then e.changePort else e) rfl hlive

/-- R412: the PDOs that are received, and SYNC. -/
theorem pdos_received (hs : s.serves 2) :
    (s.e.pdoValid (0x1400 + n.val) = false → Becomes (.rpdoReceived n data) s s.e) ∧
    (s.e.pdoValid (0x1400 + n.val) = true → s.e.get (0x1400 + n.val) 2 ≤ 240 → Completes (.rpdoReceived n data) s (fun t =>
      cellFind n.val t.e.net.rpdoSync = some data ∧ t = { s with e := { s.e with net.rpdoSync := t.e.net.rpdoSync } })) ∧
    (∀ i sub, s.e.pdoValid (0x1400 + n.val) = true → 240 < s.e.get (0x1400 + n.val) 2 →
      s.e.mapped (0x1600 + n.val) = [(peerIdx i, sub, 4)] → 1 ≤ i → i < 128 → 0x20 ≤ sub → sub < 0x30 →
      s.e.get (peerIdx i) 2 = 3 → data.length = 4 → Completes (.rpdoReceived n data) s (fun t => ∃ e : Engine, t.e = e.evalHolds ∧
        e.get (peerIdx i) sub = le data ∧ e.get (peerIdx i) 0x15 = 0 ∧
        cellFind (sub - 0x1F) (e.peer i).arrived = some s.e.now ∧
        (∀ k, k ≠ ekey (peerIdx i) sub → k ≠ ekey (peerIdx i) 0x15 → e.ent k = s.e.ent k))) := by
  obtain ⟨hlive, hserving⟩ := hs
  have hreceived := becomes_rpdoReceived (n := n) (data := data) hlive
  refine ⟨fun hoff => ?_, fun hon hsync => ?_, fun i sub hon hasync hmapped hi hi' hsub hsub' hused hlen => ?_⟩
  · rw [Engine.rpdo_invalid hoff] at hreceived
    exact hreceived
  · rw [Engine.rpdo_waits hon hserving hsync] at hreceived
    exact hreceived.completes ⟨cellFind_insert_erase _ _ _, rfl⟩
  · rw [Engine.rpdo_taken hon hserving hasync, Engine.takeRpdo_value hmapped hi hi' hsub hsub' hused hlen] at hreceived
    exact hreceived.completes_exists Engine.evalHolds (Engine.arrivedValue_arrives hsub hlen)

theorem changePort_writes {c : Instr} (h : Becomes c s s.e.changePort) : Writes c s s.e
    [(0x50000D, 1 - s.e.get 0x5000 0x0D), (0x500007, satAdd (entBits 0x5000 7) (s.e.get 0x5000 7) 1)] := by
  rw [Engine.changePort_eq] at h
  exact writes_of_put_put (i := 0x5000) (j := 0x0D) (i' := 0x5000) (j' := 7) h (by decide)

/-- R381: bus-off of the active port B of a redundant pair. -/
theorem busOff_changesOver (hlive : s.e.live = true) (hport : s.e.net.portB = 2) (hactive : s.e.get 0x5000 0x0D = 1) :
    Writes (.canBusOff true) s s.e [(0x500006, s.e.get 0x5000 6 % 65536 + satAdd 16 (s.e.get 0x5000 6 / 65536) 1 * 65536),
      (0x50000D, 0), (0x500007, satAdd (entBits 0x5000 7) (s.e.get 0x5000 7) 1)] := by
  have hoff : Becomes (.canBusOff true) s (s.e.busOff 1) := becomes_canBusOff hlive true
  rw [Engine.busOff_active hport hactive, Engine.changePort_eq, Engine.get_put_subindex _ _ (by decide), hactive,
    Engine.get_put_subindex _ _ (by decide)] at hoff
  exact writes_of_setAll (ops := [(0x500006, s.e.get 0x5000 6 % 65536 + satAdd 16 (s.e.get 0x5000 6 / 65536) 1 * 65536),
    (0x50000D, 0), (0x500007, satAdd (entBits 0x5000 7) (s.e.get 0x5000 7) 1)]) hoff (by simp) (.refl _)

/-- Settles O57: RPDOs by their transmission type, SYNC by its producer, TPDOs by their timers, and the ports by their roles. -/
theorem processData : Obligations.ProcessData := by
  intro s n data hs hawake
  have hlive : s.e.live = true := hs.1
  obtain ⟨hinvalid, hwaits, htaken⟩ := pdos_received (n := n) (data := data) hs
  have hsilence := becomes_activePortSilence hlive
  refine ⟨hinvalid, hwaits, htaken, fun c hproducer hstopped => ?_,
    fun hoff hnone => ⟨fun c hconsumer => ?_, fun c k hproducer hon htop hport hk => ?_⟩, fun tm hoff => ?_,
    fun tm hon hothers hevent hdue htimer => ?_, fun hport => ⟨?_, ?_⟩, fun hport => ?_, fun hport => ?_,
    busOff_changesOver hlive⟩
  · have hsync := becomes_syncPeriod hs c
    rw [Engine.sync_stopped hproducer hstopped] at hsync
    exact hsync
  · have hsync := becomes_syncPeriod hs c
    rw [Engine.sync_consumed hconsumer hawake hoff hnone] at hsync
    exact hsync
  · have hsync := becomes_syncPeriod hs c
    rw [Engine.sync_produced hproducer hon htop hport hoff hnone] at hsync
    rw [hk]
    exact hsync
  · have hcheck := becomes_tpdoEventCheck hs tm
    rw [Engine.eventCheck_off hoff] at hcheck
    exact hcheck
  · have hcheck := becomes_tpdoEventCheck hs tm
    rw [Engine.eventCheck_sends n.isLt hon hothers hevent hdue htimer] at hcheck
    exact hcheck.completes ⟨rfl, Engine.tpdo_sendTpdo _, rfl⟩
  · have hoff : Becomes (.canBusOff true) s (s.e.busOff 1) := becomes_canBusOff hlive true
    rw [Engine.busOff_noB hport] at hoff
    exact hoff
  · rw [if_neg (by simp [hport])] at hsilence
    exact hsilence
  · have hoff : Becomes (.canBusOff false) s (s.e.busOff 0) := becomes_canBusOff hlive false
    rw [Engine.busOff_a hport] at hoff
    exact writes_of_put (i := 0x5000) (j := 6) hoff
  · rw [if_pos hport] at hsilence
    exact changePort_writes hsilence

end NetworkCommands

end Sys2Proof.Machine

/-! The fault log (R315, R318, R320, R321): what its operations change, and acknowledgement, incidents, windows and FAULT_L (O46). -/

namespace Sys2Proof.Machine

section EventRing

variable (e : Engine)

/-- R75: a vector that is signalled changes the pending bits or what is sent alone. -/
theorem Engine.signal_eq (v : Nat) : ∃ host out, e.signal v = { e with host := host, out := out } := by
  rw [Engine.signal]
  split_ifs
  · exact ⟨_, e.out, rfl⟩
  · exact ⟨e.host, _, rfl⟩

/-- R77: writing a record changes the host's ring and what is sent alone. -/
theorem Engine.ringWrite_eq (ty : Nat) (payload : List Byte) :
    ∃ host out, e.ringWrite ty payload = { e with host := host, out := out } := by
  simp only [Engine.ringWrite, Engine.signal]
  split_ifs <;> exact ⟨_, _, rfl⟩

theorem Engine.overflowRecord_eq : ∃ host out, e.overflowRecord = { e with host := host, out := out } := by
  rw [Engine.overflowRecord]
  split_ifs
  · obtain ⟨host, out, hwrite⟩ := e.ringWrite_eq 4 (toLe 4 e.host.lostSince)
    exact ⟨{ host with lostSince := 0 }, out, by rw [hwrite]⟩
  · exact ⟨e.host, e.out, rfl⟩

/-- R77: a record that is generated changes the host's ring and what is sent alone. -/
theorem Engine.record_eq (ty : Nat) (payload : List Byte) :
    ∃ host out, e.record ty payload = { e with host := host, out := out } := by
  obtain ⟨host, out, hover⟩ := e.overflowRecord_eq
  simp only [Engine.record, hover]
  split_ifs
  · exact ⟨_, out, rfl⟩
  · obtain ⟨host', out', hwrite⟩ := Engine.ringWrite_eq { e with host := host, out := out } ty payload
    exact ⟨host', out', hwrite⟩
  · exact ⟨e.host, e.out, rfl⟩

end EventRing

/-! One entry of the log -/

/-- A log entry all of whose repeats its records carry (R321). -/
def LogEntry.caughtUp (x : LogEntry) : LogEntry := { x with recorded := x.repeats }

/-- A change of one entry leaves what it does not touch of every entry. -/
theorem map_updLog {α : Type} {g : LogEntry → α} {f : LogEntry → LogEntry} (hg : ∀ x, g (f x) = g x) (q : Nat) :
    ∀ log, (updLog q f log).map g = log.map g
  | [] => rfl
  | x :: log => by
    rw [updLog]
    split_ifs
    · simp [hg]
    · simp [map_updLog hg q log]

section Entries

variable {e : Engine}

/-- R321: the record of an entry changes the ring, what is sent and that entry's recorded count alone. -/
theorem Engine.logRecord_eq (x : LogEntry) :
    ∃ host out, e.logRecord x = { e with host := host, out := out, flt.log := updLog x.seq LogEntry.caughtUp e.flt.log } := by
  obtain ⟨host, out, hrecord⟩ := e.record_eq 1 (toLe 8 x.msg ++ toLe 4 x.repeats)
  exact ⟨host, out, by rw [Engine.logRecord, hrecord]; rfl⟩

@[simp] theorem Engine.logRecord_log (x : LogEntry) : (e.logRecord x).flt.log = updLog x.seq LogEntry.caughtUp e.flt.log := by
  obtain ⟨host, out, hrecord⟩ := e.logRecord_eq x
  rw [hrecord]

@[simp] theorem Engine.get_logRecord (x : LogEntry) (i j : Nat) : (e.logRecord x).get i j = e.get i j := by
  obtain ⟨host, out, hrecord⟩ := e.logRecord_eq x
  rw [hrecord]
  rfl

/-- With the event ring disabled (R77) a record is no more than the count it catches up. -/
theorem Engine.logRecord_ringOff (hring : e.host.ringEnable = false) (x : LogEntry) :
    e.logRecord x = { e with flt.log := updLog x.seq LogEntry.caughtUp e.flt.log } := by
  simp only [Engine.logRecord, Engine.record, hring]
  rfl

end Entries

/-! Acknowledgement (R318) -/

section Acknowledgement

variable {s : State} {e : Engine}

@[simp] theorem ackEntry_seq (t : Nat) (p : LogEntry → Bool) (x : LogEntry) : (ackEntry t p x).seq = x.seq := by
  rw [ackEntry]
  split_ifs <;> rfl

theorem ackEntry_acked (t : Nat) (p : LogEntry → Bool) (x : LogEntry) : (ackEntry t p x).acked = (x.acked || p x) := by
  rw [ackEntry]
  split_ifs with h
  · simp only [Bool.and_eq_true, Bool.not_eq_true'] at h
    rw [h.2, Bool.or_true]
  · cases hacked : x.acked <;> simp_all

/-- What no count of records changes of the entries is the same after the entries `xs` are recorded once more. -/
theorem Engine.recordAgain_map {α : Type} {g : LogEntry → α} (hg : ∀ x, g x.caughtUp = g x) (xs : List LogEntry) :
    (xs.foldl (fun e x => if x.repeats = x.recorded then e else e.logRecord x) e).flt.log.map g = e.flt.log.map g := by
  refine List.foldlRecOn (motive := fun y : Engine => y.flt.log.map g = e.flt.log.map g) _ _ rfl fun y hy x _ => ?_
  split_ifs
  · exact hy
  · rw [Engine.logRecord_log, map_updLog hg, hy]

/-- R322: an EMCY changes 1003h, the count 4100h:0Eh, the network state and what is sent alone. -/
theorem Engine.emcy_keeps {α : Type} (g : Engine → α) (hfield : ∀ (y : Engine) j v, j < 256 → g (y.put 0x1003 j v) = g y)
    (hcount : ∀ y : Engine, g (y.bump 0x4100 0x0E 1) = g y) (hsend : ∀ (y : Engine) o, g (y.send o) = g y)
    (hnet : ∀ (y : Engine) net, g { y with net := net } = g y) (code msg seq : Nat) : g (e.emcy code msg seq) = g e := by
  have hfields : g ((List.range 7).reverse.foldl (fun e i => e.put 0x1003 (i + 2) (e.get 0x1003 (i + 1))) e) = g e := by
    refine List.foldlRecOn (motive := fun y : Engine => g y = g e) _ _ rfl fun y hy i hi => ?_
    rw [hfield _ _ _ (by simp only [List.mem_reverse, List.mem_range] at hi; omega), hy]
  rw [Engine.emcy]
  generalize (List.range 7).reverse.foldl (fun e i => e.put 0x1003 (i + 2) (e.get 0x1003 (i + 1))) e = y at hfields
  dsimp only
  split_ifs
  · rw [hcount, hfield _ _ _ (by decide), hfield _ _ _ (by decide), hfields]
  · rw [hnet, Engine.each_keeps _ g _ fun _ _ => hsend _ _, hfield _ _ _ (by decide), hfield _ _ _ (by decide), hfields]

/-- R322: an EMCY leaves the collector's own state. -/
@[simp] theorem Engine.emcy_flt (code msg seq : Nat) : (e.emcy code msg seq).flt = e.flt :=
  Engine.emcy_keeps (·.flt) (fun _ _ _ _ => rfl) (fun _ => rfl) (fun _ _ => rfl) (fun _ _ => rfl) _ _ _

theorem Engine.get_emcy (code msg seq : Nat) {i j : Nat} (hj : j < 256) (hi : i ≠ 0x1003) (hcount : 0x4100 ≠ i ∨ 0x0E ≠ j) :
    (e.emcy code msg seq).get i j = e.get i j := by
  refine Engine.emcy_keeps (·.get i j) (fun y k v hk => ?_) (fun y => ?_) (fun _ _ => rfl) (fun _ _ => rfl) _ _ _
  · exact Engine.get_put_other _ hk hj (by simp [hi])
  · exact Engine.get_bump_other (by decide) hj hcount

/-- R318: an acknowledgement ends in a release of demands; before it the entries that `p` names are acknowledged, each in its
place. -/
theorem Engine.acknowledge_release {p : LogEntry → Bool} (hp : ∀ x, p x.caughtUp = p x) :
    ∃ y : Engine, e.acknowledge p = y.release ∧ y.flt.log.map (·.seq) = e.flt.log.map (·.seq) ∧
      y.flt.log.map (·.acked) = e.flt.log.map (fun x => x.acked || p x) := by
  have hseqs := Engine.recordAgain_map (e := e) (g := (·.seq)) (fun _ => rfl) (e.flt.log.filter fun x => !x.acked && p x)
  have hacks := Engine.recordAgain_map (e := e) (g := fun x => x.acked || p x) (fun x => congrArg (x.acked || ·) (hp x))
    (e.flt.log.filter fun x => !x.acked && p x)
  rw [Engine.acknowledge]
  generalize (e.flt.log.filter fun x => !x.acked && p x).foldl
    (fun e x => if x.repeats = x.recorded then e else e.logRecord x) e = y at hseqs hacks
  refine ⟨_, rfl, ?_⟩
  have hmap : ∀ z : Engine, z.flt.log = y.flt.log.map (ackEntry y.now p) →
      z.flt.log.map (·.seq) = e.flt.log.map (·.seq) ∧ z.flt.log.map (·.acked) = e.flt.log.map (fun x => x.acked || p x) := by
    intro z hz
    rw [hz, ← hseqs, ← hacks, List.map_map, List.map_map]
    exact ⟨List.map_congr_left fun x _ => ackEntry_seq _ _ x, List.map_congr_left fun x _ => ackEntry_acked _ _ x⟩
  apply hmap
  split_ifs
  · exact congrArg Collector.log (Engine.emcy_flt _ _ _)
  · rfl

theorem becomes_acknowledgeEntry (hserves : s.serves 3) (q : BitVec 32) : Becomes (.acknowledgeEntry q) s (s.e.ackSeq q.toNat) :=
  becomes_of_request (idx := 0x4100) (f := fun e => e.ackSeq q.toNat) rfl hserves

theorem becomes_acknowledgeClass (hserves : s.serves 3) (c : Byte) : Becomes (.acknowledgeClass c) s (s.e.ackClass c.toNat) :=
  becomes_of_request (idx := 0x4100) (f := fun e => e.ackClass c.toNat) rfl hserves

/-- R318: what an acknowledgement of the entries `p` names gives. -/
theorem Becomes.acknowledges {c : Instr} {p : LogEntry → Bool} (hp : ∀ x, p x.caughtUp = p x)
    (h : Becomes c s (s.e.acknowledge p).done) : Completes c s (fun t => ∃ e : Engine,
      t.e = e.release.done ∧ e.flt.log.map (·.seq) = s.e.flt.log.map (·.seq) ∧
      e.flt.log.map (·.acked) = s.e.flt.log.map (fun y => y.acked || p y)) := by
  obtain ⟨y, hrelease, hseqs, hacks⟩ := Engine.acknowledge_release (e := s.e) hp
  rw [hrelease] at h
  exact h.completes_exists (fun y => y.release.done) ⟨hseqs, hacks⟩

theorem says_acknowledgements : Says.Acknowledgements := by
  intro s q c hserves
  have hentry := becomes_acknowledgeEntry hserves q
  have hclass := becomes_acknowledgeClass hserves c
  refine ⟨fun hnone => ?_, fun x hfound => ?_, fun hc => ?_, fun hc => ?_⟩
  · rw [Engine.ackSeq, hnone] at hentry
    exact hentry
  · rw [Engine.ackSeq, hfound] at hentry
    exact hentry.acknowledges fun _ => rfl
  · rw [Engine.ackClass, if_pos hc] at hclass
    exact hclass
  · rw [Engine.ackClass, if_neg (Nat.not_lt.mpr hc)] at hclass
    exact hclass.acknowledges fun _ => rfl

end Acknowledgement

/-! Timers and FAULT_L (R314, R317, R319, R321) -/

section Timers

variable {s : State} {e : Engine}

theorem Engine.faultLFree_running (hmode : e.mode = .running) : e.faultLFree = true := by rw [Engine.faultLFree, hmode]; rfl

/-- R319: where FAULT_L carries no pattern, its bit cleared releases it. -/
theorem Engine.faultLClear_released (hmode : e.mode = .running) :
    e.faultLClear.get 0x4100 9 = 0 ∧ e.faultLClear.flt = { e.flt with clearPending := false, faultLPin := true } := by
  refine ⟨Engine.get_put_same _ _ _ _, ?_⟩
  rw [Engine.faultLClear, Engine.faultLFree_running hmode, Bool.or_true]
  rfl

theorem becomes_repeatRecordTimer (hserves : s.serves 3) (q : Nat) : Becomes (.repeatRecordTimer q) s (s.e.repeatRecord q) :=
  becomes_of_whenLive (f := fun e => e.repeatRecord q) rfl hserves.1

theorem becomes_faultLHoldWrite (hserves : s.serves 3) (v : Bool) : Becomes (.faultLHoldWrite v) s (s.e.faultLWrite v) :=
  becomes_of_request (idx := 0x4100) (f := fun e => e.faultLWrite v) rfl hserves

theorem becomes_faultLMinimumExpiry (hserves : s.serves 3) : Becomes .faultLMinimumExpiry s s.e.faultLExpiry :=
  becomes_of_whenLive (f := Engine.faultLExpiry) rfl hserves.1

theorem says_faultTimers : Says.FaultTimers := by
  intro s hserves
  have hrepeat := becomes_repeatRecordTimer hserves
  have hwrite := becomes_faultLHoldWrite hserves
  have hexpiry := becomes_faultLMinimumExpiry hserves
  refine ⟨fun q => becomes_of_whenLive (f := fun e => { e with flt.incidents := e.flt.incidents.filter fun i => i.seq != q })
    rfl hserves.1, fun w => becomes_of_whenLive (f := fun e => e.windowElapsed w) rfl hserves.1, ?_, ?_, ?_, ?_, ?_, ?_, ?_, ?_, ?_⟩
  · intro q hnone
    have h := hrepeat q
    rw [Engine.repeatRecord, hnone] at h
    exact h
  · intro q x hfound hrecorded
    have h := hrepeat q
    simp only [Engine.repeatRecord, hfound, if_pos hrecorded] at h
    exact h
  · intro q x hfound hgrown hring
    have hseq : x.seq = q := by simpa using List.find?_some hfound
    have h := hrepeat q
    simp only [Engine.repeatRecord, hfound, if_neg hgrown, Engine.logRecord_ringOff hring, hseq] at h
    exact h
  · exact (hwrite true).completes ⟨Engine.get_put_same _ _ _ _, rfl, rfl, fun k hk => Engine.ent_put_other hk⟩
  · intro hmin
    have h := hwrite false
    rw [Engine.faultLWrite, if_neg Bool.false_ne_true, if_pos hmin] at h
    exact h
  · intro hmin hmode
    obtain ⟨hbit, hflt⟩ := Engine.faultLClear_released hmode
    have h := hwrite false
    rw [Engine.faultLWrite, if_neg Bool.false_ne_true, if_neg (ne_true_of_eq_false hmin)] at h
    exact h.completes ⟨hbit, congrArg Collector.faultLPin hflt, congrArg Collector.clearPending hflt, rfl⟩
  · intro hmin
    simpa [Engine.faultLExpiry, hmin] using hexpiry
  · intro hmin hpending
    simpa [Engine.faultLExpiry, hmin, hpending] using hexpiry
  · intro hmin hpending hmode
    obtain ⟨hbit, hflt⟩ := Engine.faultLClear_released (e := { s.e with flt.minimumOn := false }) hmode
    simp only [Engine.faultLExpiry, hmin, hpending, Bool.not_true, Bool.false_eq_true, if_false, if_true] at hexpiry
    exact hexpiry.completes ⟨hbit, congrArg Collector.faultLPin hflt, congrArg Collector.minimumOn hflt,
      congrArg Collector.clearPending hflt⟩

end Timers

/-- Settles O46: the acknowledged entries are those the command names before the demands are released, and each timer's own
equation gives its clause. -/
theorem faultBookkeeping : Obligations.FaultBookkeeping := ⟨says_acknowledgements, says_faultTimers⟩

end Sys2Proof.Machine

/-! A fault message (R308, R312, R313, R315, R319, R320): the entry a first message opens, the repeat that is counted, the reaction of
class Stop and above (O45). -/

namespace Sys2Proof.Machine

section Collecting

variable {e : Engine}

/-- What the collector keeps besides its log and windows: the next sequence, the FAULT_L pin and its minimum. -/
def Engine.pinAndSeq (e : Engine) : Nat × Bool × Bool := (e.flt.nextSeq, e.flt.faultLPin, e.flt.minimumOn)

/-- R317: the windows an entry opens are all that changes. -/
theorem Engine.openWindows_eq (src kind detail cls seq : Nat) :
    ∃ ws n, e.openWindows src kind detail cls seq = { e with flt.windows := ws, flt.nextWindow := n } := by
  have hopen : ∀ (y : Engine) k ended, (∃ ws n, y = { e with flt.windows := ws, flt.nextWindow := n }) →
      ∃ ws n, y.openWindow k cls seq ended = { e with flt.windows := ws, flt.nextWindow := n } := by
    rintro y k ended ⟨ws, n, rfl⟩
    exact ⟨_, _, rfl⟩
  have hnone : ∃ ws n, e = { e with flt.windows := ws, flt.nextWindow := n } := ⟨e.flt.windows, e.flt.nextWindow, rfl⟩
  have hclass : ∃ ws n, (if cls = 4 then e.openWindow .halt cls seq false
      else if cls = 3 then e.openWindow .stop cls seq e.pan.flight.isNone else e) =
        { e with flt.windows := ws, flt.nextWindow := n } := by
    split_ifs
    · exact hopen _ _ _ hnone
    · exact hopen _ _ _ hnone
    · exact hnone
  rw [Engine.openWindows]
  generalize (if cls = 4 then e.openWindow .halt cls seq false
      else if cls = 3 then e.openWindow .stop cls seq e.pan.flight.isNone else e) = y at hclass
  dsimp only
  split_ifs
  exacts [hopen _ _ _ hclass, hopen _ _ _ hclass, hopen _ _ _ hclass, hopen _ _ _ hclass, hopen _ _ _ hclass,
    hopen _ _ _ hclass, hclass]

@[simp] theorem Engine.openWindows_log (src kind detail cls seq : Nat) :
    (e.openWindows src kind detail cls seq).flt.log = e.flt.log := by
  obtain ⟨ws, n, heq⟩ := e.openWindows_eq src kind detail cls seq
  rw [heq]

@[simp] theorem Engine.openWindows_pinAndSeq (src kind detail cls seq : Nat) :
    (e.openWindows src kind detail cls seq).pinAndSeq = e.pinAndSeq := by
  obtain ⟨ws, n, heq⟩ := e.openWindows_eq src kind detail cls seq
  rw [heq]
  rfl

@[simp] theorem Engine.get_openWindows (src kind detail cls seq i j : Nat) :
    (e.openWindows src kind detail cls seq).get i j = e.get i j := by
  obtain ⟨ws, n, heq⟩ := e.openWindows_eq src kind detail cls seq
  rw [heq]
  rfl

@[simp] theorem Engine.panelCount_log (cls msg seq : Nat) : (e.panelCount cls msg seq).flt.log = e.flt.log := by
  rw [Engine.panelCount]
  split_ifs <;> rfl

@[simp] theorem Engine.panelCount_pinAndSeq (cls msg seq : Nat) : (e.panelCount cls msg seq).pinAndSeq = e.pinAndSeq := by
  rw [Engine.panelCount]
  split_ifs <;> rfl

@[simp] theorem Engine.get_panelCount (cls msg seq i j : Nat) : (e.panelCount cls msg seq).get i j = e.get i j := by
  rw [Engine.panelCount]
  split_ifs <;> rfl

@[simp] theorem Engine.publishLog_flt : e.publishLog.flt = e.flt := rfl

@[simp] theorem Engine.get_publishLog_count : e.publishLog.get 0x4100 1 = e.flt.log.length := by
  rw [Engine.publishLog, Engine.get_put_other _ (by decide) (by decide) (by decide),
    Engine.get_put_subindex _ _ (by decide), Engine.get_put_same]

@[simp] theorem Engine.get_publishLog_highest : e.publishLog.get 0x4100 4 = highestUnacked e.flt.log := by
  rw [Engine.publishLog, Engine.get_put_other _ (by decide) (by decide) (by decide), Engine.get_put_same]

theorem Engine.get_publishLog {i j : Nat} (hj : j < 256) (hi : i ≠ 0x1001) (hsub : i = 0x4100 → j ≠ 1 ∧ j ≠ 4) :
    e.publishLog.get i j = e.get i j := by
  rw [Engine.publishLog, Engine.get_put_other _ (by decide) hj (by tauto), Engine.get_put_other _ (by decide) hj (by tauto),
    Engine.get_put_other _ (by decide) hj (by tauto)]

@[simp] theorem Engine.logRecord_pinAndSeq (x : LogEntry) : (e.logRecord x).pinAndSeq = e.pinAndSeq := by
  obtain ⟨host, out, hrecord⟩ := e.logRecord_eq x
  rw [hrecord]
  rfl

end Collecting

/-! Delivery (R321, R322) -/

section Delivery

variable {e : Engine}

/-- R321, R322: an entry that is delivered changes what a record and an EMCY change, and the published state of the log. -/
theorem Engine.deliver_keeps {α : Type} (g : Engine → α) (x : LogEntry) (hemcy : ∀ (y : Engine) c m q, g (y.emcy c m q) = g y)
    (hactive : ∀ (y : Engine) b, g { y with flt.emcyActive := b } = g y) :
    g (e.deliver x) = g (e.publishLog.logRecord x) := by
  rw [Engine.deliver]
  dsimp only
  split_ifs
  · rw [hactive, hemcy]
  · rfl

@[simp] theorem Engine.deliver_log (x : LogEntry) : (e.deliver x).flt.log = updLog x.seq LogEntry.caughtUp e.flt.log :=
  (Engine.deliver_keeps (·.flt.log) x (fun _ _ _ _ => congrArg Collector.log (Engine.emcy_flt _ _ _)) fun _ _ => rfl).trans
    (Engine.logRecord_log x)

@[simp] theorem Engine.deliver_pinAndSeq (x : LogEntry) : (e.deliver x).pinAndSeq = e.pinAndSeq :=
  (Engine.deliver_keeps Engine.pinAndSeq x (fun _ _ _ _ => by rw [Engine.pinAndSeq, Engine.emcy_flt]; rfl) fun _ _ => rfl).trans
    (Engine.logRecord_pinAndSeq x)

theorem Engine.get_deliver (x : LogEntry) {i j : Nat} (hj : j < 256) (hi : i ≠ 0x1003) (hcount : 0x4100 ≠ i ∨ 0x0E ≠ j) :
    (e.deliver x).get i j = e.publishLog.get i j :=
  (Engine.deliver_keeps (·.get i j) x (fun _ _ _ _ => Engine.get_emcy _ _ _ hj hi hcount) fun _ _ => rfl).trans
    (Engine.get_logRecord x i j)

end Delivery

/-! The reaction (R312, R319) -/

section Reactions

variable {e : Engine} {c : Nat}

theorem Engine.react_low (hc : c < 3) : e.react c = e := if_pos hc

/-- R312: the reaction counted, and a launched transit blanked. -/
def Engine.reacting (e : Engine) : Engine :=
  { e with flt.blankTransit := e.flt.blankTransit || e.pan.flight.isSome, flt.reactions := e.flt.reactions + 1 }

/-- R312: the job at a boundary held, or the stop of a printing one noted. -/
def Engine.stopHeld (e : Engine) : Engine :=
  let e := e.reacting
  if e.jobState = 1 ∨ e.jobState = 3 then (e.setHold 1 true).toHeld
  else if e.jobState = 2 then { e with flt.stopHold := true } else e

/-- The indices that the rest of a reaction leaves alone: it changes the axes, loops and traces and the DRAM. -/
def keepsReact (i : Nat) : Bool := decide (i < 0x3000 ∨ 0x4100 ≤ i)

theorem keepsReact_ctl (i : Nat) (hlo : 0x3000 ≤ i) (hhi : i < 0x3500) : keepsReact i = false := by
  simp only [keepsReact, decide_eq_false_iff_not]
  omega

theorem keepsReact_dram (i : Nat) (hlo : 0x4000 ≤ i) (hhi : i < 0x4020) : keepsReact i = false := by
  simp only [keepsReact, decide_eq_false_iff_not]
  omega

theorem Engine.signal_view (v : Nat) (keep : Nat → Bool) : (e.signal v).view keep = e.view keep := by
  rw [Engine.signal]
  split_ifs <;> rfl

/-- R312: after FAULT_L, a reaction is the end of a drop-watch run, triggers, stops and evaluations. -/
theorem Engine.react_view (hc : 3 ≤ c) : (e.react c).view keepsReact = e.stopHeld.faultLLow.view keepsReact := by
  have htrig : ∀ y : Engine, (y.each [0, 1, 2, 3] fun e u => if e.get (traceIdx u) 7 = 4 then e.traceTrig u else e).view keepsReact
      = y.view keepsReact := fun y => Engine.each_keeps_mem y (Engine.view keepsReact) _ fun x u hu => by
    split_ifs
    · exact Engine.traceTrig_view keepsReact_ctl (mem_four.mp hu)
    · rfl
  have hstop : ∀ y : Engine, (if c = 4 then (y.stopAll true).refreshSr else y).view keepsReact = y.view keepsReact := fun y => by
    split_ifs
    · exact (Engine.refreshSr_view keepsReact_dram _).trans (Engine.stopAll_view keepsReact_ctl true)
    · rfl
  have hreact : e.react c = Engine.reEval (if c = 4 then
      ((((e.stopHeld.faultLLow.signal 35).endWatch 3).each [0, 1, 2, 3] fun e u =>
        if e.get (traceIdx u) 7 = 4 then e.traceTrig u else e).stopAll true).refreshSr
      else ((e.stopHeld.faultLLow.signal 35).endWatch 3).each [0, 1, 2, 3] fun e u =>
        if e.get (traceIdx u) 7 = 4 then e.traceTrig u else e) := if_neg (Nat.not_lt.mpr hc)
  rw [hreact, Engine.reEval_view keepsReact_ctl, hstop, htrig, Engine.endWatch_view keepsReact_ctl, Engine.signal_view]

/-- R312, R319: what a reaction of class Stop or above gives. -/
theorem Engine.react_stops (hc : 3 ≤ c) : (e.react c).flt.faultLPin = false ∧ (e.react c).flt.minimumOn = true ∧
    (e.react c).get 0x4100 9 = 1 ∧ (e.jobState = 1 → (e.react c).jobState = 3 ∧ (e.react c).hold 1 = true) := by
  have hview := e.react_view hc
  have hflt := Engine.view_flt hview
  refine ⟨congrArg Collector.faultLPin hflt, congrArg Collector.minimumOn hflt, ?_, fun hjob => ?_⟩
  · rw [Engine.view_get hview (by decide) (by decide)]
    exact Engine.get_put_same _ _ _ _
  · have hheld : e.stopHeld = (e.reacting.setHold 1 true).toHeld := if_pos (.inl hjob)
    have hlow : ∀ j, j < 256 → (e.react c).get 0x2200 j = e.stopHeld.get 0x2200 j := fun j hj => by
      rw [Engine.view_get hview (by decide) hj]
      exact Engine.get_put_other _ (by decide) hj (by omega)
    refine ⟨(hlow 2 (by decide)).trans ?_, (congrArg (bit · 1) (hlow 3 (by decide))).trans ?_⟩
    · rw [hheld]
      exact Engine.toHeld_jobState _
    · rw [hheld, Engine.get_toHeld _ _ _ (by decide) (by decide) (by decide), Engine.get_put_subindex _ _ (by decide)]
      exact Engine.hold_setHold _ 1

end Reactions

/-! Messages (R313, R315, R320) -/

section Messages

variable {s : State} {e : Engine} {src kind detail c : Nat}

/-- The entry of a message that nothing logged precedes, before its sequence is given (R320). -/
def Engine.freshEntry (e : Engine) (src kind detail c : Nat) : LogEntry :=
  { seq := 0, src := src, kind := kind, cls := c, orig := c, detail := detail % 2 ^ 40, time := e.now,
    acked := decide (c ≤ 1) && bit (e.get 0x4100 7) c, autoAcked := decide (c ≤ 1) && bit (e.get 0x4100 7) c, ackTime := e.now,
    incident := e.flt.nextSeq }

/-- The entry of a message that nothing logged precedes. -/
def Engine.firstEntry (e : Engine) (src kind detail c : Nat) : LogEntry :=
  { e.freshEntry src kind detail c with seq := e.flt.nextSeq }

/-- An entry logged alone, with its incident and windows. -/
def Engine.loggedAlone (e : Engine) (x : LogEntry) (detail : Nat) : Engine :=
  Engine.openWindows { e with
    flt.log := [{ x with seq := e.flt.nextSeq }], flt.nextSeq := e.flt.nextSeq + 1,
    flt.incidents := [{ seq := e.flt.nextSeq, src := x.src, orig := x.orig, cls := x.cls }] } x.src x.kind detail x.cls e.flt.nextSeq

theorem Engine.loggedAlone_log (x : LogEntry) : (e.loggedAlone x detail).flt.log = [{ x with seq := e.flt.nextSeq }] :=
  Engine.openWindows_log _ _ _ _ _

theorem Engine.loggedAlone_pinAndSeq (x : LogEntry) :
    (e.loggedAlone x detail).pinAndSeq = (e.flt.nextSeq + 1, e.flt.faultLPin, e.flt.minimumOn) :=
  Engine.openWindows_pinAndSeq _ _ _ _ _

theorem Engine.get_loggedAlone (x : LogEntry) (i j : Nat) : (e.loggedAlone x detail).get i j = e.get i j :=
  Engine.get_openWindows _ _ _ _ _ _ _

/-- The state in which a first message is reacted to. -/
def Engine.firstLogged (e : Engine) (src kind detail c : Nat) : Engine :=
  (e.put 0x4100 0x0D (message src kind c detail)).loggedAlone (e.freshEntry src kind detail c) detail

theorem Engine.firstLogged_log : (e.firstLogged src kind detail c).flt.log = [e.firstEntry src kind detail c] := by
  rw [Engine.firstLogged, Engine.loggedAlone_log, put_flt, Engine.firstEntry]

theorem Engine.firstLogged_pinAndSeq :
    (e.firstLogged src kind detail c).pinAndSeq = (e.flt.nextSeq + 1, e.flt.faultLPin, e.flt.minimumOn) := by
  rw [Engine.firstLogged, Engine.loggedAlone_pinAndSeq, put_flt]

theorem Engine.get_firstLogged (i j : Nat) :
    (e.firstLogged src kind detail c).get i j = (e.put 0x4100 0x0D (message src kind c detail)).get i j := by
  rw [Engine.firstLogged, Engine.get_loggedAlone]

/-- R320: an empty log takes the entry. -/
theorem Engine.store_first (x : LogEntry) (hlog : e.flt.log = []) :
    e.store x = ({ e with flt.log := [{ x with seq := e.flt.nextSeq }], flt.nextSeq := e.flt.nextSeq + 1 }, e.flt.nextSeq) := by
  rw [Engine.store, hlog]
  rfl

/-- What becomes of an entry of no incident once it is stored: its incident and windows, the reaction and the delivery. -/
def Engine.storedAlone (stored : Engine × Nat) (x : LogEntry) (detail msg : Nat) : Engine :=
  let e : Engine := { stored.1 with
    flt.incidents := stored.1.flt.incidents ++ [{ seq := stored.2, src := x.src, orig := x.orig, cls := x.cls }] }
  let e := (e.openWindows x.src x.kind detail x.cls stored.2).react x.cls
  if stored.2 = 0 then e.publishLog else (e.panelCount x.cls msg stored.2).deliver { x with seq := stored.2 }

theorem Engine.storedAlone_store (hlog : e.flt.log = []) (hincidents : e.flt.incidents = []) (x : LogEntry) (msg : Nat) :
    Engine.storedAlone (e.store x) x detail msg =
      if e.flt.nextSeq = 0 then ((e.loggedAlone x detail).react x.cls).publishLog
      else (((e.loggedAlone x detail).react x.cls).panelCount x.cls msg e.flt.nextSeq).deliver { x with seq := e.flt.nextSeq } := by
  rw [Engine.store_first x hlog, Engine.storedAlone, hincidents]
  rfl

/-- R314: with nothing logged no message is escalated. -/
theorem Engine.takeNew_calm (hlog : e.flt.log = []) : e.takeNew src kind detail c none c =
    Engine.storedAlone ((e.put 0x4100 0x0D (message src kind c detail)).store (e.freshEntry src kind detail c))
      (e.freshEntry src kind detail c) detail (message src kind c detail) := by
  have hcalm : (Option.isNone (none : Option Incident) && decide (c < 4) &&
      e.flt.log.any fun x => !x.acked && x.cls == c) = false := by
    rw [hlog]
    exact Bool.and_false _
  rw [Engine.takeNew, hcalm]
  simp only [Bool.false_eq_true, if_false]
  rw [bne_self_eq_false]
  rfl

/-- R313: a message that nothing logged, no window and no incident precedes is logged, reacted to and delivered. -/
theorem Engine.takeFresh_first (hlog : e.flt.log = []) (hwindows : e.flt.windows = []) (hincidents : e.flt.incidents = []) :
    e.takeFresh src kind detail c =
      if e.flt.nextSeq = 0 then ((e.firstLogged src kind detail c).react c).publishLog
      else (((e.firstLogged src kind detail c).react c).panelCount c (message src kind c detail) e.flt.nextSeq).deliver
        (e.firstEntry src kind detail c) := by
  have hshadow : e.shadowing src kind detail c = none := by rw [Engine.shadowing, hwindows, List.find?_nil]
  have htake : e.takeFresh src kind detail c = e.takeNew src kind detail c none c := by
    rw [Engine.takeFresh, hincidents, List.find?_nil]
    dsimp only
    rw [hshadow]
  have hflt : (e.put 0x4100 0x0D (message src kind c detail)).flt = e.flt := put_flt ..
  rw [htake, Engine.takeNew_calm hlog, Engine.storedAlone_store (by rw [hflt, hlog]) (by rw [hflt, hincidents]), hflt]
  rfl

/-- R315: a message that nothing logged precedes is no repeat. -/
theorem Engine.raise_first (hawake : e.idle = 0) (hc : c = e.classOf src kind detail) (hlog : e.flt.log = []) :
    e.raise src kind detail = e.takeFresh src kind detail c := by
  have hnone : findSame src kind (keyOf src kind (detail % 2 ^ 40)) e.flt.log = none := by rw [hlog]; rfl
  simp only [Engine.raise, Engine.wake_awake _ _ hawake, ite_self, hnone, hc]

/-- R315: a message that agrees with an unacknowledged entry is taken as its repeat. -/
theorem Engine.raise_repeat {x : LogEntry} (hawake : e.idle = 0)
    (hsame : findSame src kind (keyOf src kind (detail % 2 ^ 40)) e.flt.log = some x) (hacked : x.acked = false) :
    e.raise src kind detail = e.takeRepeat x src kind detail := by
  simp only [Engine.raise, Engine.wake_awake _ _ hawake, ite_self, hsame]
  exact if_pos (.inl (by rw [hacked]; rfl))

/-- R320: the entry of a first message below Stop, its count and its class published. -/
theorem Engine.takeFresh_low (hc : c < 3) (hlog : e.flt.log = []) (hwindows : e.flt.windows = [])
    (hincidents : e.flt.incidents = []) (hseq : e.flt.nextSeq ≠ 0) :
    let t := e.takeFresh src kind detail c
    t.flt.log = [(e.firstEntry src kind detail c).caughtUp] ∧
      t.pinAndSeq = (e.flt.nextSeq + 1, e.flt.faultLPin, e.flt.minimumOn) ∧ t.get 0x4100 1 = 1 ∧
      t.get 0x4100 4 = (if (e.firstEntry src kind detail c).acked then 0xff else c) ∧
      t.get 0x4100 0x0D = message src kind c detail := by
  rw [Engine.takeFresh_first hlog hwindows hincidents, if_neg hseq, Engine.react_low hc]
  have hhighest : highestUnacked [e.firstEntry src kind detail c] =
      if (e.firstEntry src kind detail c).acked then 0xff else c := by
    cases hacked : (e.firstEntry src kind detail c).acked
    · rw [highestUnacked, List.filter_cons_of_pos (by rw [hacked]; rfl)]
      exact Nat.zero_max c
    · rw [highestUnacked, List.filter_cons_of_neg (by rw [hacked]; decide)]
      rfl
  refine ⟨?_, ?_, ?_, ?_, ?_⟩
  · rw [Engine.deliver_log, Engine.panelCount_log, Engine.firstLogged_log]
    exact if_pos rfl
  · rw [Engine.deliver_pinAndSeq, Engine.panelCount_pinAndSeq, Engine.firstLogged_pinAndSeq]
  · rw [Engine.get_deliver _ (by decide) (by decide) (by decide), Engine.get_publishLog_count, Engine.panelCount_log,
      Engine.firstLogged_log]
    rfl
  · rw [Engine.get_deliver _ (by decide) (by decide) (by decide), Engine.get_publishLog_highest, Engine.panelCount_log,
      Engine.firstLogged_log, hhighest]
  · rw [Engine.get_deliver _ (by decide) (by decide) (by decide), Engine.get_publishLog (by decide) (by decide) (by decide),
      Engine.get_panelCount, Engine.get_firstLogged, Engine.get_put_same]

/-- R315: a repeat below Stop is counted in its entry and published. -/
theorem Engine.takeRepeat_low {x : LogEntry} (hx : x.cls < 3) :
    (e.takeRepeat x src kind detail).flt.log = updLog x.seq (fun y => { y with repeats := satAdd 32 y.repeats 1 }) e.flt.log ∧
      (e.takeRepeat x src kind detail).flt.nextSeq = e.flt.nextSeq ∧
      (e.takeRepeat x src kind detail).get 0x4100 0x0D = x.msg := by
  have hagain : decide (3 ≤ x.cls) = false := decide_eq_false (Nat.not_le.mpr hx)
  simp only [Engine.takeRepeat, Engine.react_low hx, hagain, Bool.not_false, Bool.and_true, Engine.publishLog_flt,
    Engine.openWindows_log]
  refine ⟨rfl, congrArg Prod.fst (Engine.openWindows_pinAndSeq _ _ _ _ _), ?_⟩
  rw [Engine.get_publishLog (by decide) (by decide) (by decide), Engine.get_openWindows, Engine.get_put_same]

/-- R312, R319: what the delivery of an entry of class Stop or above keeps of its reaction. -/
theorem Engine.takeFresh_stops (hc : 3 ≤ c) (hlog : e.flt.log = []) (hwindows : e.flt.windows = [])
    (hincidents : e.flt.incidents = []) :
    let t := e.takeFresh src kind detail c
    t.flt.faultLPin = false ∧ t.flt.minimumOn = true ∧ t.get 0x4100 9 = 1 ∧
      (e.jobState = 1 → t.jobState = 3 ∧ t.hold 1 = true) := by
  obtain ⟨hpin, hmin, hbit, hjob⟩ := Engine.react_stops (e := e.firstLogged src kind detail c) hc
  have hstate : (e.firstLogged src kind detail c).jobState = e.jobState := by
    rw [Engine.jobState, Engine.get_firstLogged]
    exact Engine.get_put_other _ (by decide) (by decide) (by decide)
  rw [hstate] at hjob
  rw [Engine.takeFresh_first hlog hwindows hincidents]
  generalize (e.firstLogged src kind detail c).react c = y at hpin hmin hbit hjob
  dsimp only [Engine.jobState, Engine.hold] at hjob ⊢
  split_ifs
  · rw [Engine.publishLog_flt, Engine.get_publishLog (by decide) (by decide) (by decide),
      Engine.get_publishLog (by decide) (by decide) (by decide), Engine.get_publishLog (by decide) (by decide) (by decide)]
    exact ⟨hpin, hmin, hbit, hjob⟩
  · generalize hdelivered : Engine.deliver _ _ = z
    have hkept : z.pinAndSeq = y.pinAndSeq := by rw [← hdelivered, Engine.deliver_pinAndSeq, Engine.panelCount_pinAndSeq]
    have hget : ∀ i j, j < 256 → i ≠ 0x1001 → i ≠ 0x1003 → (i = 0x4100 → j ≠ 1 ∧ j ≠ 4) →
        (0x4100 ≠ i ∨ 0x0E ≠ j) →
        z.get i j = y.get i j := fun i j hj hreg hfields hlog hcount => by
      rw [← hdelivered, Engine.get_deliver _ hj hfields hcount, Engine.get_publishLog hj hreg hlog, Engine.get_panelCount]
    rw [hget 0x4100 9 (by decide) (by decide) (by decide) (by decide) (by decide),
      hget 0x2200 2 (by decide) (by decide) (by decide) (by decide) (by decide),
      hget 0x2200 3 (by decide) (by decide) (by decide) (by decide) (by decide)]
    exact ⟨(congrArg (·.2.1) hkept).trans hpin, (congrArg (·.2.2) hkept).trans hmin, hbit, hjob⟩

theorem becomes_faultMessage (hlive : s.e.live = true) (src kind : Byte) (detail : BitVec 40) :
    Becomes (.faultMessage src kind detail) s (s.e.raise src.toNat kind.toNat detail.toNat) :=
  becomes_of_whenLive (f := fun e => e.raise src.toNat kind.toNat detail.toNat) rfl hlive

end Messages

/-- Settles O45: a first message becomes the only entry and is delivered; one that agrees with an unacknowledged entry is counted
in it; the reaction of class Stop and above is not undone by the delivery. -/
theorem faultMessages : Obligations.FaultMessages := by
  intro s src kind detail c hlive hawake hc
  have hmessage := becomes_faultMessage hlive src kind detail
  refine ⟨fun hlow hlog hwindows hincidents hseq => ?_, fun x hsame hacked hx => ?_, fun hhigh hlog hwindows hincidents => ?_⟩
  · rw [Engine.raise_first hawake hc hlog] at hmessage
    obtain ⟨hentry, hpin, hcount, hhighest, hmsg⟩ :=
      Engine.takeFresh_low (src := src.toNat) (kind := kind.toNat) (detail := detail.toNat) hlow hlog hwindows hincidents hseq
    exact hmessage.completes ⟨_, hentry, rfl, rfl, rfl, rfl, Nat.mod_eq_of_lt detail.isLt, rfl, rfl, rfl,
      congrArg (·.1) hpin, hcount, hhighest, hmsg, congrArg (·.2.1) hpin⟩
  · rw [Engine.raise_repeat hawake hsame hacked] at hmessage
    exact hmessage.completes (Engine.takeRepeat_low hx)
  · rw [Engine.raise_first hawake hc hlog] at hmessage
    exact hmessage.completes (Engine.takeFresh_stops hhigh hlog hwindows hincidents)

end Sys2Proof.Machine
